-- ==== Sys2Proof/Word.lean ====
section
/-! DEFINITION. The words the LW38 stores and carries (R193, R194, R195, R197). -/

namespace Sys2Proof

/-- A byte of a frame or of a stored item. -/
abbrev Byte := BitVec 8

/-- A word of the profile store, a check word of 32 bits, a sequence number on the wire. -/
abbrev Word32 := BitVec 32

/-- A bin tag's 64-bit ID (R119, R123). -/
abbrev TagId := BitVec 64

/-- A lock code of 32 bytes (R103). -/
abbrev LockCode := BitVec 256

/-- A journal slot of 64 bytes (R153); byte `n` of the layout of R194 is bits `8n` to `8n + 7`. -/
abbrev SlotBits := BitVec 512

/-- Bytes 0 to 32 of the stored metrology block (R198), laid out the same way. -/
abbrev BlockBits := BitVec 264

/-- The erased word of the profile store (R50). -/
abbrev allOnes32 : Word32 := 0xFFFFFFFF#32

/-- The all-ones tag ID, the encoding of an absent tag (R120, R123). -/
abbrev noTagId : TagId := 0xFFFFFFFFFFFFFFFF#64

/-- The largest number a 32-bit count may take, because all ones is the encoding of an absent one
(R156, R172, R190). -/
abbrev maxCount32 : Nat := 4294967294

end Sys2Proof
end

