-- ==== Sys2Proof/Config.lean ====
section
/-! DEFINITION. The figures the manual fixes for every LW38, and the values it leaves open. -/

namespace Sys2Proof.Config

/-- The maker code, fixed at manufacture (R103). The manual gives no value: a constant with no body. -/
opaque makerCode : LockCode

/-- A free number, one for each draw (log 11). Nothing about it can be proved. -/
opaque freeNat : Nat → Nat

/-- A free 64-byte pattern, one for each draw (log 11): what a cut write or erase leaves in a slot. -/
opaque freePattern : Nat → SlotBits

/-- A free byte at a place of a message part whose outcome data has no stated layout (log 17). -/
opaque freeByte : Nat → Nat → Byte

/-- What a payload total holds when a sum passes 4,294,967,294 g: R136 gives the range and no rule (log 25). -/
opaque totalBeyondRange : Nat → Nat

/-- What a 24-bit covered or excess field holds for an amount above 16,777,214 g: R194 gives the width and no
rule (log 26). -/
opaque amountBeyondField : Nat → BitVec 24

/-- Requests a receive queue holds (R182). -/
def rxCapacity : Nat := 8

/-- Messages a transmit queue holds (R182). -/
def txCapacity : Nat := 16

/-- Entries of the household table (R124). -/
def tableCapacity : Nat := 4096

/-- Entries of the tag list (R119). -/
def tagListCapacity : Nat := 4

/-- Entries of the settle list (R82). -/
def settleCapacity : Nat := 16

/-- Entries of the outcome list (R114). -/
def outcomeCapacity : Nat := 32

/-- Records in the commit queue, and reservations together with them (R157). -/
def queueCapacity : Nat := 4

/-- Sectors of the journal, and slots of a sector (R153). -/
def sectors : Nat := 32

/-- Slots of a sector (R153). -/
def slotsPerSector : Nat := 128

/-- The free space below which JOURNAL_LOW is sent (R163). -/
def lowMargin : Nat := 256

/-- The failed-attempt limit (R104). -/
def failedLimit : Nat := 5

/-- The last element address (R26, R31). -/
def lastElement : Nat := 16383

/-- Chassis silence in ms (R175). -/
def silenceMs : Nat := 1000

/-- Payload period in ms (R179). -/
def payloadMs : Nat := 500

/-- Rated current of a coil output in mA (R70). -/
def ratedCurrent : Nat := 3000

/-- Short threshold in mA (R70). -/
def shortCurrent : Nat := 4500

/-- Threshold of ZERO_HEALTH (R113). -/
def zeroHealthThreshold : Nat := 3

/-- Threshold of UNSTABLE_RATE (R114). -/
def unstableThreshold : Nat := 8

/-- Threshold of CELL_BALANCE (R115). -/
def balanceThreshold : Nat := 60

end Sys2Proof.Config
end

