-- ==== Sys2Proof/Syntax.lean ====
section
/-! DEFINITION. The commands of the LW38: one constructor of `Instr` for each row of the table of steps, with the
operands the step needs. A request's operands are its header and the fields of its payload (R197). -/

namespace Sys2Proof

/-- The two body variants (R1). -/
inductive Variant where
  | split
  | single
  deriving DecidableEq, Repr

/-- The masters that may send frames, as the ports name them (R183, R184). -/
inductive Node where
  | routeTerminal
  | console
  | chassis
  | calTool
  deriving DecidableEq, Repr

/-- The ports that hold queues (R182). -/
inductive Port where
  | body
  | chassis
  | service
  deriving DecidableEq, Repr

/-- The two CAN FD ports (R182). -/
inductive CanPort where
  | body
  | chassis
  deriving DecidableEq, Repr

/-- The two UART lines (R184, R185). -/
inductive Line where
  | service
  | tagLine
  deriving DecidableEq, Repr

/-- The six motion channels, by their numbers 0 to 5 (R26). -/
inductive Channel where
  | reach
  | lift
  | grip
  | divert
  | packA
  | packB
  deriving DecidableEq, Repr

/-- The two coils of a channel: A is driven by a positive command, B by a negative one (R64). -/
inductive Side where
  | a
  | b
  deriving DecidableEq, Repr

/-- The two compartments (R136). -/
inductive Compartment where
  | a
  | b
  deriving DecidableEq, Repr

/-- The inputs the travel snapshot watches (R178). -/
inductive WatchedInput where
  | armStowed
  | gripOpen
  | flapAtA
  | flapAtB
  deriving DecidableEq, Repr

/-- The present values of the inputs of R42 that have no event of their own in the table of steps (log 5). -/
structure Sensors where
  armAngle : Int
  reachPos : Int
  gripPressure : Int
  supplyPressure : Int
  packAHome : Bool
  packAEnd : Bool
  packBHome : Bool
  packBEnd : Bool
  tailgateOpen : Bool
  deriving DecidableEq, Repr

/-- What the Link Ports know of a request besides its kind and payload: who sent it, the priority of its CAN
identifier (0 on the service line) and its pairing tag (R183, R186). -/
structure Header where
  src : Node
  prio : BitVec 3
  tag : Byte
  deriving DecidableEq, Repr

/-- A payload of the length its kind calls for, or `none` for one of another length (R186 test 3). -/
abbrev Payload (α : Type) := Option α

/-- LIFT (R4, R197). -/
structure LiftFields where
  stream : Byte
  slot : Byte
  creep : Byte
  deriving DecidableEq, Repr

/-- ENTRY_PUT (R123, R197). -/
structure EntryFields where
  tag : TagId
  account : Word32
  status : Byte
  streams : Byte
  slot : Byte
  tariff : Byte
  allowance : BitVec 24
  excessPolicy : Byte
  liftLimit : Byte
  deriving DecidableEq, Repr

/-- ENTRY_GET (R127, R197). -/
structure EntryGetFields where
  form : Byte
  tag : TagId
  deriving DecidableEq, Repr

/-- JOURNAL_READ (R166, R197). -/
structure JournalReadFields where
  form : Byte
  seq : Word32
  deriving DecidableEq, Repr

/-- OPEN_LOCK (R103, R197). -/
structure OpenLockFields where
  identity : Byte
  code : LockCode
  deriving DecidableEq, Repr

/-- SET_CODE (R105, R197). -/
structure SetCodeFields where
  code : LockCode
  level : Byte
  deriving DecidableEq, Repr

/-- PROFILE_WRITE (R52, R197). -/
structure ProfileWriteFields where
  area : Byte
  offset : BitVec 16
  words : List Word32
  deriving DecidableEq, Repr

/-- CHASSIS_STATE (R174, R196). -/
structure ChassisFields where
  speed : BitVec 16
  rpm : BitVec 16
  brake : Byte
  deriving DecidableEq, Repr

/-- A request as its kind and payload give it (R186, R197). `other` is every kind that no request command takes: one the
part does not define, or one it only sends or takes on the tag line. -/
inductive Request where
  | lift (b : Payload LiftFields)
  | permit (b : Payload Unit)
  | resume (b : Payload Unit)
  | abort (b : Payload Unit)
  | cycleClear (b : Payload Unit)
  | pack (b : Payload Byte)
  | unload (b : Payload Byte)
  | abortUnload (b : Payload Byte)
  | faultClear (b : Payload Byte)
  | statusGet (b : Payload Byte)
  | entryPut (b : Payload EntryFields)
  | entryDrop (b : Payload TagId)
  | entryGet (b : Payload EntryGetFields)
  | tableClear (b : Payload Unit)
  | tableReady (b : Payload Unit)
  | journalRead (b : Payload JournalReadFields)
  | journalRelease (b : Payload Word32)
  | timeSet (b : Payload Word32)
  | slotMap (b : Payload (List (Byte × Byte)))
  | settingPut (b : Payload (List (Byte × BitVec 16)))
  | settingGet (b : Payload Byte)
  | freezeLock (b : Payload Unit)
  | openLock (b : Payload OpenLockFields)
  | closeLock (b : Payload Unit)
  | setCode (b : Payload SetCodeFields)
  | trialSet (b : Payload (List (Byte × Word32)))
  | trialDiscard (b : Payload Unit)
  | commit (b : Payload Unit)
  | serviceZero (b : Payload Unit)
  | liveWeight (b : Payload Unit)
  | attrRead (b : Payload Unit)
  | profileWrite (b : Payload ProfileWriteFields)
  | profileErase (b : Payload Byte)
  | shadowLoad (b : Payload Unit)
  | chassisState (b : Payload ChassisFields)
  | other (kind : Byte)
  deriving DecidableEq, Repr

/-- A frame as it stands on the medium: the 29-bit identifier and the data bytes of a CAN frame (R183), or the bytes of
a whole service-line frame from its start byte to its check (R184). -/
inductive RawFrame where
  | can (port : CanPort) (id : BitVec 29) (data : List Byte)
  | line (bytes : List Byte)
  deriving DecidableEq, Repr

/-- The commands, in the order of the table of steps. -/
inductive Instr where
  | fullReset (strapGrounded : Bool) (ptoEngaged : Bool)
  | settingsReadDone
  | metrologyReadDone
  | storeVerifyDone
  | journalScanDone
  | frameArrival (f : RawFrame)
  | unknownKind (h : Header) (kind : Byte)
  | messageSent (p : Port)
  | serviceByteGap (l : Line)
  | tagLineBreak
  | busOff (p : CanPort)
  | linkReset (p : Port)
  | lift (h : Header) (b : Payload LiftFields)
  | permit (h : Header) (b : Payload Unit)
  | resume (h : Header) (b : Payload Unit)
  | abort (h : Header) (b : Payload Unit)
  | cycleClear (h : Header) (b : Payload Unit)
  | pack (h : Header) (b : Payload Byte)
  | unload (h : Header) (b : Payload Byte)
  | abortUnload (h : Header) (b : Payload Byte)
  | faultClear (h : Header) (b : Payload Byte)
  | statusGet (h : Header) (b : Payload Byte)
  | entryPut (h : Header) (b : Payload EntryFields)
  | entryDrop (h : Header) (b : Payload TagId)
  | entryGet (h : Header) (b : Payload EntryGetFields)
  | tableClear (h : Header) (b : Payload Unit)
  | tableReady (h : Header) (b : Payload Unit)
  | journalRead (h : Header) (b : Payload JournalReadFields)
  | journalRelease (h : Header) (b : Payload Word32)
  | timeSet (h : Header) (b : Payload Word32)
  | slotMap (h : Header) (b : Payload (List (Byte × Byte)))
  | settingPut (h : Header) (b : Payload (List (Byte × BitVec 16)))
  | settingGet (h : Header) (b : Payload Byte)
  | freezeLock (h : Header) (b : Payload Unit)
  | openLock (h : Header) (b : Payload OpenLockFields) (wireOpen : Bool)
  | closeLock (h : Header) (b : Payload Unit)
  | setCode (h : Header) (b : Payload SetCodeFields)
  | trialSet (h : Header) (b : Payload (List (Byte × Word32)))
  | trialDiscard (h : Header) (b : Payload Unit)
  | commit (h : Header) (b : Payload Unit)
  | serviceZero (h : Header) (b : Payload Unit)
  | liveWeight (h : Header) (b : Payload Unit)
  | attrRead (h : Header) (b : Payload Unit)
  | profileWrite (h : Header) (b : Payload ProfileWriteFields)
  | profileErase (h : Header) (b : Payload Byte)
  | shadowLoad (h : Header) (b : Payload Unit)
  | chassisState (h : Header) (b : Payload ChassisFields)
  | tagSeen (tag : TagId) (strength : Byte)
  | profileWriteDone
  | profileEraseDone
  | shadowLoadDone
  | commitWriteDone
  | counterWriteDone
  | verifyWriteDone
  | makerWriteDone
  | codeWriteDone
  | settingsWriteDone
  | recordWriteDone
  | sectorEraseDone
  | releaseWriteDone
  | stepExpiry (c : Channel) (x : Sensors)
  | samplePair (cA : BitVec 24) (cB : BitVec 24)
  | inclinometerReading (pitch : Int) (roll : Int)
  | inclinometerStale
  | pressureReading (c : Compartment) (pressure : Nat)
  | ptoChange (on : Bool)
  | watchedInputChange (w : WatchedInput) (level : Bool)
  | permitExpiry
  | silenceExpiry
  | payloadTimerExpiry
  | secondTick
  | coilPeriodStart (c : Channel) (d : Side) (meanCurrent : Nat)
  | coilOnTimeEnd (c : Channel) (d : Side)
  | coilShort (c : Channel) (d : Side) (current : Nat)
  | lineByteArrival (l : Line) (b : Byte)
  deriving DecidableEq, Repr

end Sys2Proof
end

