-- ==== Sys2Proof/WellFormed.lean ====
section
/-! DEFINITION. What the medium and the sensors can present: the ranges of R42, R76, R183, R184, R186 and R197. A meaning
holds for every command; these checks say which commands can occur. -/

namespace Sys2Proof

/-- A code that one of the request commands takes (R197). -/
def isRequestCode (k : Nat) : Bool :=
  (1 ≤ k && k ≤ 10) || (16 ≤ k && k ≤ 27) || (32 ≤ k && k ≤ 43) || k == 48

/-- The CAN FD data lengths (R197). -/
def isCanLength (n : Nat) : Bool :=
  n ≤ 8 || n == 12 || n == 16 || n == 20 || n == 24 || n == 32 || n == 48 || n == 64

/-- A service-line frame carries no priority (R183, R184). -/
def Header.wf (h : Header) : Bool :=
  match h.src with
  | .calTool => h.prio == 0#3
  | _ => true

/-- The most list entries a payload can carry: 63 bytes after the pairing tag on CAN, 248 on the service line. -/
def listFits (header entry n : Nat) (src : Node) : Bool :=
  match src with
  | .calTool => header + entry * n ≤ 248
  | _ => header + entry * n ≤ 63

/-- The counts of a list fit one byte and its entries fit the frame (R197). -/
def Request.wf (src : Node) : Request → Bool
  | .slotMap (some l) => listFits 1 2 l.length src
  | .settingPut (some l) => listFits 1 3 l.length src
  | .trialSet (some l) => listFits 1 5 l.length src
  | .profileWrite (some f) => listFits 4 4 f.words.length src
  | .other k => !isRequestCode k.toNat
  | _ => true

/-- The ranges of the inputs (R42). -/
def Sensors.wf (x : Sensors) : Bool :=
  decide (-9000 ≤ x.armAngle) && decide (x.armAngle ≤ 18000) && decide (0 ≤ x.reachPos) && decide (x.reachPos ≤ 3000)
    && decide (0 ≤ x.gripPressure) && decide (x.gripPressure ≤ 4000)
    && decide (0 ≤ x.supplyPressure) && decide (x.supplyPressure ≤ 4000)

/-- A frame the medium can carry: a CAN FD length, or at most the 254 bytes of the longest line frame. -/
def RawFrame.wf : RawFrame → Bool
  | .can _ _ data => isCanLength data.length
  | .line bytes => bytes.length ≤ 254

/-- The commands that can occur. -/
def Instr.wf : Instr → Bool
  | .frameArrival f => f.wf
  | .unknownKind h k => h.wf && !isRequestCode k.toNat
  | .slotMap h b => h.wf && (Request.slotMap b).wf h.src
  | .settingPut h b => h.wf && (Request.settingPut b).wf h.src
  | .trialSet h b => h.wf && (Request.trialSet b).wf h.src
  | .profileWrite h b => h.wf && (Request.profileWrite b).wf h.src
  | .lift h _ | .permit h _ | .resume h _ | .abort h _ | .cycleClear h _ | .pack h _ | .unload h _ => h.wf
  | .abortUnload h _ | .faultClear h _ | .statusGet h _ | .entryPut h _ | .entryDrop h _ | .entryGet h _ => h.wf
  | .tableClear h _ | .tableReady h _ | .journalRead h _ | .journalRelease h _ | .timeSet h _ => h.wf
  | .settingGet h _ | .freezeLock h _ | .openLock h _ _ | .closeLock h _ | .setCode h _ | .trialDiscard h _ => h.wf
  | .commit h _ | .serviceZero h _ | .liveWeight h _ | .attrRead h _ | .profileErase h _ | .shadowLoad h _ => h.wf
  | .chassisState h _ => h.wf
  | .stepExpiry _ x => x.wf
  | .inclinometerReading p r => decide (p.natAbs ≤ 18000) && decide (r.natAbs ≤ 18000)
  | .pressureReading _ p => p ≤ 4000
  | .fullReset _ _ | .settingsReadDone | .metrologyReadDone | .storeVerifyDone | .journalScanDone => true
  | .messageSent _ | .serviceByteGap _ | .tagLineBreak | .busOff _ | .linkReset _ | .tagSeen _ _ => true
  | .profileWriteDone | .profileEraseDone | .shadowLoadDone | .commitWriteDone | .counterWriteDone => true
  | .verifyWriteDone | .makerWriteDone | .codeWriteDone | .settingsWriteDone | .recordWriteDone => true
  | .sectorEraseDone | .releaseWriteDone | .samplePair _ _ | .inclinometerStale | .ptoChange _ => true
  | .watchedInputChange _ _ | .permitExpiry | .silenceExpiry | .payloadTimerExpiry | .secondTick => true
  | .coilPeriodStart _ _ _ | .coilOnTimeEnd _ _ | .coilShort _ _ _ | .lineByteArrival _ _ => true

end Sys2Proof
end

