-- ==== Sys2Proof/Decode.lean ====
section
/-! DEFINITION. Requests as bytes (R186, R193, R197): the decoder that a checked frame goes through, total on any bytes,
and the encoder of a request's payload. No row of the table of steps has bits, so `decodeTableWord` reads none. -/

namespace Sys2Proof

/-! ## Little-endian fields (R193) -/

/-- The number that bytes spell, least significant byte first (R193). -/
def leNat : List Byte → Nat
  | [] => 0
  | b :: bs => b.toNat + 256 * leNat bs

/-- The `n` bytes of a number, least significant byte first (R193). -/
def toBytes : Nat → Nat → List Byte
  | 0, _ => []
  | n + 1, v => BitVec.ofNat 8 v :: toBytes n (v / 256)

/-- The field of `n` bytes from byte `i` of a payload, as a word of `w` bits (R193, R197). -/
def fieldAt (w i n : Nat) (p : List Byte) : BitVec w :=
  BitVec.ofNat w (leNat ((p.drop i).take n))

/-- One byte of a payload. -/
def byteAt (i : Nat) (p : List Byte) : Byte := fieldAt 8 i 1 p

/-- The entries of a list payload: `count` entries of `size` bytes after `skip` header bytes (R197). -/
def entriesAt {α : Type} (read : List Byte → α) (size : Nat) : Nat → List Byte → List α
  | 0, _ => []
  | n + 1, p => read p :: entriesAt read size n (p.drop size)

/-! ## Lengths (R186 test 3, R197) -/

/-- The smallest CAN FD data length that holds `n` bytes; above 64 bytes there is none and `n` itself is answered. -/
def canLength (n : Nat) : Nat :=
  if n ≤ 8 then n else if n ≤ 12 then 12 else if n ≤ 16 then 16 else if n ≤ 20 then 20
  else if n ≤ 24 then 24 else if n ≤ 32 then 32 else if n ≤ 48 then 48 else if n ≤ 64 then 64 else n

/-- The payload has the length `len` its kind calls for. On the body link it stands with the pairing tag in the smallest
CAN FD length; on the chassis link with no tag; on the service line it has just that length (R197). -/
def lengthFits (port : Port) (len : Nat) (p : List Byte) : Bool :=
  match port with
  | .body => p.length + 1 == canLength (len + 1)
  | .chassis => p.length == canLength len
  | .service => p.length == len

/-- A payload of a fixed length, read by `read`; `none` when the length is another one (R186 test 3). -/
def fixedPayload {α : Type} (port : Port) (len : Nat) (p : List Byte) (read : List Byte → α) : Payload α :=
  if lengthFits port len p then some (read p) else none

/-- A payload of a list: its count stands in byte `countAt`, and the length must agree with it (R186, R197). -/
def listPayload {α : Type} (port : Port) (countAt size : Nat) (p : List Byte) (read : List Byte → α) :
    Payload (List α) :=
  let n := (byteAt countAt p).toNat
  if countAt < p.length && lengthFits port (countAt + 1 + size * n) p then
    some (entriesAt read size n (p.drop (countAt + 1)))
  else none

/-! ## Kinds (R197) -/

/-- The code of a request's kind (R197). -/
def Request.code : Request → Byte
  | .lift _ => 1#8
  | .permit _ => 2#8
  | .resume _ => 3#8
  | .abort _ => 4#8
  | .cycleClear _ => 5#8
  | .pack _ => 6#8
  | .unload _ => 7#8
  | .abortUnload _ => 8#8
  | .faultClear _ => 9#8
  | .statusGet _ => 10#8
  | .entryPut _ => 16#8
  | .entryDrop _ => 17#8
  | .entryGet _ => 18#8
  | .tableClear _ => 19#8
  | .tableReady _ => 20#8
  | .journalRead _ => 21#8
  | .journalRelease _ => 22#8
  | .timeSet _ => 23#8
  | .slotMap _ => 24#8
  | .settingPut _ => 25#8
  | .settingGet _ => 26#8
  | .freezeLock _ => 27#8
  | .openLock _ => 32#8
  | .closeLock _ => 33#8
  | .setCode _ => 34#8
  | .trialSet _ => 35#8
  | .trialDiscard _ => 36#8
  | .commit _ => 37#8
  | .serviceZero _ => 38#8
  | .liveWeight _ => 39#8
  | .attrRead _ => 40#8
  | .profileWrite _ => 41#8
  | .profileErase _ => 42#8
  | .shadowLoad _ => 43#8
  | .chassisState _ => 48#8
  | .other k => k

/-- The fields of PROFILE_WRITE: area, offset, count and words; the count must agree with the length (R197). -/
def profileWritePayload (port : Port) (p : List Byte) : Payload ProfileWriteFields :=
  (listPayload port 3 4 p (fieldAt 32 0 4)).map fun ws =>
    { area := byteAt 0 p, offset := fieldAt 16 1 2 p, words := ws }

/-- The request that a checked frame spells: its kind's code and the bytes after the pairing tag (R186, R197). -/
def decodeRequest (port : Port) (kind : Byte) (p : List Byte) : Request :=
  match kind.toNat with
  | 1 => .lift (fixedPayload port 3 p fun p => { stream := byteAt 0 p, slot := byteAt 1 p, creep := byteAt 2 p })
  | 2 => .permit (fixedPayload port 0 p fun _ => ())
  | 3 => .resume (fixedPayload port 0 p fun _ => ())
  | 4 => .abort (fixedPayload port 0 p fun _ => ())
  | 5 => .cycleClear (fixedPayload port 0 p fun _ => ())
  | 6 => .pack (fixedPayload port 1 p (byteAt 0))
  | 7 => .unload (fixedPayload port 1 p (byteAt 0))
  | 8 => .abortUnload (fixedPayload port 1 p (byteAt 0))
  | 9 => .faultClear (fixedPayload port 1 p (byteAt 0))
  | 10 => .statusGet (fixedPayload port 1 p (byteAt 0))
  | 16 => .entryPut (fixedPayload port 21 p fun p =>
      { tag := fieldAt 64 0 8 p, account := fieldAt 32 8 4 p, status := byteAt 12 p, streams := byteAt 13 p,
        slot := byteAt 14 p, tariff := byteAt 15 p, allowance := fieldAt 24 16 3 p, excessPolicy := byteAt 19 p,
        liftLimit := byteAt 20 p })
  | 17 => .entryDrop (fixedPayload port 8 p (fieldAt 64 0 8))
  | 18 => .entryGet (fixedPayload port 9 p fun p => { form := byteAt 0 p, tag := fieldAt 64 1 8 p })
  | 19 => .tableClear (fixedPayload port 0 p fun _ => ())
  | 20 => .tableReady (fixedPayload port 0 p fun _ => ())
  | 21 => .journalRead (fixedPayload port 5 p fun p => { form := byteAt 0 p, seq := fieldAt 32 1 4 p })
  | 22 => .journalRelease (fixedPayload port 4 p (fieldAt 32 0 4))
  | 23 => .timeSet (fixedPayload port 4 p (fieldAt 32 0 4))
  | 24 => .slotMap (listPayload port 0 2 p fun e => (byteAt 0 e, byteAt 1 e))
  | 25 => .settingPut (listPayload port 0 3 p fun e => (byteAt 0 e, fieldAt 16 1 2 e))
  | 26 => .settingGet (fixedPayload port 1 p (byteAt 0))
  | 27 => .freezeLock (fixedPayload port 0 p fun _ => ())
  | 32 => .openLock (fixedPayload port 33 p fun p => { identity := byteAt 0 p, code := fieldAt 256 1 32 p })
  | 33 => .closeLock (fixedPayload port 0 p fun _ => ())
  | 34 => .setCode (fixedPayload port 33 p fun p => { code := fieldAt 256 0 32 p, level := byteAt 32 p })
  | 35 => .trialSet (listPayload port 0 5 p fun e => (byteAt 0 e, fieldAt 32 1 4 e))
  | 36 => .trialDiscard (fixedPayload port 0 p fun _ => ())
  | 37 => .commit (fixedPayload port 0 p fun _ => ())
  | 38 => .serviceZero (fixedPayload port 0 p fun _ => ())
  | 39 => .liveWeight (fixedPayload port 0 p fun _ => ())
  | 40 => .attrRead (fixedPayload port 0 p fun _ => ())
  | 41 => .profileWrite (profileWritePayload port p)
  | 42 => .profileErase (fixedPayload port 1 p (byteAt 0))
  | 43 => .shadowLoad (fixedPayload port 0 p fun _ => ())
  | 48 => .chassisState (fixedPayload port 5 p fun p =>
      { speed := fieldAt 16 0 2 p, rpm := fieldAt 16 2 2 p, brake := byteAt 4 p })
  | _ => .other kind

/-! ## The encoder of payloads (R197) -/

/-- The payload bytes of a request; a request whose payload has another length has none. -/
def Request.payload : Request → Option (List Byte)
  | .lift b => b.map fun f => [f.stream, f.slot, f.creep]
  | .pack b | .unload b | .abortUnload b | .faultClear b | .statusGet b | .settingGet b | .profileErase b =>
      b.map fun x => [x]
  | .entryPut b => b.map fun f =>
      toBytes 8 f.tag.toNat ++ toBytes 4 f.account.toNat ++ [f.status, f.streams, f.slot, f.tariff]
        ++ toBytes 3 f.allowance.toNat ++ [f.excessPolicy, f.liftLimit]
  | .entryDrop b => b.map fun t => toBytes 8 t.toNat
  | .entryGet b => b.map fun f => f.form :: toBytes 8 f.tag.toNat
  | .journalRead b => b.map fun f => f.form :: toBytes 4 f.seq.toNat
  | .journalRelease b | .timeSet b => b.map fun v => toBytes 4 v.toNat
  | .slotMap b => b.map fun l => BitVec.ofNat 8 l.length :: l.flatMap fun e => [e.1, e.2]
  | .settingPut b => b.map fun l => BitVec.ofNat 8 l.length :: l.flatMap fun e => e.1 :: toBytes 2 e.2.toNat
  | .trialSet b => b.map fun l => BitVec.ofNat 8 l.length :: l.flatMap fun e => e.1 :: toBytes 4 e.2.toNat
  | .openLock b => b.map fun f => f.identity :: toBytes 32 f.code.toNat
  | .setCode b => b.map fun f => toBytes 32 f.code.toNat ++ [f.level]
  | .profileWrite b => b.map fun f =>
      [f.area] ++ toBytes 2 f.offset.toNat ++ [BitVec.ofNat 8 f.words.length]
        ++ f.words.flatMap fun w => toBytes 4 w.toNat
  | .chassisState b => b.map fun f => toBytes 2 f.speed.toNat ++ toBytes 2 f.rpm.toNat ++ [f.brake]
  | .permit b | .resume b | .abort b | .cycleClear b | .tableClear b | .tableReady b | .freezeLock b => b.map fun _ => []
  | .closeLock b | .trialDiscard b | .commit b | .serviceZero b | .liveWeight b | .attrRead b | .shadowLoad b =>
      b.map fun _ => []
  | .other _ => some []

/-- Bytes sent as 0 after a message, up to the smallest CAN FD length that holds it (R197). -/
def padTo (n : Nat) (p : List Byte) : List Byte := p ++ List.replicate (n - p.length) 0#8

/-- The bytes of a payload as they stand after the pairing tag in a frame of the port (R197). -/
def framePayload (port : Port) (p : List Byte) : List Byte :=
  match port with
  | .body => padTo (canLength (p.length + 1) - 1) p
  | .chassis => padTo (canLength p.length) p
  | .service => p

/-- The command that a word of the table's bits spells: no row of the table has bits (98_reader.md, the table), so none. -/
def decodeTableWord (_nbits _w : Nat) : Option Instr := none

end Sys2Proof
end

