-- ==== Sys2Proof/Machine/State.lean ====
section
/-! DEFINITION. Everything the LW38 holds, block by block, as plain data, and its value right after reset. Quantities are
numbers in the manual's units (00_scope.md); what the manual treats as bits is a bit vector. -/

namespace Sys2Proof.Machine

/-- Why the machine stops. The manual gives the LW38 an answer, a state or an indication for everything that may
arrive, so no meaning answers with a fault. Safe: a machine that never stops claims no less than the manual. -/
inductive Fault where
  /-- Raised by nothing; it stands so that the type has a value. Safe. -/
  | neverRaised
  deriving DecidableEq, Repr

/-- Why a command has no outcome. -/
inductive Refusal where
  /-- Raised by `exec` for a command that has no meaning yet; no command is left without one. Safe: the run stops. -/
  | notModelled (mnemonic : String)
  deriving DecidableEq, Repr

/-! ## Records with one part for each channel or compartment -/

/-- One value for each of the six channels (R26). -/
structure Six (α : Type) where
  reach : α
  lift : α
  grip : α
  divert : α
  packA : α
  packB : α
  deriving DecidableEq, Repr

/-- One value for each compartment (R136), side of a channel (R64) or cell of a pair (R164, R190). -/
structure Two (α : Type) where
  a : α
  b : α
  deriving DecidableEq, Repr

/-! ## Names of values -/

/-- The profile phases, by their index 0 to 7 (R50). -/
inductive ProfilePhase where
  | approach
  | grip
  | raise
  | tip
  | lower
  | release
  | retract
  | recover
  deriving DecidableEq, Repr

/-- The cycle phase (R2). -/
inductive CyclePhase where
  | idle
  | run (p : ProfilePhase)
  | halted
  | stuck
  deriving DecidableEq, Repr

/-- The kinds of channel fault (R44). -/
inductive FaultKind where
  | awaitTimeout
  | checkError
  | markOrder
  | badElement
  | coil
  deriving DecidableEq, Repr

/-- The origins of a channel's run (R26). -/
inductive Origin where
  | cycle
  | pack
  | eject
  deriving DecidableEq, Repr

/-- The material streams (R4). -/
inductive Stream where
  | refuse
  | recycle
  deriving DecidableEq, Repr

/-- LEGAL or NOT_LEGAL (R117). -/
inductive LegalStatus where
  | legal
  | notLegal
  deriving DecidableEq, Repr

/-- The reasons of a REFUSE decision, by their codes 0 to 5 (R130, R194). -/
inductive RefusalReason where
  | untagged
  | unknownTag
  | suspended
  | stream
  | liftLimit
  | allowanceSpent
  deriving DecidableEq, Repr

/-- The outcome codes of answers, by their numbers 0 to 24 (R196). -/
inductive Code where
  | ok
  | clamped
  | busy
  | wrongState
  | notPermitted
  | malformed
  | unknownKind
  | noSuch
  | notFound
  | tableFull
  | entryPinned
  | journalFull
  | gone
  | notYet
  | locked
  | codeMismatch
  | frozen
  | wireIntact
  | speed
  | trialPending
  | counterExhausted
  | storeInvalid
  | shadowNotReady
  | faultPersists
  | refused
  deriving DecidableEq, Repr

/-- The refusal reasons of LIFT, numbered by their checks (R5, R196). -/
inductive LiftRefusal where
  | cycleBusy
  | shadowNotReady
  | ptoOff
  | noPermit
  | chassisSilent
  | speed
  | noCompartment
  | compartmentFull
  | journalFull
  | slotEmpty
  deriving DecidableEq, Repr

/-! ## Lift Cycle Controller (R2, R3) -/

/-- A set of halt causes (R18). -/
structure Causes where
  permit : Bool
  pto : Bool
  speed : Bool
  fault : Bool
  deriving DecidableEq, Repr

/-- What a tag window decides (R121). -/
inductive TagResult where
  | winner (tag : TagId)
  | noTag
  | ambiguous
  deriving DecidableEq, Repr

/-- The decision of a lift (R12). -/
inductive Decision where
  | accept
  | refuse (r : RefusalReason)
  deriving DecidableEq, Repr

/-- The path a lift took; it is the kind of its record (R14). -/
inductive Path where
  | lift
  | refused
  | aborted
  deriving DecidableEq, Repr

/-- A household as the decision names it (R12). -/
structure Household where
  tag : TagId
  account : Nat
  deriving DecidableEq, Repr

/-- The gross capture: unrounded G, pitch and roll (absent when the reading was STALE), legal status (R3, R83). -/
structure GrossCapture where
  g : Int
  angles : Option (Int × Int)
  legal : LegalStatus
  deriving DecidableEq, Repr

/-- The tare capture (R3). -/
structure TareCapture where
  t : Int
  legal : LegalStatus
  deriving DecidableEq, Repr

/-- The flags a GROSS or TARE window hands to the context (R3, R85). -/
structure WindowFlags where
  overrange : Bool
  tilt : Bool
  unstable : Bool
  deriving DecidableEq, Repr

/-- The lift context (R3). -/
structure LiftCtx where
  stream : Stream
  target : Compartment
  approachSlot : Nat
  activeSlot : Nat
  creep : Nat
  reservation : Bool
  tagResult : Option TagResult
  overflow : Nat
  decision : Option Decision
  household : Option Household
  pin : Option TagId
  gross : Option GrossCapture
  tare : Option TareCapture
  grossFlags : WindowFlags
  tareFlags : WindowFlags
  grossDisabled : Bool
  tareDisabled : Bool
  haltedInWindow : Bool
  path : Path
  halted : Bool
  tagAmbiguous : Bool
  tableNotLoaded : Bool
  manualRecovery : Bool
  lastPhase : ProfilePhase
  deriving DecidableEq, Repr

/-- The Lift Cycle Controller (R2). -/
structure Lcc where
  phase : CyclePhase
  haltedPhase : Option ProfilePhase
  causes : Causes
  faults : Six (Option FaultKind)
  started : List Channel
  ctx : Option LiftCtx
  deriving DecidableEq, Repr

/-! ## Profile Player (R26) -/

/-- The states in which a channel's step timer runs; one of them is kept over a pause (R27, R47). -/
inductive RunState where
  | playing
  | holding
  | awaiting
  deriving DecidableEq, Repr

/-- A channel's state (R27). -/
inductive ChanState where
  | idle
  | run (r : RunState)
  | paused
  | fault
  deriving DecidableEq, Repr

/-- Progress within an element (R26). -/
inductive Progress where
  | cleared
  | ramp (u0 : Int) (taken : Nat)
  | delta4 (taken : Nat)
  | hold (remaining : Nat)
  | await (saved : Int)
  deriving DecidableEq, Repr

/-- A fault's kind and element address (R26, R44). -/
structure FaultAt where
  kind : FaultKind
  address : Nat
  deriving DecidableEq, Repr

/-- A channel record (R26). -/
structure Chan where
  state : ChanState
  origin : Option Origin
  pointer : Nat
  interval : Nat
  u : Int
  envelope : Nat
  progress : Progress
  deadline : Option Nat
  resume : Option RunState
  fault : Option FaultAt
  deriving DecidableEq, Repr

/-! ## Profile Store and Shadow (R50 to R62) -/

/-- The eight areas of the store, by their numbers 0 to 7 (R50, R197). -/
inductive Area where
  | elements
  | sets
  | diverter
  | packs
  | conditions
  | flows
  | coils
  | periods
  deriving DecidableEq, Repr

/-- Words at addresses, rising, none equal to the erased value of its address: an address not listed is erased. -/
abbrev Words := List (Nat × Word32)

/-- The store state (R51). -/
inductive StoreState where
  | valid
  | busy
  | invalid
  deriving DecidableEq, Repr

/-- The work a BUSY store does (R52, R54): words at consecutive addresses, or the erase of one area or of all. -/
inductive StoreJob where
  | write (base : Nat) (words : List Word32)
  | erase (area : Option Area)
  deriving DecidableEq, Repr

/-- The profile store; `check` is `none` while the stored check is erased (R53). -/
structure Store where
  words : Words
  check : Option Word32
  state : StoreState
  verifying : Bool
  job : Option StoreJob
  deriving DecidableEq, Repr

/-- The shadow's three states (R55). -/
inductive ShadowState where
  | invalid
  | loading
  | ready
  deriving DecidableEq, Repr

/-- A loaded copy: the words, and the 4-bit check of each element, listed as the words are (R57, R58). -/
structure ShadowCopy where
  words : Words
  checks : List (Nat × BitVec 4)
  deriving DecidableEq, Repr

/-- The shadow (R55). -/
structure Shadow where
  state : ShadowState
  content : Option ShadowCopy
  check : Option Word32
  deriving DecidableEq, Repr

/-- The slot map: the set of each slot 0 to 3 (R62). -/
structure SlotSets where
  s0 : Nat
  s1 : Nat
  s2 : Nat
  s3 : Nat
  deriving DecidableEq, Repr

/-! ## Valve Drive (R64 to R71) -/

/-- A coil record (R64). -/
structure Coil where
  inForce : Nat
  computed : Nat
  driven : Bool
  deriving DecidableEq, Repr

/-- The kinds of coil fault (R70). -/
inductive CoilFault where
  | openCircuit
  | shortCircuit
  deriving DecidableEq, Repr

/-- A coil fault latch that is set: the coil's side and the kind (R64). -/
structure Latch where
  side : Side
  kind : CoilFault
  deriving DecidableEq, Repr

/-- A channel's part in the sharing computation (R68, R74). -/
structure Share where
  gated : Int
  demand : Nat
  shared : Int
  deriving DecidableEq, Repr

/-- The last sharing computation (R68, R74); `scale` is present when it found a shortage. -/
structure Sharing where
  chans : Six Share
  budget : Nat
  total : Nat
  scale : Option Nat
  deriving DecidableEq, Repr

/-- The Valve Drive. A group's period is that of the last completed load; it is absent while no load has given one
(R55, R65, log 42). -/
structure Drive where
  coils : Six (Two Coil)
  latches : Six (Option Latch)
  timer0 : Bool
  timer1 : Bool
  period0 : Option Nat
  period1 : Option Nat
  qa : Nat
  rpm : Nat
  usingIdle : Bool
  sharing : Sharing
  deriving DecidableEq, Repr

/-! ## Weigh Engine (R75, R81) -/

/-- The reading in force (R76). -/
structure Reading where
  pitch : Int
  roll : Int
  fresh : Bool
  deriving DecidableEq, Repr

/-- The block accumulator (R80). -/
structure Accumulator where
  count : Nat
  sumV : Int
  sumA : Int
  sumB : Int
  deriving DecidableEq, Repr

/-- The latest pair (R75, R77). -/
inductive Pair where
  | overrange
  | weighed (mA mB v : Int)
  deriving DecidableEq, Repr

/-- The three means of a block, an entry of the settle list (R80, R82). -/
structure Block where
  v : Int
  mA : Int
  mB : Int
  deriving DecidableEq, Repr

/-- The kinds of weigh window (R81). -/
inductive WindowKind where
  | zero
  | gross
  | tare
  deriving DecidableEq, Repr

/-- A window's capture (R81, R83). -/
structure Capture where
  value : Int
  angles : Option (Int × Int)
  legal : LegalStatus
  mA : Int
  mB : Int
  deriving DecidableEq, Repr

/-- The window record (R81). The window is CAPTURED when `capture` is present and SETTLING when it is absent. -/
structure Window where
  kind : WindowKind
  overrange : Bool
  tilt : Bool
  capture : Option Capture
  deriving DecidableEq, Repr

/-- The Weigh Engine (R75). -/
structure Weigh where
  enabled : Bool
  reading : Reading
  acc : Accumulator
  latestPair : Option Pair
  latestBlock : Option Block
  settle : List Block
  window : Option Window
  hold : Bool
  zt : Int
  residual : Option Int
  deriving DecidableEq, Repr

/-! ## Metrology Lock (R100 to R117) -/

/-- The nine metrology parameters (R100). -/
structure Params where
  zA : Int
  zB : Int
  kA : Int
  kB : Int
  d : Int
  max : Int
  min : Int
  band : Int
  tilt : Int
  deriving DecidableEq, Repr

/-- The names of the nine parameters, by their numbers 0 to 8 (R197). -/
inductive Param where
  | zA
  | zB
  | kA
  | kB
  | d
  | max
  | min
  | band
  | tilt
  deriving DecidableEq, Repr

/-- The lock state (R102). -/
inductive LockState where
  | locked
  | opened
  | frozen
  deriving DecidableEq, Repr

/-- The calibration state (R112). -/
inductive CalState where
  | valid
  | unverified
  | invalid
  deriving DecidableEq, Repr

/-- The access level (R104). -/
inductive AccessLevel where
  | high
  | maximum
  deriving DecidableEq, Repr

/-- The metrology write in flight (R108, R109): a commit write up to its third stage with the committed values and the
changed-parameter mask, its fourth stage, a verify write, a maker write (with the block or without), a code write. -/
inductive MetroWrite where
  | commit (p : Params) (check : Word32) (mask : Word32)
  | counter
  | verify
  | maker (withBlock : Bool)
  | code (c : LockCode) (level : AccessLevel)
  deriving DecidableEq, Repr

/-- The stored block: bytes 0 to 32 and the CRC-32, `none` while it is erased (R108, R198). -/
structure StoredBlock where
  contents : BlockBits
  check : Option Word32
  deriving DecidableEq, Repr

/-- The code record; its layout is not given, so its check stands as passing or not (log 16). -/
structure CodeRecord where
  code : Option LockCode
  level : AccessLevel
  checkGood : Bool
  deriving DecidableEq, Repr

/-- ZERO_HEALTH (R113). -/
structure ZeroHealth where
  count : Nat
  crossed : Bool
  point : Option Int
  deriving DecidableEq, Repr

/-- An outcome of a GROSS or TARE window closing (R114). -/
inductive WindowOutcome where
  | captured
  | unstable
  deriving DecidableEq, Repr

/-- The Metrology Lock. -/
structure Lock where
  reading : Bool
  state : LockState
  failed : Nat
  cal : CalState
  reference : Params
  working : Params
  lockedCheck : Option Word32
  cec : Nat
  code : Option LockCode
  level : AccessLevel
  write : Option MetroWrite
  zero : ZeroHealth
  outcomes : List WindowOutcome
  balance : Option Nat
  block : StoredBlock
  codeRecord : CodeRecord
  counterCell : Nat
  deriving DecidableEq, Repr

/-! ## Households and Tag Window (R119, R123, R124) -/

/-- An entry of the tag list (R119). -/
structure TagEntry where
  tag : TagId
  count : Nat
  strength : Nat
  deriving DecidableEq, Repr

/-- A household's status (R123). -/
inductive HouseStatus where
  | active
  | suspended
  deriving DecidableEq, Repr

/-- A tariff (R123). -/
inductive Tariff where
  | byWeight
  | byLift
  deriving DecidableEq, Repr

/-- An excess policy (R123). -/
inductive ExcessPolicy where
  | charge
  | refuse
  deriving DecidableEq, Repr

/-- A household entry (R123). -/
structure Entry where
  tag : TagId
  account : Nat
  status : HouseStatus
  takesRefuse : Bool
  takesRecycle : Bool
  slot : Nat
  tariff : Tariff
  allowance : Option Nat
  excess : ExcessPolicy
  liftLimit : Option Nat
  liftsToday : Nat
  lastTime : Option Nat
  pinned : Bool
  deriving DecidableEq, Repr

/-- The Tag Window and the Household Table. -/
structure Houses where
  windowOpen : Bool
  tagList : List TagEntry
  overflow : Nat
  lastResult : Option (TagResult × Nat)
  table : List Entry
  loaded : Bool
  deriving DecidableEq, Repr

/-! ## Compartment Accounts (R136) -/

/-- A compartment's status (R137). -/
inductive CompStatus where
  | opened
  | nearFull
  | full
  deriving DecidableEq, Repr

/-- The packer stages (R136). -/
inductive Stage where
  | rest
  | sweep
  | compress
  | retract
  | ejecting
  | fault
  deriving DecidableEq, Repr

/-- A stroke's short mark and peak pressure (R136). -/
structure Stroke where
  short : Bool
  peak : Nat
  deriving DecidableEq, Repr

/-- How the last ejection ended (R136). -/
inductive EjectOutcome where
  | done
  | aborted
  | fault
  | incomplete
  deriving DecidableEq, Repr

/-- A compartment record (R136). The stroke is closed when it is absent; `ejectDone` is present while EJECTING. -/
structure Comp where
  total : Nat
  status : CompStatus
  tips : Nat
  shorts : Nat
  stage : Stage
  stroke : Option Stroke
  ejectDone : Option Bool
  lastStroke : Option Stroke
  lastEject : Option EjectOutcome
  fault : Option FaultAt
  deriving DecidableEq, Repr

/-! ## Lift Journal (R153 to R168) -/

/-- The record kinds, by their codes 0 to 4 (R194). -/
inductive RecordKind where
  | lift
  | refused
  | aborted
  | unload
  | calibration
  deriving DecidableEq, Repr

/-- A record as its staging block fills it, with its sequence number (R194). -/
structure Record where
  seq : Nat
  kind : RecordKind
  flags : Word32
  time : Option Nat
  account : Option Nat
  tag : Option TagId
  stream : Option Stream
  comp : Option Compartment
  slot : Option Nat
  reason : Option RefusalReason
  gross : Option Int
  tare : Option Int
  net : Option Int
  covered : Option Nat
  excess : Option Nat
  allowance : Option Nat
  cec : Nat
  totalA : Nat
  totalB : Option Nat
  angles : Option (Int × Int)
  lastPhase : Option ProfilePhase
  overflow : Nat
  deriving DecidableEq, Repr

/-- Patterns in slots, rising, none BLANK: a slot not listed is BLANK (R153). -/
abbrev Slots := List (Nat × SlotBits)

/-- The sector states (R154). -/
inductive SectorState where
  | blank
  | active
  | full
  | reclaimable
  | erasing
  deriving DecidableEq, Repr

/-- A sector: its state, and whether the start-up scan disregarded its content (R162, R168). -/
structure Sector where
  state : SectorState
  disregarded : Bool
  deriving DecidableEq, Repr

/-- A release-mark cell; its check stands as passing or not (R164, log 16). -/
structure MarkCell where
  value : Nat
  checkGood : Bool
  deriving DecidableEq, Repr

/-- An erase in flight: RUNNING or SUSPENDED (R161). -/
structure Erase where
  sector : Nat
  running : Bool
  deriving DecidableEq, Repr

/-- A release write in flight: its value, and whether the number asked for was clamped to it (R165). -/
structure ReleaseWrite where
  value : Nat
  clamped : Bool
  deriving DecidableEq, Repr

/-- The Lift Journal (R153, R155, R164). -/
structure Journal where
  starting : Bool
  slots : Slots
  sectors : List Sector
  newest : Option Nat
  oldest : Option Nat
  nextSeq : Nat
  mark : Nat
  cells : Two MarkCell
  holder : Option Side
  free : Nat
  reserved : Nat
  queue : List Record
  writing : Option Nat
  erase : Option Erase
  note : Option Nat
  release : Option ReleaseWrite
  low : Bool
  deriving DecidableEq, Repr

/-! ## Interlocks (R172) -/

/-- The last chassis report (R172, R174); an absent item is unknown. -/
structure ChassisReport where
  speed : Option Nat
  rpm : Option Nat
  brakeOn : Option Bool
  limit : Option Nat
  deriving DecidableEq, Repr

/-- The levels of the four watched inputs (R178). -/
structure Levels where
  armStowed : Bool
  gripOpen : Bool
  flapAtA : Bool
  flapAtB : Bool
  deriving DecidableEq, Repr

/-- The Interlocks. `speedOver` is the speed state OVER; `permitTimer` holds the period it was last started with. -/
structure Interlocks where
  permitHeld : Bool
  permitTimer : Option Nat
  present : Bool
  silenceTimer : Option Nat
  report : ChassisReport
  reported : Bool
  speedOver : Bool
  pto : Bool
  snapshot : Option Levels
  alarm : Bool
  payloadTimer : Nat
  seconds : Nat
  timeValid : Bool
  deriving DecidableEq, Repr

/-! ## Settings block (R190, R191) -/

/-- The untagged policy (R130). -/
inductive UntaggedPolicy where
  | liftUnbilled
  | refuse
  deriving DecidableEq, Repr

/-- The settings in force (R191). -/
structure Settings where
  packAfter : Nat
  fullStrokes : Nat
  packFullPressure : Nat
  limitA : Nat
  limitB : Nat
  untaggedPolicy : UntaggedPolicy
  repeatInterval : Nat
  liftSpeedLimit : Nat
  permitPeriod : Nat
  idleRpm : Nat
  displacement : Nat
  mapRefuse : Compartment
  mapRecycle : Compartment
  deriving DecidableEq, Repr

/-- The names of the settings, by their numbers 0 to 12 (R197). -/
inductive Setting where
  | packAfter
  | fullStrokes
  | packFullPressure
  | limitA
  | limitB
  | untaggedPolicy
  | repeatInterval
  | liftSpeedLimit
  | permitPeriod
  | idleRpm
  | displacement
  | mapRefuse
  | mapRecycle
  deriving DecidableEq, Repr

/-- A settings cell: the thirteen values in the order of R191, the generation, and its check as passing or not
(R190, log 16). -/
structure SettingsCell where
  values : List Nat
  generation : Nat
  checkGood : Bool
  deriving DecidableEq, Repr

/-- Where the settings in force at start-up came from (R190). -/
inductive SettingsOrigin where
  | stored
  | defaulted
  deriving DecidableEq, Repr

/-- A settings write in flight: the values and the generation it writes (R190). -/
structure SettingsWrite where
  settings : Settings
  generation : Nat
  deriving DecidableEq, Repr

/-- The settings block (R190). -/
structure SettingsBlock where
  reading : Bool
  inForce : Settings
  cells : Two SettingsCell
  generation : Nat
  holder : Option Side
  origin : SettingsOrigin
  dirty : Bool
  write : Option SettingsWrite
  deriving DecidableEq, Repr

/-! ## Answers and indications (R187 to R189): what a message carries -/

/-- The content of PHASE (R10, R197). -/
structure PhaseMsg where
  phase : CyclePhase
  haltedPhase : Option ProfilePhase
  causes : Causes
  faults : Six (Option FaultKind)
  deriving DecidableEq, Repr

/-- The alerts with their data (R188, R197). -/
inductive Alert where
  | journalLow (free reserved : Nat)
  | stowAlarm (latched now : Levels)
  | coilFault (c : Channel) (l : Latch)
  | packFault (c : Compartment) (f : FaultAt)
  | chassisSilent
  | settingsDefaulted
  | storeInvalid
  deriving DecidableEq, Repr

/-- The indications (R188). -/
inductive Indication where
  | phase (m : PhaseMsg)
  | record (seq : Nat) (kind : RecordKind)
  | alert (a : Alert)
  deriving DecidableEq, Repr

/-- The content of PAYLOAD (R179); an absent item is carried as absent. -/
structure PayloadMsg where
  totalA : Option Nat
  totalB : Option Nat
  statusA : Option CompStatus
  statusB : Option CompStatus
  alarm : Bool
  deriving DecidableEq, Repr

/-- Section CYCLE of STATUS_GET (R10, R189), with the captures that the context holds (R99). -/
structure CycleStatus where
  phase : PhaseMsg
  stream : Option Stream
  target : Option Compartment
  activeSlot : Option Nat
  path : Option Path
  decision : Option Decision
  gross : Option GrossCapture
  tare : Option TareCapture
  deriving DecidableEq, Repr

/-- A channel in section CHANNELS (R49). -/
structure ChanStatus where
  state : ChanState
  origin : Option Origin
  pointer : Nat
  interval : Nat
  u : Int
  uEnv : Int
  fault : Option FaultAt
  condition : Option Nat
  deadline : Option Nat
  resume : Option RunState
  deriving DecidableEq, Repr

/-- Section DRIVE (R74); absent channels and coils are `none`, and so is a period that no load has given (log 42). The flow and the
speed used are given before the settings are read too, from the default ones (log 43). -/
structure DriveStatus where
  qa : Nat
  rpm : Nat
  usingIdle : Bool
  budget : Nat
  total : Nat
  scale : Option Nat
  chans : Six (Option Share)
  coils : Six (Option (Two Coil))
  timer0 : Bool
  timer1 : Bool
  period0 : Option Nat
  period1 : Option Nat
  latches : Six (Option Latch)
  deriving DecidableEq, Repr

/-- Section STORE (R63); the store state and check are absent until the store is verified (R51, R189). -/
structure StoreStatus where
  state : Option StoreState
  job : Option StoreJob
  check : Option Word32
  shadow : ShadowState
  shadowCheck : Option Word32
  loading : Bool
  slots : SlotSets
  deriving DecidableEq, Repr

/-- Section WEIGH (R99), with the entries of the settle list (R82). -/
structure WeighStatus where
  enabled : Bool
  window : Option Window
  entries : Nat
  settle : List Block
  hold : Bool
  zt : Int
  residual : Option Int
  deriving DecidableEq, Repr

/-- The conditions of the legal status, each met or not (R117, R118). -/
structure LegalParts where
  lockClosed : Bool
  calValid : Bool
  shadowMatches : Bool
  zeroUncrossed : Bool
  deriving DecidableEq, Repr

/-- The kinds of metrology write that STATUS_GET names (R109, R118). -/
inductive WriteKind where
  | commit
  | verify
  | maker
  | code
  deriving DecidableEq, Repr

/-- Section LOCK (R118); what the start-up reading gives is absent until it is done (R101, R189, log 43). -/
structure LockStatus where
  state : LockState
  failed : Nat
  cal : Option CalState
  cec : Option Nat
  trial : Bool
  working : Option Params
  lockedCheck : Option Word32
  level : Option AccessLevel
  codePresent : Option Bool
  write : Option WriteKind
  legal : Option LegalStatus
  zeroCrossed : Bool
  unstableCrossed : Bool
  balanceCrossed : Bool
  deriving DecidableEq, Repr

/-- Section HOUSEHOLDS (R135). -/
structure HouseStatusMsg where
  loaded : Bool
  entries : Nat
  pinned : Option TagId
  windowOpen : Bool
  tagList : List TagEntry
  overflow : Nat
  lastResult : Option (TagResult × Nat)
  deriving DecidableEq, Repr

/-- A compartment in section COMPARTMENTS (R152): the total is absent while STARTING, the fault present when the stage is
FAULT, the eject progress when it is EJECTING. -/
structure CompStatusMsg where
  total : Option Nat
  status : CompStatus
  tips : Nat
  shorts : Nat
  stage : Stage
  fault : Option FaultAt
  stroke : Option Stroke
  lastStroke : Option Stroke
  ejectDone : Option Bool
  lastEject : Option EjectOutcome
  deriving DecidableEq, Repr

/-- Section JOURNAL (R171) but for the scan state; all of it is absent while STARTING (R170, log 44). -/
structure JournalCounts where
  newest : Option Nat
  oldest : Option Nat
  nextSeq : Nat
  mark : Nat
  unreleased : Nat
  free : Nat
  reserved : Nat
  queued : Nat
  low : Bool
  writing : Option Nat
  releasing : Bool
  erase : Option Erase
  sectors : List SectorState
  deriving DecidableEq, Repr

/-- Section INTERLOCKS (R181). -/
structure InterlockStatus where
  permitHeld : Bool
  timeLeft : Option Nat
  present : Bool
  speed : Option Nat
  rpm : Option Nat
  brakeOn : Option Bool
  speedOver : Bool
  pto : Bool
  snapshot : Option Levels
  alarm : Bool
  seconds : Nat
  timeValid : Bool
  deriving DecidableEq, Repr

/-- A port in section LINKS (R189). -/
structure PortStatus where
  onBus : Bool
  rx : Nat
  tx : Nat
  deferred : List Byte
  deriving DecidableEq, Repr

/-- The items of one STATUS_GET section (R189); the settings' origin is absent until the settings are read. -/
inductive StatusData where
  | cycle (x : CycleStatus)
  | channels (x : Six (Option ChanStatus))
  | drive (x : DriveStatus)
  | store (x : StoreStatus)
  | weigh (x : WeighStatus)
  | lock (x : LockStatus)
  | households (x : HouseStatusMsg)
  | compartments (a : CompStatusMsg) (b : Option CompStatusMsg)
  | journal (starting : Bool) (x : Option JournalCounts)
  | interlocks (x : InterlockStatus)
  | links (body chassis service : PortStatus) (origin : Option SettingsOrigin)
  deriving DecidableEq, Repr

/-- LIVE_WEIGHT (R98); the weight items are absent while DISABLED (log 45). -/
structure LiveWeight where
  enabled : Bool
  pair : Option Pair
  blockV : Option Int
  reading : Reading
  beyondTilt : Bool
  zt : Option Int
  residual : Option Int
  window : Option (WindowKind × Bool × Bool × Bool)
  entries : Option Nat
  spread : Option Int
  hold : Bool
  deriving DecidableEq, Repr

/-- ATTR_READ (R118). -/
structure AttrData where
  zero : ZeroHealth
  unstableRate : Nat
  outcomes : List WindowOutcome
  balance : Option Nat
  balanceCrossed : Bool
  legal : LegalStatus
  parts : LegalParts
  deriving DecidableEq, Repr

/-- What an outcome carries after its code (R187 and the owners' rules). -/
inductive AnswerData where
  | empty
  | creep (used : Nat)
  | refusal (r : LiftRefusal)
  | causes (c : Causes)
  | parkingBrake
  | noPermit
  | latch (l : Option Latch)
  | status (d : StatusData)
  | inserted (count : Nat)
  | replaced (count : Nat)
  | count (n : Nat)
  | entry (e : Entry)
  | record (bits : SlotBits) (newest mark : Nat)
  | seq (n : Option Nat)
  | slots (m : SlotSets)
  | settings (l : List (Setting × Nat))
  | settingsAll (l : List (Setting × Nat)) (origin : SettingsOrigin) (writing : Bool)
  | params (p : Params)
  | cec (n : Nat)
  | grams (x : Int)
  | check (w : Word32)
  | live (x : LiveWeight)
  | attrs (x : AttrData)
  deriving DecidableEq, Repr

/-! ## Link Ports (R182) -/

/-- A checked frame in a receive queue: its header and the request its kind and payload give. -/
structure RxFrame where
  header : Header
  request : Request
  deriving DecidableEq, Repr

/-- A message in a transmit queue: a part of an answer (R187), an indication (R188) or PAYLOAD (R179). -/
inductive TxMsg where
  | answer (h : Header) (kind : Byte) (code : Code) (part count : Nat) (data : AnswerData)
  | indication (i : Indication)
  | payload (p : PayloadMsg)
  deriving DecidableEq, Repr

/-- A request whose answer is not yet formed: its header and its kind (R182). -/
structure Deferred where
  header : Header
  kind : Byte
  deriving DecidableEq, Repr

/-- A message on the medium (R183, R184). -/
inductive WireFrame where
  | can (id : BitVec 29) (data : List Byte)
  | line (bytes : List Byte)
  deriving DecidableEq, Repr

/-- A port's items (R182). `sent` is the model's own: the last message put on the medium (log 18). -/
structure PortState where
  onBus : Bool
  rx : List RxFrame
  tx : List TxMsg
  deferred : List Deferred
  sent : Option WireFrame
  deriving DecidableEq, Repr

/-- The Link Ports. A partial frame of no bytes is none. -/
structure Links where
  body : PortState
  chassis : PortState
  service : PortState
  servicePartial : List Byte
  tagPartial : List Byte
  deriving DecidableEq, Repr

/-! ## Inputs (R42, R103, R178) -/

/-- The inputs as they were last seen. -/
structure Pins where
  sensors : Sensors
  packAPressure : Nat
  packBPressure : Nat
  levels : Levels
  lockWireOpen : Bool
  deriving DecidableEq, Repr

end Sys2Proof.Machine

namespace Sys2Proof.Machine

/-- The whole part, the queue of commands that wait, and the count of free values drawn. -/
structure State where
  pending : List Instr
  variant : Variant
  pins : Pins
  links : Links
  settings : SettingsBlock
  lcc : Lcc
  chans : Six Chan
  store : Store
  shadow : Shadow
  slotMap : SlotSets
  drive : Drive
  weigh : Weigh
  lock : Lock
  houses : Houses
  comps : Two Comp
  journal : Journal
  inter : Interlocks
  freeIx : Nat
  deriving DecidableEq, Repr

/-! ## Reset values -/

/-- The same value for every channel. -/
abbrev Six.all {α : Type} (v : α) : Six α := ⟨v, v, v, v, v, v⟩

/-- No cause (R2). -/
def Causes.none : Causes := ⟨false, false, false, false⟩

/-- The LCC after a full reset (R2). -/
def Lcc.reset : Lcc :=
  { phase := .idle, haltedPhase := none, causes := Causes.none, faults := Six.all none, started := [], ctx := none }

/-- A channel record after a full reset (R26). -/
def Chan.reset : Chan :=
  { state := .idle, origin := none, pointer := 0, interval := 20, u := 0, envelope := 0, progress := .cleared,
    deadline := none, resume := none, fault := none }

/-- A store that has never been written (R50), its verification to come (R51, log 7, log 9). -/
def Store.reset : Store := { words := [], check := none, state := .invalid, verifying := true, job := none }

/-- The shadow after a full reset (R55). -/
def Shadow.reset : Shadow := { state := .invalid, content := none, check := none }

/-- The slot map after a full reset (R62). -/
def SlotSets.reset : SlotSets := ⟨0, 1, 2, 3⟩

/-- A coil record after a full reset (R64). -/
def Coil.reset : Coil := ⟨0, 0, false⟩

/-- A sharing computation of commands that are all 0. -/
def Sharing.reset : Sharing := { chans := Six.all ⟨0, 0, 0⟩, budget := 390, total := 0, scale := none }

/-- The Valve Drive after a full reset (R64, R65, R73), with no period loaded (log 42); Qa is 650 × 60 / 100 (R66). -/
def Drive.reset : Drive :=
  { coils := Six.all ⟨Coil.reset, Coil.reset⟩, latches := Six.all none, timer0 := false, timer1 := false,
    period0 := none, period1 := none, qa := 390, rpm := 650, usingIdle := true, sharing := Sharing.reset }

/-- A cleared accumulator (R80). -/
def Accumulator.cleared : Accumulator := ⟨0, 0, 0, 0⟩

/-- The Weigh Engine after a full reset (R75); DISABLED until the calibration state is read (log 9). -/
def Weigh.reset : Weigh :=
  { enabled := false, reading := ⟨0, 0, false⟩, acc := Accumulator.cleared, latestPair := none, latestBlock := none,
    settle := [], window := none, hold := false, zt := 0, residual := none }

/-- The factory defaults (R100). -/
def Params.factory : Params :=
  { zA := 0, zB := 0, kA := 65536, kB := 65536, d := 200, max := 300000, min := 20, band := 2, tilt := 500 }

/-- ZERO_HEALTH after a full reset (R113). -/
def ZeroHealth.reset : ZeroHealth := ⟨0, false, none⟩

/-- The Metrology Lock after a full reset, its items still to be read (R101, log 9), on a part whose block and code
record have never been written (log 7). -/
def Lock.reset : Lock :=
  { reading := true, state := .locked, failed := 0, cal := .invalid, reference := Params.factory,
    working := Params.factory, lockedCheck := none, cec := 0, code := none, level := .high, write := none,
    zero := ZeroHealth.reset, outcomes := [], balance := none,
    block := { contents := BitVec.allOnes 264, check := none },
    codeRecord := { code := none, level := .high, checkGood := false }, counterCell := 0 }

/-- The Tag Window and the Household Table after a full reset (R119, R124). -/
def Houses.reset : Houses :=
  { windowOpen := false, tagList := [], overflow := 0, lastResult := none, table := [], loaded := false }

/-- A compartment record after a full reset, its total to be restored (R136, log 9). -/
def Comp.reset : Comp :=
  { total := 0, status := .opened, tips := 0, shorts := 0, stage := .rest, stroke := none, ejectDone := none,
    lastStroke := none, lastEject := none, fault := none }

/-- A release-mark cell that has never been written (log 7). -/
def MarkCell.blank : MarkCell := ⟨0, false⟩

/-- The journal after a full reset, its scan to come (R155, log 9), on a part whose journal has never been written
(log 7). -/
def Journal.reset : Journal :=
  { starting := true, slots := [], sectors := List.replicate 32 ⟨.blank, false⟩, newest := none, oldest := none,
    nextSeq := 1, mark := 0, cells := ⟨MarkCell.blank, MarkCell.blank⟩, holder := none, free := 0, reserved := 0,
    queue := [], writing := none, erase := none, note := none, release := none, low := false }

/-- The Interlocks after a full reset (R172), with PTO_ENGAGED read off (log 8). -/
def Interlocks.reset : Interlocks :=
  { permitHeld := false, permitTimer := none, present := false, silenceTimer := none, report := ⟨none, none, none, none⟩,
    reported := false, speedOver := true, pto := false, snapshot := none, alarm := false, payloadTimer := 500,
    seconds := 0, timeValid := false }

/-- The defaults of the settings (R191). -/
def Settings.defaults : Settings :=
  { packAfter := 3, fullStrokes := 2, packFullPressure := 1800, limitA := 9000, limitB := 4000,
    untaggedPolicy := .liftUnbilled, repeatInterval := 120, liftSpeedLimit := 30, permitPeriod := 250, idleRpm := 650,
    displacement := 60, mapRefuse := .a, mapRecycle := .b }

/-- A settings cell that has never been written (log 7). -/
def SettingsCell.blank : SettingsCell := ⟨[], 0, false⟩

/-- The settings block after a full reset, its cells still to be read (R190, log 9). -/
def SettingsBlock.reset : SettingsBlock :=
  { reading := true, inForce := Settings.defaults, cells := ⟨SettingsCell.blank, SettingsCell.blank⟩, generation := 0,
    holder := none, origin := .defaulted, dirty := false, write := none }

/-- A port after a full reset (R182). -/
def PortState.reset : PortState := { onBus := true, rx := [], tx := [], deferred := [], sent := none }

/-- The Link Ports after a full reset (R182). -/
def Links.reset : Links :=
  { body := PortState.reset, chassis := PortState.reset, service := PortState.reset, servicePartial := [],
    tagPartial := [] }

/-- Inputs that read 0 and not set (log 6). -/
def Pins.reset : Pins :=
  { sensors := ⟨0, 0, 0, 0, false, false, false, false, false⟩, packAPressure := 0, packBPressure := 0,
    levels := ⟨false, false, false, false⟩, lockWireOpen := false }

/-- The part right after a full reset of a SPLIT body that has never been written: every block at its reset values, all
start-up reads to come, the queue of commands empty (log 7, log 8). -/
def State.reset : State :=
  { pending := [], variant := .split, pins := Pins.reset, links := Links.reset, settings := SettingsBlock.reset,
    lcc := Lcc.reset, chans := Six.all Chan.reset, store := Store.reset, shadow := Shadow.reset,
    slotMap := SlotSets.reset, drive := Drive.reset, weigh := Weigh.reset, lock := Lock.reset, houses := Houses.reset,
    comps := ⟨Comp.reset, Comp.reset⟩, journal := Journal.reset, inter := Interlocks.reset, freeIx := 0 }

end Sys2Proof.Machine
end

