-- ==== Sys2Proof/Machine/Arith.lean ====
section
/-! DEFINITION. The manual's arithmetic (00_scope.md "Arithmetic"), its check words (R193) and the tilt table (R78). -/

namespace Sys2Proof.Machine

/-- `n / d` rounded to the nearest integer, halves away from zero (00_scope.md, "Arithmetic"); `d` is positive. -/
def roundDiv (n d : Int) : Int :=
  if 0 ≤ n then (2 * n + d) / (2 * d) else -((2 * (-n) + d) / (2 * d))

/-- `n / d` truncated toward zero (00_scope.md, "Arithmetic"). -/
def truncDiv (n d : Int) : Int := Int.tdiv n d

/-- A value brought to the nearer bound of a range. -/
def clampTo (lo hi x : Int) : Int := if x < lo then lo else if hi < x then hi else x

/-- The same for natural numbers. -/
def clampNat (lo hi x : Nat) : Nat := if x < lo then lo else if hi < x then hi else x

/-- A count raised by 1 that saturates at `hi` (00_scope.md, "Arithmetic"). -/
def raiseSat (hi n : Nat) : Nat := if n < hi then n + 1 else n

/-! ## Check words (R193) -/

/-- One bit of the CRC-32, reflected: generator 04C11DB7 (hex) reads EDB88320 in that order. -/
def crc32Bit (c : Word32) : Word32 :=
  if c.getLsbD 0 then (c >>> 1) ^^^ 0xEDB88320#32 else c >>> 1

/-- One byte of the CRC-32. -/
def crc32Byte (c : Word32) (b : Byte) : Word32 :=
  crc32Bit (crc32Bit (crc32Bit (crc32Bit (crc32Bit (crc32Bit (crc32Bit (crc32Bit (c ^^^ b.setWidth 32))))))))

/-- The CRC-32 of bytes: initial value all ones, final complement (R193). -/
def crc32 (bs : List Byte) : Word32 := ~~~ (bs.foldl crc32Byte 0xFFFFFFFF#32)

/-- One bit of the CRC-16, not reflected, generator 1021 (hex). -/
def crc16Bit (c : BitVec 16) : BitVec 16 :=
  if c.getLsbD 15 then (c <<< 1) ^^^ 0x1021#16 else c <<< 1

/-- One byte of the CRC-16. -/
def crc16Byte (c : BitVec 16) (b : Byte) : BitVec 16 :=
  crc16Bit (crc16Bit (crc16Bit (crc16Bit (crc16Bit (crc16Bit (crc16Bit (crc16Bit (c ^^^ (b.setWidth 16 <<< 8)))))))))

/-- The CRC-16 of bytes: initial value all ones, no complement (R193). -/
def crc16 (bs : List Byte) : BitVec 16 := bs.foldl crc16Byte 0xFFFF#16

/-- The bytes of a bit vector laid out in a stored item, byte 0 first. -/
def bytesOf {w : Nat} (n : Nat) (x : BitVec w) : List Byte := toBytes n x.toNat

/-- A field of `n` bytes from byte `i` of a stored item. -/
def fieldOf {w : Nat} (i n : Nat) (x : BitVec w) : Nat := x.toNat / 256 ^ i % 256 ^ n

/-- The 4-bit check of an element word: its eight groups combined by exclusive-or, complemented (R58). -/
def elementCheck (w : Word32) : BitVec 4 :=
  ~~~ (w.extractLsb' 0 4 ^^^ w.extractLsb' 4 4 ^^^ w.extractLsb' 8 4 ^^^ w.extractLsb' 12 4
    ^^^ w.extractLsb' 16 4 ^^^ w.extractLsb' 20 4 ^^^ w.extractLsb' 24 4 ^^^ w.extractLsb' 28 4)

/-! ## The tilt table (R78) -/

/-- Entry `i` is 65,536 / cos(i × 0.25°), rounded (R78). -/
def tiltTable : List Nat :=
  [65536, 65537, 65538, 65542, 65546, 65552, 65558, 65567, 65576, 65587, 65598, 65612, 65626, 65642, 65658, 65677,
   65696, 65717, 65739, 65762, 65786, 65812, 65839, 65867, 65897, 65928, 65960, 65993, 66028, 66064, 66102, 66140]
  ++ [66180, 66221, 66264, 66308, 66353, 66399, 66447, 66496, 66547, 66599, 66652, 66707, 66763, 66820, 66879, 66939,
   67000, 67063, 67127, 67193, 67260, 67328, 67398, 67470, 67542, 67616, 67692, 67769, 67848]

/-- The table index of a clamped angle: (|a| + 12) / 25, truncated (R78). -/
def tiltIndex (a : Int) : Nat := (a.natAbs + 12) / 25

/-- The table entry of a clamped angle. -/
def tiltFactor (a : Int) : Int := ((tiltTable.getD (tiltIndex a) 65536 : Nat) : Int)

end Sys2Proof.Machine
end

