-- ==== Sys2Proof/Machine/Ops.lean ====
section
/-! DEFINITION. The named operations over the part's records and its two addressed memories. -/

namespace Sys2Proof

/-- The other cell of a pair. -/
def Side.other : Side → Side
  | .a => .b
  | .b => .a

/-- A channel's number (R26). -/
def Channel.number : Channel → Nat
  | .reach => 0
  | .lift => 1
  | .grip => 2
  | .divert => 3
  | .packA => 4
  | .packB => 5

/-- The arm channels (R26). -/
def Channel.isArm : Channel → Bool
  | .packA | .packB => false
  | _ => true

/-- A channel's coil group: 0 for REACH, LIFT and GRIP, 1 for the others (R64). -/
def Channel.inGroup0 : Channel → Bool
  | .reach | .lift | .grip => true
  | _ => false

/-- The channel of a compartment's packer (R136). -/
def Compartment.packer : Compartment → Channel
  | .a => .packA
  | .b => .packB

/-- The compartment of a packer channel; an arm channel has none. -/
def Channel.packed : Channel → Option Compartment
  | .packA => some .a
  | .packB => some .b
  | _ => none

/-- The channels of a SINGLE body lack DIVERT and PACK_B (R1, R26). -/
def Channel.present (v : Variant) : Channel → Bool
  | .divert | .packB => v == .split
  | _ => true

/-- A SINGLE body lacks compartment B (R1, R136). -/
def Compartment.present (v : Variant) : Compartment → Bool
  | .a => true
  | .b => v == .split

/-- The port a master's frames come in on and its answers leave by (R182, R183, R184). -/
def Node.port : Node → Port
  | .routeTerminal | .console => .body
  | .chassis => .chassis
  | .calTool => .service

/-- A master's node number on its link (R183); the service line has no numbers and 0 stands for it. -/
def Node.number : Node → Nat
  | .routeTerminal => 32
  | .console => 33
  | .chassis => 1
  | .calTool => 0

end Sys2Proof

namespace Sys2Proof.Machine

/-! ## Replacing one block of the state -/

/-- The state with the inputs replaced. -/
def State.setPins (s : State) (x : Pins) : State := { s with pins := x }

/-- The state with the Link Ports replaced. -/
def State.setLinks (s : State) (x : Links) : State := { s with links := x }

/-- The state with the settings block replaced. -/
def State.setSettings (s : State) (x : SettingsBlock) : State := { s with settings := x }

/-- The state with the Lift Cycle Controller replaced. -/
def State.setLcc (s : State) (x : Lcc) : State := { s with lcc := x }

/-- The state with the channel records replaced. -/
def State.setChans (s : State) (x : Six Chan) : State := { s with chans := x }

/-- The state with the profile store replaced. -/
def State.setStore (s : State) (x : Store) : State := { s with store := x }

/-- The state with the shadow replaced. -/
def State.setShadow (s : State) (x : Shadow) : State := { s with shadow := x }

/-- The state with the slot map replaced. -/
def State.setSlotMap (s : State) (x : SlotSets) : State := { s with slotMap := x }

/-- The state with the Valve Drive replaced. -/
def State.setDrive (s : State) (x : Drive) : State := { s with drive := x }

/-- The state with the Weigh Engine replaced. -/
def State.setWeigh (s : State) (x : Weigh) : State := { s with weigh := x }

/-- The state with the Metrology Lock replaced. -/
def State.setLock (s : State) (x : Lock) : State := { s with lock := x }

/-- The state with the Tag Window and Household Table replaced. -/
def State.setHouses (s : State) (x : Houses) : State := { s with houses := x }

/-- The state with the compartment records replaced. -/
def State.setComps (s : State) (x : Two Comp) : State := { s with comps := x }

/-- The state with the Lift Journal replaced. -/
def State.setJournal (s : State) (x : Journal) : State := { s with journal := x }

/-- The state with the Interlocks replaced. -/
def State.setInter (s : State) (x : Interlocks) : State := { s with inter := x }

/-- The state with the count of free values drawn replaced. -/
def State.setFreeIx (s : State) (x : Nat) : State := { s with freeIx := x }

/-! ## One part of six, one of two -/

/-- A channel's value. -/
def Six.get {α : Type} (x : Six α) : Channel → α
  | .reach => x.reach
  | .lift => x.lift
  | .grip => x.grip
  | .divert => x.divert
  | .packA => x.packA
  | .packB => x.packB

/-- The record with one channel's value replaced. -/
def Six.put {α : Type} (x : Six α) (c : Channel) (v : α) : Six α :=
  match c with
  | .reach => { x with reach := v }
  | .lift => { x with lift := v }
  | .grip => { x with grip := v }
  | .divert => { x with divert := v }
  | .packA => { x with packA := v }
  | .packB => { x with packB := v }

/-- A record made channel by channel. -/
def Six.make {α : Type} (f : Channel → α) : Six α :=
  ⟨f .reach, f .lift, f .grip, f .divert, f .packA, f .packB⟩

/-- A side's value. -/
def Two.side {α : Type} (x : Two α) : Side → α
  | .a => x.a
  | .b => x.b

/-- The record with one side's value replaced. -/
def Two.putSide {α : Type} (x : Two α) (d : Side) (v : α) : Two α :=
  match d with
  | .a => { x with a := v }
  | .b => { x with b := v }

/-- A compartment's value. -/
def Two.comp {α : Type} (x : Two α) : Compartment → α
  | .a => x.a
  | .b => x.b

/-- The record with one compartment's value replaced. -/
def Two.putComp {α : Type} (x : Two α) (c : Compartment) (v : α) : Two α :=
  match c with
  | .a => { x with a := v }
  | .b => { x with b := v }

/-- The channels in the order of their numbers (R26). -/
def allChannels : List Channel := [.reach, .lift, .grip, .divert, .packA, .packB]

/-- A coil's number: 2c for the A coil of channel c, 2c + 1 for its B coil (R64). -/
def coilNumber (c : Channel) (d : Side) : Nat :=
  2 * c.number + match d with
    | .a => 0
    | .b => 1

/-- A coil's position k in its group (R64). -/
def coilPosition (c : Channel) (d : Side) : Nat := coilNumber c d % 6

/-! ## Memories: cells at addresses, rising, none erased (R50, R153) -/

/-- What stands at an address: an address that is not listed reads as erased. -/
def readCell {w : Nat} (erased : Nat → BitVec w) : List (Nat × BitVec w) → Nat → BitVec w
  | [], a => erased a
  | (k, v) :: r, a => if k = a then v else readCell erased r a

/-- The memory with `v` written at address `a`; writing the erased value removes the entry. -/
def writeCell {w : Nat} (erased : Nat → BitVec w) : List (Nat × BitVec w) → Nat → BitVec w → List (Nat × BitVec w)
  | [], a, v => if v = erased a then [] else [(a, v)]
  | (k, x) :: r, a, v =>
    if a < k then (if v = erased a then (k, x) :: r else (a, v) :: (k, x) :: r)
    else if a = k then (if v = erased a then r else (a, v) :: r)
    else (k, x) :: writeCell erased r a v

/-- Values written at consecutive addresses from `a`. -/
def writeCells {w : Nat} (erased : Nat → BitVec w) : List (Nat × BitVec w) → Nat → List (BitVec w) → List (Nat × BitVec w)
  | m, _, [] => m
  | m, a, v :: vs => writeCells erased (writeCell erased m a v) (a + 1) vs

/-- The memory with every address from `lo` up to but not including `hi` erased. -/
def eraseRange {w : Nat} (lo hi : Nat) (m : List (Nat × BitVec w)) : List (Nat × BitVec w) :=
  m.filter fun e => !(decide (lo ≤ e.1) && decide (e.1 < hi))

/-- The canonical form: addresses strictly rising, no entry equal to the erased value. -/
def cellsWf {w : Nat} (erased : Nat → BitVec w) : List (Nat × BitVec w) → Bool
  | [] => true
  | (a, v) :: r =>
    (v != erased a) && (match r with
      | [] => true
      | (b, _) :: _ => decide (a < b)) && cellsWf erased r

/-! ### The profile store's areas (R50) -/

/-- The entries of an area (R50). -/
def Area.size : Area → Nat
  | .elements => 16384
  | .sets => 768
  | .diverter => 2
  | .packs => 4
  | .conditions => 30
  | .flows => 6
  | .coils => 12
  | .periods => 2

/-- Where an area begins when the areas are laid end to end in the order of R50. -/
def Area.base : Area → Nat
  | .elements => 0
  | .sets => 16384
  | .diverter => 17152
  | .packs => 17154
  | .conditions => 17158
  | .flows => 17188
  | .coils => 17194
  | .periods => 17206

/-- The words of the store (R50). -/
def storeSize : Nat := 17208

/-- The erased value of each word of the store (R50, laid out by R195): all ones in the element area, the address tables
and the condition table, 0 in the flow ratings and the coil calibration, 10,000 in the group periods. -/
def erasedWord (a : Nat) : Word32 :=
  if a < 17188 then allOnes32 else if a < 17206 then 0#32 else 10000#32

/-- A word of the store or of its copy. -/
def readWord (m : Words) (area : Area) (offset : Nat) : Word32 := readCell erasedWord m (area.base + offset)

/-- The check of an erased element: its word is all ones (R58). -/
def erasedCheck (_ : Nat) : BitVec 4 := 15#4

/-- The CRC-32 over all 17,208 words, each as four bytes, least significant first (R51). -/
@[irreducible] def storeCrc (m : Words) : Word32 :=
  ~~~ ((List.range storeSize).foldl
    (fun c a => (bytesOf 4 (readCell erasedWord m a)).foldl crc32Byte c) 0xFFFFFFFF#32)

/-! ### Journal slots (R153) -/

/-- A BLANK slot (R153). -/
def blankSlot : SlotBits := BitVec.allOnes 512

/-- Every slot's erased pattern is BLANK (R153). -/
def erasedSlot (_ : Nat) : SlotBits := blankSlot

/-- What stands in a slot; slots are numbered through, sector by sector. -/
def readSlot (m : Slots) (i : Nat) : SlotBits := readCell erasedSlot m i

/-! ## What other blocks ask of the state -/

/-- The channel is present in the body variant (R26). -/
def State.hasChannel (s : State) (c : Channel) : Bool := c.present s.variant

/-- The compartment is present in the body variant (R136). -/
def State.hasComp (s : State) (c : Compartment) : Bool := c.present s.variant

/-- The state with one channel record replaced. -/
def State.setChan (s : State) (c : Channel) (r : Chan) : State := s.setChans (s.chans.put c r)

/-- The state with one compartment record replaced. -/
def State.setComp (s : State) (c : Compartment) (r : Comp) : State := s.setComps (s.comps.putComp c r)

/-- The lift context changed by `f`, where there is one (R3). -/
def State.mapCtx (s : State) (f : LiftCtx → LiftCtx) : State := s.setLcc { s.lcc with ctx := s.lcc.ctx.map f }

/-- A sensor input's level that a flap shows for a compartment (R8, R43). -/
def Levels.flapAt (l : Levels) : Compartment → Bool
  | .a => l.flapAtA
  | .b => l.flapAtB

/-- The words the shadow offers while it is READY. Otherwise it offers none, and the model's own choice is that a reader
meets the words of an erased store (R55, log 42): no channel moves then, so every demand and duty is 0 whatever they are. -/
def State.tables (s : State) : Words :=
  match s.shadow.state, s.shadow.content with
  | .ready, some c => c.words
  | _, _ => []

end Sys2Proof.Machine
end

