-- ==== Sys2Proof/Machine/Operands.lean ====
section
/-! DEFINITION. The coded operands of requests (R197), the settings and parameters by name (R191, R100) and the decoding
of profile elements and condition entries (R195). -/

namespace Sys2Proof.Machine

/-! ## Codes of request fields (R197) -/

/-- A stream's code. -/
def streamOf (b : Byte) : Option Stream :=
  match b.toNat with
  | 0 => some .refuse
  | 1 => some .recycle
  | _ => none

/-- A compartment's code. -/
def compartmentOf (b : Byte) : Option Compartment :=
  match b.toNat with
  | 0 => some .a
  | 1 => some .b
  | _ => none

/-- A channel's number (R26). -/
def channelOf (b : Byte) : Option Channel :=
  match b.toNat with
  | 0 => some .reach
  | 1 => some .lift
  | 2 => some .grip
  | 3 => some .divert
  | 4 => some .packA
  | 5 => some .packB
  | _ => none

/-- The compartment that a request names, where this part has it (R151): a code that names none, and compartment B of a
SINGLE body, name no compartment of this part. -/
def State.compNamed (s : State) (b : Byte) : Option Compartment :=
  match compartmentOf b with
  | some c => if s.hasComp c then some c else none
  | none => none

/-- The channel that a request names, where this part has it. -/
def State.chanNamed (s : State) (b : Byte) : Option Channel :=
  match channelOf b with
  | some c => if s.hasChannel c then some c else none
  | none => none

/-- A store area's code (R50). -/
def areaOf (b : Byte) : Option Area :=
  match b.toNat with
  | 0 => some .elements
  | 1 => some .sets
  | 2 => some .diverter
  | 3 => some .packs
  | 4 => some .conditions
  | 5 => some .flows
  | 6 => some .coils
  | 7 => some .periods
  | _ => none

/-- A field of all ones is absent (R193). -/
def presentField {w : Nat} (x : BitVec w) : Option Nat := if x = BitVec.allOnes w then none else some x.toNat

/-! ## Settings by name (R191) -/

/-- The settings in the order of R191. -/
def allSettings : List Setting :=
  [.packAfter, .fullStrokes, .packFullPressure, .limitA, .limitB, .untaggedPolicy, .repeatInterval, .liftSpeedLimit,
   .permitPeriod, .idleRpm, .displacement, .mapRefuse, .mapRecycle]

/-- A setting's number (R197). -/
def settingOf (b : Byte) : Option Setting := allSettings[b.toNat]?

/-- A setting's range: for an enumerated one, the codes of its list (R191). -/
def Setting.range : Setting → Nat × Nat
  | .packAfter => (1, 8)
  | .fullStrokes => (1, 4)
  | .packFullPressure => (50, 3000)
  | .limitA => (0, 20000)
  | .limitB => (0, 20000)
  | .untaggedPolicy => (0, 1)
  | .repeatInterval => (0, 3600)
  | .liftSpeedLimit => (0, 100)
  | .permitPeriod => (100, 1000)
  | .idleRpm => (300, 1500)
  | .displacement => (10, 250)
  | .mapRefuse => (0, 1)
  | .mapRecycle => (0, 1)

/-- The settings whose values are a list of names (R191). -/
def Setting.enumerated : Setting → Bool
  | .untaggedPolicy | .mapRefuse | .mapRecycle => true
  | _ => false

/-- The code of a compartment (R197). -/
def compartmentCode : Compartment → Nat
  | .a => 0
  | .b => 1

/-- The code of the untagged policy (R197). -/
def policyCode : UntaggedPolicy → Nat
  | .liftUnbilled => 0
  | .refuse => 1

/-- A setting's value, an enumerated one as its code (R197). -/
def Settings.value (x : Settings) : Setting → Nat
  | .packAfter => x.packAfter
  | .fullStrokes => x.fullStrokes
  | .packFullPressure => x.packFullPressure
  | .limitA => x.limitA
  | .limitB => x.limitB
  | .untaggedPolicy => policyCode x.untaggedPolicy
  | .repeatInterval => x.repeatInterval
  | .liftSpeedLimit => x.liftSpeedLimit
  | .permitPeriod => x.permitPeriod
  | .idleRpm => x.idleRpm
  | .displacement => x.displacement
  | .mapRefuse => compartmentCode x.mapRefuse
  | .mapRecycle => compartmentCode x.mapRecycle

/-- The settings with one replaced by a value of its range. -/
def Settings.put (x : Settings) (k : Setting) (v : Nat) : Settings :=
  match k with
  | .packAfter => { x with packAfter := v }
  | .fullStrokes => { x with fullStrokes := v }
  | .packFullPressure => { x with packFullPressure := v }
  | .limitA => { x with limitA := v }
  | .limitB => { x with limitB := v }
  | .untaggedPolicy => { x with untaggedPolicy := if v = 0 then .liftUnbilled else .refuse }
  | .repeatInterval => { x with repeatInterval := v }
  | .liftSpeedLimit => { x with liftSpeedLimit := v }
  | .permitPeriod => { x with permitPeriod := v }
  | .idleRpm => { x with idleRpm := v }
  | .displacement => { x with displacement := v }
  | .mapRefuse => { x with mapRefuse := if v = 0 then .a else .b }
  | .mapRecycle => { x with mapRecycle := if v = 0 then .a else .b }

/-- A numeric value brought to its nearest bound (R190, R191). -/
def Setting.clamp (k : Setting) (v : Nat) : Nat := clampNat k.range.1 k.range.2 v

/-- A value read from a cell: a numeric one brought to its nearest bound, an enumerated one outside its list to the
default (R190). -/
def Setting.readBack (k : Setting) (v : Nat) : Nat :=
  if k.enumerated then (if v ≤ k.range.2 then v else Settings.defaults.value k) else k.clamp v

/-- The thirteen values in the order of R191. -/
def Settings.values (x : Settings) : List Nat := allSettings.map x.value

/-- The settings that a cell's values give (R190). -/
def Settings.ofValues (vs : List Nat) : Settings :=
  (allSettings.zip vs).foldl (fun x e => x.put e.1 (e.1.readBack e.2)) Settings.defaults

/-- The compartment of a stream (R5 check 8, R191). -/
def Settings.map (x : Settings) : Stream → Compartment
  | .refuse => x.mapRefuse
  | .recycle => x.mapRecycle

/-- A compartment's limit in kilograms (R137, R191). -/
def Settings.limit (x : Settings) : Compartment → Nat
  | .a => x.limitA
  | .b => x.limitB

/-! ## Metrology parameters by name (R100) -/

/-- The parameters in the order of the changed-parameter mask (R194). -/
def allParams : List Param := [.zA, .zB, .kA, .kB, .d, .max, .min, .band, .tilt]

/-- A parameter's number (R197). -/
def paramOf (b : Byte) : Option Param := allParams[b.toNat]?

/-- A parameter's value. -/
def Params.value (x : Params) : Param → Int
  | .zA => x.zA
  | .zB => x.zB
  | .kA => x.kA
  | .kB => x.kB
  | .d => x.d
  | .max => x.max
  | .min => x.min
  | .band => x.band
  | .tilt => x.tilt

/-- The set with one parameter replaced. -/
def Params.put (x : Params) (k : Param) (v : Int) : Params :=
  match k with
  | .zA => { x with zA := v }
  | .zB => { x with zB := v }
  | .kA => { x with kA := v }
  | .kB => { x with kB := v }
  | .d => { x with d := v }
  | .max => { x with max := v }
  | .min => { x with min := v }
  | .band => { x with band := v }
  | .tilt => { x with tilt := v }

/-- `x` lies within a range. -/
def within (lo hi x : Int) : Bool := decide (lo ≤ x) && decide (x ≤ hi)

/-- Every parameter lies in its range; Max's range and its multiple go by `d` (R100). -/
def Params.inRange (x : Params) : Bool :=
  within (-8388608) 8388607 x.zA && within (-8388608) 8388607 x.zB
    && within 1 1048575 x.kA && within 1 1048575 x.kB
    && (x.d == 100 || x.d == 200 || x.d == 500 || x.d == 1000)
    && within (20 * x.d) 600000 x.max && x.max % x.d == 0
    && within 1 50 x.min && within 1 8 x.band && within 50 1500 x.tilt

/-- The bits of the parameters in which two sets differ (R108, R194). -/
def Params.changed (old new : Params) : Nat :=
  ((List.range 9).zip allParams).foldl (fun m e => if old.value e.2 = new.value e.2 then m else m + 2 ^ e.1) 0

/-! ## Profile elements (R195) -/

/-- The element kinds with their fields (R195); `bad` is a word whose kind code defines none. -/
inductive Element where
  | set (value : Int)
  | ramp (target : Int) (n : Nat)
  | delta4 (d1 d2 d3 d4 : Int) (scale : Nat)
  | hold (n : Nat)
  | step (interval : Nat)
  | mark (code : Nat)
  | await (condition timeout : Nat)
  | fin
  | bad
  deriving DecidableEq, Repr

/-- An element word by its kind, bits 28 to 31 (R195). -/
def decodeElement (w : Word32) : Element :=
  match (w.extractLsb' 28 4).toNat with
  | 1 => .set (w.extractLsb' 0 11).toInt
  | 2 => .ramp (w.extractLsb' 0 11).toInt (w.extractLsb' 16 8).toNat
  | 3 => .delta4 (w.extractLsb' 0 4).toInt (w.extractLsb' 4 4).toInt (w.extractLsb' 8 4).toInt (w.extractLsb' 12 4).toInt
      (w.extractLsb' 16 2).toNat
  | 4 => .hold (w.extractLsb' 0 12).toNat
  | 5 => .step (w.extractLsb' 0 8).toNat
  | 6 => .mark (w.extractLsb' 0 4).toNat
  | 7 => .await (w.extractLsb' 0 5).toNat (w.extractLsb' 8 10).toNat
  | 8 => .fin
  | _ => .bad

/-! ## Table words (R195) -/

/-- An address table's entry: absent, an element address, or neither. -/
def addressWordOk (w : Word32) : Bool := w == allOnes32 || (w.extractLsb' 14 18).toNat == 0

/-- The element address of an address table's entry. -/
def addressOf (w : Word32) : Option Nat := if w = allOnes32 then none else some (w.extractLsb' 0 14).toNat

/-- The comparisons of a condition entry (R43, R195). -/
inductive Comparison where
  | atLeast
  | atMost
  | equals
  deriving DecidableEq, Repr

/-- A used condition entry (R42, R43, R195). -/
structure Condition where
  input : Nat
  comparison : Comparison
  threshold : Int
  deriving DecidableEq, Repr

/-- A condition word's form: unused, or its input at most 14, its comparison not 3 and its other bits 0 (R195). -/
def conditionWordOk (w : Word32) : Bool :=
  w == allOnes32 ||
    ((w.extractLsb' 0 5).toNat ≤ 14 && (w.extractLsb' 8 2).toNat ≤ 2 && (w.extractLsb' 5 3).toNat == 0
      && (w.extractLsb' 10 6).toNat == 0)

/-- The condition of an entry; the all-ones word is an unused one (R195). -/
def conditionOf (w : Word32) : Option Condition :=
  if w = allOnes32 then none
  else some
    { input := (w.extractLsb' 0 5).toNat
      comparison := match (w.extractLsb' 8 2).toNat with
        | 0 => .atLeast
        | 1 => .atMost
        | _ => .equals
      threshold := (w.extractLsb' 16 16).toInt }

end Sys2Proof.Machine
end

