-- ==== Sys2Proof/Machine/Formats.lean ====
section
/-! DEFINITION. Stored layouts (R194, R198) and the codes of what a message carries (R196, R197). -/

namespace Sys2Proof.Machine

/-! ## Codes -/

/-- A stream's code (R194, R197). -/
def streamCode : Stream → Nat
  | .refuse => 0
  | .recycle => 1

/-- A profile phase's index (R50). -/
def ProfilePhase.index : ProfilePhase → Nat
  | .approach => 0
  | .grip => 1
  | .raise => 2
  | .tip => 3
  | .lower => 4
  | .release => 5
  | .retract => 6
  | .recover => 7

/-- A cycle phase's code (R197). -/
def CyclePhase.code : CyclePhase → Nat
  | .run p => p.index
  | .idle => 8
  | .halted => 9
  | .stuck => 10

/-- A fault kind's code (R197). -/
def FaultKind.code : FaultKind → Nat
  | .awaitTimeout => 0
  | .checkError => 1
  | .markOrder => 2
  | .badElement => 3
  | .coil => 4

/-- A record kind's code (R194). -/
def RecordKind.code : RecordKind → Nat
  | .lift => 0
  | .refused => 1
  | .aborted => 2
  | .unload => 3
  | .calibration => 4

/-- A refusal reason's code (R194). -/
def RefusalReason.code : RefusalReason → Nat
  | .untagged => 0
  | .unknownTag => 1
  | .suspended => 2
  | .stream => 3
  | .liftLimit => 4
  | .allowanceSpent => 5

/-- An outcome code's number (R196). -/
def Code.number : Code → Nat
  | .ok => 0
  | .clamped => 1
  | .busy => 2
  | .wrongState => 3
  | .notPermitted => 4
  | .malformed => 5
  | .unknownKind => 6
  | .noSuch => 7
  | .notFound => 8
  | .tableFull => 9
  | .entryPinned => 10
  | .journalFull => 11
  | .gone => 12
  | .notYet => 13
  | .locked => 14
  | .codeMismatch => 15
  | .frozen => 16
  | .wireIntact => 17
  | .speed => 18
  | .trialPending => 19
  | .counterExhausted => 20
  | .storeInvalid => 21
  | .shadowNotReady => 22
  | .faultPersists => 23
  | .refused => 24

/-- A LIFT refusal reason's number (R196). -/
def LiftRefusal.number : LiftRefusal → Nat
  | .cycleBusy => 2
  | .shadowNotReady => 3
  | .ptoOff => 4
  | .noPermit => 5
  | .chassisSilent => 6
  | .speed => 7
  | .noCompartment => 8
  | .compartmentFull => 9
  | .journalFull => 10
  | .slotEmpty => 11

/-- A compartment status's code (R196). -/
def CompStatus.code : CompStatus → Nat
  | .opened => 0
  | .nearFull => 1
  | .full => 2

/-- The cause set's bits (R197). -/
def Causes.bits (c : Causes) : Nat := c.permit.toNat + 2 * c.pto.toNat + 4 * c.speed.toNat + 8 * c.fault.toNat

/-- The bits of watched levels (R197). -/
def Levels.bits (l : Levels) : Nat :=
  l.armStowed.toNat + 2 * l.gripOpen.toNat + 4 * l.flapAtA.toNat + 8 * l.flapAtB.toNat

/-- A coil fault kind's code (R197). -/
def CoilFault.code : CoilFault → Nat
  | .openCircuit => 0
  | .shortCircuit => 1

/-! ## Fields (R193) -/

/-- The number of a field of `n` bytes that is absent (R193). -/
def absentField (n : Nat) : Nat := 256 ^ n - 1

/-- An optional unsigned field (R193). -/
def optField (n : Nat) (x : Option Nat) : List Byte := toBytes n (x.getD (absentField n))

/-- A signed field, two's complement (R193). -/
def signedField (n : Nat) (x : Int) : List Byte := toBytes n (x % (256 ^ n : Nat)).toNat

/-- A weight that the record's field can hold (R194). -/
def weightFits (x : Int) : Bool := within (-8388608) 8388607 x

/-- A weight of a record: outside the field's range it is stored at the nearer bound (R194). -/
def weightField : Option Int → List Byte
  | none => toBytes 3 (absentField 3)
  | some x => signedField 3 (clampTo (-8388608) 8388607 x)

/-- An angle of a record, offset by 32,768; a reading beyond the field is stored at the nearer bound (R194). -/
def angleField : Option Int → List Byte
  | none => toBytes 2 (absentField 2)
  | some x => toBytes 2 (clampTo (-32768) 32766 x + 32768).toNat

/-! ## The journal record (R194) -/

/-- Byte 25 of a record, by its kind (R194). -/
def Record.byte25 (r : Record) : Nat :=
  let comp := (r.comp.map compartmentCode).getD 0
  let reason := (r.reason.map RefusalReason.code).getD 15
  match r.kind with
  | .calibration => 255
  | .unload => 2 * comp + 16 * 15
  | .lift | .refused | .aborted => (r.stream.map streamCode).getD 0 + 2 * comp + 4 * (r.slot.getD 0) + 16 * reason

/-- Bytes 0 to 59 of a record (R194). -/
def Record.body (r : Record) : List Byte :=
  toBytes 4 r.seq ++ toBytes 1 r.kind.code ++ toBytes 4 r.flags.toNat ++ optField 4 r.time ++ optField 4 r.account
    ++ toBytes 8 (r.tag.getD noTagId).toNat ++ toBytes 1 r.byte25
    ++ weightField r.gross ++ weightField r.tare ++ weightField r.net
    ++ optField 3 r.covered ++ optField 3 r.excess ++ optField 3 r.allowance
    ++ toBytes 2 r.cec ++ toBytes 4 r.totalA ++ optField 4 r.totalB
    ++ angleField (r.angles.map Prod.fst) ++ angleField (r.angles.map Prod.snd)
    ++ optField 1 (r.lastPhase.map ProfilePhase.index) ++ toBytes 1 r.overflow

/-- The 64 bytes of a record, as a slot holds them (R194). -/
def Record.bits (r : Record) : SlotBits :=
  BitVec.ofNat 512 (leNat (r.body ++ toBytes 4 (crc32 r.body).toNat))

/-- The sequence number that a slot holds (R194). -/
def slotSeq (x : SlotBits) : Nat := fieldOf 0 4 x

/-- The slot's check passes: bytes 60 to 63 are the CRC-32 of bytes 0 to 59 (R194). -/
def slotCheck (x : SlotBits) : Bool := (crc32 ((bytesOf 64 x).take 60)).toNat == fieldOf 60 4 x

/-- The total of A after the record (R194). -/
def slotTotalA (x : SlotBits) : Nat := fieldOf 46 4 x

/-- The total of B after the record (R194). -/
def slotTotalB (x : SlotBits) : Nat := fieldOf 50 4 x

/-! ## The stored metrology block (R198) -/

/-- Byte 30 of the block: bit 0 the saved calibration state, bit 1 that the locked profile check is present (R198); the other bits
0, and ignored when the block is read (log 59). -/
def blockFlags (cal : CalState) (check : Option Word32) : Nat :=
  (if cal = .valid then 0 else 1) + (if check.isSome then 2 else 0)

/-- Bytes 0 to 32 of the block (R198). -/
def blockBytes (p : Params) (check : Option Word32) (cal : CalState) (cec : Nat) : List Byte :=
  signedField 4 p.zA ++ signedField 4 p.zB ++ signedField 4 p.kA ++ signedField 4 p.kB ++ signedField 2 p.d
    ++ signedField 4 p.max ++ signedField 1 p.min ++ signedField 1 p.band ++ signedField 2 p.tilt
    ++ toBytes 4 (check.getD allOnes32).toNat ++ toBytes 1 (blockFlags cal check) ++ toBytes 2 cec

/-- The stored block with its check written (R108, R198). -/
def storedBlock (p : Params) (check : Option Word32) (cal : CalState) (cec : Nat) : StoredBlock :=
  { contents := BitVec.ofNat 264 (leNat (blockBytes p check cal cec)),
    check := some (crc32 (blockBytes p check cal cec)) }

/-- The check over the stored block passes (R101). -/
def StoredBlock.good (b : StoredBlock) : Bool := b.check == some (crc32 (bytesOf 33 b.contents))

/-- A signed field of 4 bytes of the block. -/
def blockSigned (i : Nat) (x : BlockBits) : Int := (BitVec.ofNat 32 (fieldOf i 4 x)).toInt

/-- The parameters of the stored block (R198). -/
def blockParams (x : BlockBits) : Params :=
  { zA := blockSigned 0 x, zB := blockSigned 4 x, kA := fieldOf 8 4 x, kB := fieldOf 12 4 x, d := fieldOf 16 2 x,
    max := fieldOf 18 4 x, min := fieldOf 22 1 x, band := fieldOf 23 1 x, tilt := fieldOf 24 2 x }

/-- The locked profile check of the stored block (R198), by bit 1 of byte 30 alone (log 59). -/
def blockLockedCheck (x : BlockBits) : Option Word32 :=
  if fieldOf 30 1 x / 2 % 2 = 1 then some (BitVec.ofNat 32 (fieldOf 26 4 x)) else none

/-- The saved calibration state of the stored block (R198), by bit 0 of byte 30 alone (log 59). -/
def blockCal (x : BlockBits) : CalState := if fieldOf 30 1 x % 2 = 0 then .valid else .unverified

/-- The CEC copy of the stored block (R198). -/
def blockCec (x : BlockBits) : Nat := fieldOf 31 2 x

/-! ## Messages (R196, R197) -/

/-- PHASE (R197). -/
def PhaseMsg.bytes (m : PhaseMsg) : List Byte :=
  toBytes 1 m.phase.code ++ optField 1 (m.haltedPhase.map ProfilePhase.index) ++ toBytes 1 m.causes.bits
    ++ allChannels.flatMap fun c => optField 1 ((m.faults.get c).map FaultKind.code)

/-- ALERT: the alert kind, then the data of that kind (R197). -/
def Alert.bytes : Alert → List Byte
  | .journalLow free reserved => toBytes 1 0 ++ toBytes 2 free ++ toBytes 1 reserved
  | .stowAlarm latched now => toBytes 1 1 ++ toBytes 1 latched.bits ++ toBytes 1 now.bits
  | .coilFault c l => toBytes 1 2 ++ toBytes 1 c.number ++ toBytes 1 (coilNumber c l.side) ++ toBytes 1 l.kind.code
  | .packFault c f => toBytes 1 3 ++ toBytes 1 (compartmentCode c) ++ toBytes 1 f.kind.code ++ toBytes 2 f.address
  | .chassisSilent => toBytes 1 4
  | .settingsDefaulted => toBytes 1 5
  | .storeInvalid => toBytes 1 6

/-- The code of an indication's kind (R197). -/
def Indication.kind : Indication → Byte
  | .phase _ => 56#8
  | .record _ _ => 57#8
  | .alert _ => 58#8

/-- The bytes of an indication, from byte 0 of the frame (R197). -/
def Indication.bytes : Indication → List Byte
  | .phase m => m.bytes
  | .record seq kind => toBytes 4 seq ++ toBytes 1 kind.code
  | .alert a => a.bytes

/-- PAYLOAD (R196). -/
def PayloadMsg.bytes (m : PayloadMsg) : List Byte :=
  optField 4 m.totalA ++ optField 4 m.totalB ++ optField 1 (m.statusA.map CompStatus.code)
    ++ optField 1 (m.statusB.map CompStatus.code) ++ toBytes 1 m.alarm.toNat

/-- A CAN identifier: priority, kind, source, destination, reserved (R183). -/
def canId (prio : BitVec 3) (kind : Byte) (src dst : Nat) : BitVec 29 :=
  prio ++ kind ++ BitVec.ofNat 6 src ++ BitVec.ofNat 6 dst ++ 0#6

/-- A CAN frame of the part: source 16, the bytes in the smallest data length that holds them (R183, R197). -/
def canFrame (prio : BitVec 3) (kind : Byte) (dst : Nat) (bytes : List Byte) : WireFrame :=
  .can (canId prio kind 16 dst) (padTo (canLength bytes.length) bytes)

/-- A service-line frame of the part: start byte, length, kind, what follows it, CRC-16 high byte first (R184, R196). -/
def lineFrame (kind : Byte) (rest : List Byte) : WireFrame :=
  let covered := BitVec.ofNat 8 (rest.length + 1) :: kind :: rest
  let check := crc16 covered
  .line (0x5A#8 :: covered ++ [check.extractLsb' 8 8, check.extractLsb' 0 8])

/-- Free bytes, one for each place (log 17). -/
def freeBytes (ix n : Nat) : List Byte := (List.range n).map (Config.freeByte ix)

/-- The given fields of a household entry, as ENTRY_PUT lays them out (R197). -/
def Entry.givenBytes (e : Entry) : List Byte :=
  toBytes 8 e.tag.toNat ++ toBytes 4 e.account
    ++ toBytes 1 (match e.status with
      | .active => 0
      | .suspended => 1)
    ++ toBytes 1 (e.takesRefuse.toNat + 2 * e.takesRecycle.toNat) ++ toBytes 1 e.slot
    ++ toBytes 1 (match e.tariff with
      | .byWeight => 0
      | .byLift => 1)
    ++ optField 3 e.allowance
    ++ toBytes 1 (match e.excess with
      | .charge => 0
      | .refuse => 1)
    ++ optField 1 e.liftLimit

/-- Settings with their values, as SETTING_PUT lays its list out (R197). -/
def settingsBytes (l : List (Setting × Nat)) : List Byte :=
  toBytes 1 l.length ++ l.flatMap fun e => toBytes 1 (allSettings.idxOf e.1) ++ toBytes 2 e.2

/-- A parameter set, as TRIAL_SET lays its list out (R197). -/
def Params.bytes (p : Params) : List Byte :=
  toBytes 1 9 ++ allParams.flatMap fun k => toBytes 1 (allParams.idxOf k) ++ signedField 4 (p.value k)

/-- The slot map, as SLOT_MAP lays its list out (R197). -/
def SlotSets.bytes (m : SlotSets) : List Byte :=
  toBytes 1 4 ++ ([m.s0, m.s1, m.s2, m.s3].zipIdx.flatMap fun e => toBytes 1 e.2 ++ toBytes 1 e.1)

/-- The items of an outcome's data whose width the manual states at some place, least significant byte first (R193): the
record of R194 with its counts, sequence numbers, check words, the CEC, the fields of requests and indications. Which item
stands where is the model's own choice, since R196 lays out no outcome data but the refusal reason (log 17). -/
def AnswerData.known : AnswerData → List Byte
  | .refusal r => toBytes 1 r.number
  | .creep used => toBytes 1 used
  | .causes c => toBytes 1 c.bits
  | .record bits newest mark => bytesOf 64 bits ++ toBytes 4 newest ++ toBytes 4 mark
  | .seq n => optField 4 n
  | .check w => toBytes 4 w.toNat
  | .cec n => toBytes 2 n
  | .slots m => m.bytes
  | .settings l | .settingsAll l _ _ => settingsBytes l
  | .params p => p.bytes
  | .entry e => e.givenBytes ++ optField 4 e.lastTime
  | .empty | .parkingBrake | .noPermit | .latch _ | .status _ | .inserted _ | .replaced _ | .count _ | .grams _
  | .live _ | .attrs _ => []

/-- Every item of the data has a stated width (log 17). -/
def AnswerData.laidOut : AnswerData → Bool
  | .empty | .refusal _ | .creep _ | .causes _ | .record .. | .seq _ | .check _ | .cec _ | .slots _ | .settings _
  | .params _ => true
  | .entry _ | .settingsAll .. | .parkingBrake | .noPermit | .latch _ | .status _ | .inserted _ | .replaced _ | .count _
  | .grams _ | .live _ | .attrs _ => false

/-- The outcome data of one part of an answer, at most `room` bytes: the items of stated width in parts of `room` bytes, then
free bytes where an item has no stated width (R196, log 17). -/
def AnswerData.bytes (ix room part : Nat) (d : AnswerData) : List Byte :=
  let stated := (d.known.drop ((part - 1) * room)).take room
  if d.laidOut then stated else stated ++ freeBytes ix (Config.freeNat ix % (room - stated.length + 1))

/-- A message as it stands on the medium; `ix` is the draw of its free bytes (R183, R184, R196). -/
def TxMsg.wire (ix : Nat) : TxMsg → WireFrame
  | .answer h kind code part count data =>
    let layout := fun room => [h.tag, kind, BitVec.ofNat 8 code.number, BitVec.ofNat 8 part, BitVec.ofNat 8 count]
      ++ data.bytes ix room part
    match h.src with
    | .calTool => lineFrame kind (layout 244)
    | n => canFrame h.prio kind n.number (layout 59)
  | .indication i => canFrame 2#3 i.kind 0 i.bytes
  | .payload m => canFrame 3#3 49#8 1 m.bytes

end Sys2Proof.Machine
end

