-- ==== Sys2Proof/Machine/Link.lean ====
section
/-! DEFINITION. The Link Ports' shared operations: queues, the tests of a request, answers, indications, PAYLOAD, and the
assembly of frames (R182 to R188, R192). -/

namespace Sys2Proof

/-- The requests a sender may make (R186). -/
def Request.allowed (src : Node) : Request → Bool
  | .entryPut _ | .entryDrop _ | .entryGet _ | .tableClear _ | .tableReady _ | .journalRead _ | .journalRelease _
  | .timeSet _ | .slotMap _ | .settingPut _ | .settingGet _ => src == .routeTerminal
  | .freezeLock _ => src == .routeTerminal || src == .calTool
  | .statusGet _ => src == .routeTerminal || src == .console || src == .calTool
  | .lift _ | .permit _ | .resume _ | .abort _ | .cycleClear _ | .pack _ | .unload _ | .abortUnload _ | .faultClear _ =>
      src == .console
  | .chassisState _ => src == .chassis
  | .openLock _ | .closeLock _ | .setCode _ | .trialSet _ | .trialDiscard _ | .commit _ | .serviceZero _ | .liveWeight _
  | .attrRead _ | .profileWrite _ | .profileErase _ | .shadowLoad _ => src == .calTool
  | .other _ => false

/-- The kinds that the part only sends, and the tag line's TAG_SEEN: defined, and listed for no master (R186, R197). -/
def definedOnly (kind : Byte) : Bool :=
  kind == 49#8 || kind == 56#8 || kind == 57#8 || kind == 58#8 || kind == 64#8

end Sys2Proof

namespace Sys2Proof.Machine

/-! ## Ports (R182) -/

/-- A port's items. -/
def State.port (s : State) : Port → PortState
  | .body => s.links.body
  | .chassis => s.links.chassis
  | .service => s.links.service

/-- The state with a port's items replaced. -/
def State.setPort (s : State) (p : Port) (x : PortState) : State :=
  match p with
  | .body => s.setLinks { s.links with body := x }
  | .chassis => s.setLinks { s.links with chassis := x }
  | .service => s.setLinks { s.links with service := x }

/-- A message that may be discarded to make room for an answer: an indication or PAYLOAD (R187). -/
def TxMsg.discardable : TxMsg → Bool
  | .answer .. => false
  | _ => true

/-- The queue without its oldest discardable message; none when it holds none (R187). -/
def dropOldest : List TxMsg → Option (List TxMsg)
  | [] => none
  | m :: r => if m.discardable then some r else (dropOldest r).map (m :: ·)

/-- A single-frame answer in a transmit queue: a full queue discards its oldest indication or PAYLOAD to make room, or,
with none, the answer (R187). -/
def queueAnswer (tx : List TxMsg) (m : TxMsg) : List TxMsg :=
  if tx.length < Config.txCapacity then tx ++ [m]
  else match dropOldest tx with
    | some r => r ++ [m]
    | none => tx

/-- An indication or PAYLOAD in a transmit queue: a full queue discards it (R187). -/
def queueUnasked (tx : List TxMsg) (m : TxMsg) : List TxMsg :=
  if tx.length < Config.txCapacity then tx ++ [m] else tx

/-- The parts of an answer, one after another (R187). -/
def answerParts (h : Header) (kind : Byte) (code : Code) (data : AnswerData) (n : Nat) : List TxMsg :=
  (List.range n).map fun i => .answer h kind code (i + 1) n data

/-- The parts an answer takes: a STATUS_GET section takes a number the manual leaves open (log 17), a record read on CAN
takes two, every other answer one (R187). -/
def partCount (ix : Nat) : AnswerData → Nat
  | .status _ => max 1 (Config.freeNat ix)
  | .record _ _ _ => 2
  | _ => 1

/-- The draws an answer's parts use. -/
def partDraws : AnswerData → Nat
  | .status _ => 1
  | _ => 0

/-- A transmit queue with an answer of `n` parts: all of them, or, with no room for them, one BUSY (R187). -/
def queueParts (tx : List TxMsg) (h : Header) (kind : Byte) (code : Code) (data : AnswerData) (n : Nat) : List TxMsg :=
  if n ≤ 1 then queueAnswer tx (.answer h kind code 1 1 data)
  else if tx.length + n ≤ Config.txCapacity then tx ++ answerParts h kind code data n
  else queueAnswer tx (.answer h kind .busy 1 1 .empty)

/-- An answer handed to the port its request came in on. The chassis link is never answered; while a port is OFF_BUS the
message is discarded (R182, R186, R187). -/
def State.answer (s : State) (h : Header) (kind : Byte) (code : Code) (data : AnswerData) : State :=
  match h.src.port with
  | .chassis => s
  | p =>
    let x := s.port p
    if x.onBus then
      (s.setPort p { x with tx := queueParts x.tx h kind code data (partCount s.freeIx data) }).setFreeIx
        (s.freeIx + partDraws data)
    else s

/-- An indication handed to the body link (R188). -/
def State.indicate (s : State) (i : Indication) : State :=
  let x := s.links.body
  if x.onBus then s.setPort .body { x with tx := queueUnasked x.tx (.indication i) } else s

/-- An alert handed to the body link (R188). -/
def State.alert (s : State) (a : Alert) : State := s.indicate (.alert a)

/-- PAYLOAD handed to the chassis link (R179). -/
def State.sendPayload (s : State) (m : PayloadMsg) : State :=
  let x := s.links.chassis
  if x.onBus then s.setPort .chassis { x with tx := queueUnasked x.tx (.payload m) } else s

/-! ## Requests (R182, R186) -/

/-- A request is taken by its owner: it is the head of its port's receive queue and leaves it, or the queue is empty and
the port, on its bus, hands it on as it arrives (R182, log 2). None otherwise: frames reach their owners in arrival order. A
request of the calibration tool is handed on while the part is sending on the service line too, which is the model's own choice
(R184, log 56). -/
def State.take (s : State) (h : Header) (r : Request) : Option State :=
  let x := s.port h.src.port
  match x.rx with
  | [] => if x.onBus then some s else none
  | f :: rest => if f = ⟨h, r⟩ then some (s.setPort h.src.port { x with rx := rest }) else none

/-- The refusal of a request that fails a test of R186: it is answered, but for a CHASSIS_STATE, which is discarded without
answer whichever master sent it (R174, R186). -/
def State.refuse (s : State) (h : Header) (r : Request) (code : Code) : State :=
  match r with
  | .chassisState _ => s
  | _ => s.answer h r.code code .empty

/-- The tests of R186 on a request of a defined kind, and its owner. A request that fails a test reaches no owner. -/
def State.request {α : Type} (s : State) (h : Header) (r : Request) (b : Payload α) (owner : α → State → State) : State :=
  match s.take h r with
  | none => s
  | some t =>
    if r.allowed h.src then
      match b with
      | none => t.refuse h r .malformed
      | some f => owner f t
    else t.refuse h r .notPermitted

/-- A request whose answer waits for the end of its work moves to its port's pending list (R182, R186). -/
def State.defer (s : State) (h : Header) (kind : Byte) : State :=
  let x := s.port h.src.port
  s.setPort h.src.port { x with deferred := x.deferred ++ [⟨h, kind⟩] }

/-- The answer of deferred work: it goes to the pending entry of its kind; with no entry it is discarded (R186, R192). -/
def State.answerDeferred (s : State) (p : Port) (kind : Byte) (code : Code) (data : AnswerData) : State :=
  let x := s.port p
  match x.deferred.find? (fun d => d.kind == kind) with
  | none => s
  | some d =>
    (s.setPort p { x with deferred := x.deferred.eraseP (fun e => e.kind == kind) }).answer d.header kind code data

/-! ## Arriving frames (R182 to R185) -/

/-- A request that a full receive queue answers BUSY, a CHASSIS_STATE never being answered (R182, log 34). -/
def Request.answered : Request → Bool
  | .other _ | .chassisState _ => false
  | _ => true

/-- A checked frame at its port: queued, or with a full receive queue answered BUSY or discarded; a port that is OFF_BUS
receives nothing (R182). -/
def State.arrive (s : State) (h : Header) (r : Request) : State :=
  let p := h.src.port
  let x := s.port p
  if x.onBus then
    if x.rx.length < Config.rxCapacity then s.setPort p { x with rx := x.rx ++ [⟨h, r⟩] }
    else if Request.answered r && decide (x.tx.length < Config.txCapacity) then s.answer h r.code .busy .empty
    else s
  else s

/-- The master that a source node number names on a CAN link (R183). -/
def nodeOf (p : CanPort) (n : Nat) : Option Node :=
  match p with
  | .body => if n = 32 then some .routeTerminal else if n = 33 then some .console else none
  | .chassis => if n = 1 then some .chassis else none

/-- The payload of a body-link frame, after its pairing tag. A frame with no data bytes has neither; it is given bytes that
are longer than any kind calls for, so that it fails test 3 of R186 (R196, R197, log 35). -/
def payloadOf : List Byte → List Byte
  | [] => List.replicate 64 0#8
  | _ :: p => p

/-- The header and request of a CAN frame addressed to the part from a node of the link; none when the frame is to be
discarded (R183). A body-link request carries its pairing tag in its first byte (R196); the chassis link has none. -/
def canRequest (p : CanPort) (id : BitVec 29) (data : List Byte) : Option (Header × Request) :=
  let dst := (id.extractLsb' 6 6).toNat
  let kind := id.extractLsb' 18 8
  if (id.extractLsb' 0 6).toNat = 0 ∧ (dst = 16 ∨ dst = 0) then
    match nodeOf p (id.extractLsb' 12 6).toNat with
    | none => none
    | some n =>
      match p with
      | .body => some (⟨n, id.extractLsb' 26 3, byteAt 0 data⟩, decodeRequest .body kind (payloadOf data))
      | .chassis => some (⟨n, id.extractLsb' 26 3, 0#8⟩, decodeRequest .chassis kind data)
  else none

/-- The check of a whole line frame: its last two bytes are the CRC-16, high byte first, of the bytes from the length on
(R184). -/
def lineCheck (bytes : List Byte) : Bool :=
  let n := bytes.length
  let covered := (bytes.drop 1).take (n - 3)
  let check := crc16 covered
  (bytes.drop (n - 2)) == [check.extractLsb' 8 8, check.extractLsb' 0 8]

/-- The smallest length byte of a line: the service line counts the pairing tag too (R184, R185). -/
def minLength : Line → Nat
  | .service => 2
  | .tagLine => 1

/-- A length byte in the line's range (R184, R185). -/
def lengthOk (l : Line) (n : Nat) : Bool := decide (minLength l ≤ n) && decide (n ≤ 250)

/-- The header and request of a checked service-line frame (R184, R196). -/
def serviceRequest (bytes : List Byte) : Header × Request :=
  (⟨.calTool, 0#3, byteAt 3 bytes⟩,
    decodeRequest .service (byteAt 2 bytes) ((bytes.drop 4).take (bytes.length - 6)))

/-- The part is sending on the service line (R184, log 34). -/
def State.sending (s : State) : Bool := !s.links.service.tx.isEmpty

/-- A line's partial frame. -/
def State.partialOf (s : State) : Line → List Byte
  | .service => s.links.servicePartial
  | .tagLine => s.links.tagPartial

/-- The state with a line's partial frame replaced. -/
def State.setPartial (s : State) (l : Line) (x : List Byte) : State :=
  match l with
  | .service => s.setLinks { s.links with servicePartial := x }
  | .tagLine => s.setLinks { s.links with tagPartial := x }

/-- What a byte does to a partial frame (R184, R185). -/
inductive Assembly where
  | held (bytes : List Byte)
  | complete (bytes : List Byte)
  deriving DecidableEq, Repr

/-- One byte of a line. A start byte opens a frame, unless the part is sending; a length out of range discards it; the
last byte the length calls for ends it, and a frame whose check does not match is discarded (R184, R185). A partial frame of the
service line that was begun before the part began to send goes on being assembled, and is taken where its check matches, which is
the model's own choice (log 62). -/
def assemble (l : Line) (sending : Bool) (held : List Byte) (b : Byte) : Assembly :=
  match held with
  | [] => .held (if b = 0x5A#8 ∧ ¬ sending then [b] else [])
  | [start] => .held (if lengthOk l b.toNat then [start, b] else [])
  | start :: len :: rest =>
    let bytes := start :: len :: rest ++ [b]
    if bytes.length < len.toNat + 4 then .held bytes
    else if lineCheck bytes then .complete bytes else .held []

/-- A whole line frame passes its framing (R184). -/
def wholeLineOk (bytes : List Byte) : Bool :=
  match bytes with
  | start :: len :: rest => start == 0x5A#8 && lengthOk .service len.toNat && rest.length == len.toNat + 2 && lineCheck bytes
  | _ => false

end Sys2Proof.Machine
end

