-- ==== Sys2Proof/Machine/Drive.lean ====
section
/-! DEFINITION. The Valve Drive's shared operations: available flow, gating, sharing and duty (R64 to R74). -/

namespace Sys2Proof.Machine

/-- A channel's drive command: its command scaled by its envelope while its step timer runs, 0 otherwise (R27, R48). -/
def Chan.driveCommand (r : Chan) : Int :=
  match r.state with
  | .run _ => truncDiv (r.u * r.envelope) 255
  | _ => 0

/-! ## Available flow (R66) -/

/-- The engine speed the Interlocks hand over: the last report's while the chassis is PRESENT and the report gave one
(R66). -/
def State.reportedRpm (s : State) : Option Nat := if s.inter.present then s.inter.report.rpm else none

/-- Qa computed from the engine speed, or idle_rpm, and the displacement (R66). -/
def State.recomputeQa (s : State) : State :=
  let rpm := s.reportedRpm.getD s.settings.inForce.idleRpm
  s.setDrive { s.drive with
    qa := rpm * s.settings.inForce.displacement / 100, rpm := rpm, usingIdle := s.reportedRpm.isNone }

/-! ## Gating and sharing (R67, R68) -/

/-- The gated command of a channel (R67). -/
def State.gated (s : State) (c : Channel) : Int :=
  if !s.hasChannel c then 0
  else if !s.inter.pto then 0
  else if c.isArm && !s.inter.permitHeld then 0
  else if (s.drive.latches.get c).isSome then 0
  else (s.chans.get c).driveCommand

/-- A channel's flow rating Qmax (R68, R195). -/
def qmax (m : Words) (c : Channel) : Nat := ((readWord m .flows c.number).extractLsb' 0 16).toNat

/-- A demand: |g| × Qmax / 1,000, truncated (R68 step 1). -/
def demandOf (q : Nat) (g : Int) : Nat := g.natAbs * q / 1000

/-- The channels whose flow is shared: all but GRIP (R68 step 2). -/
def sharedChannels : List Channel := [.reach, .lift, .divert, .packA, .packB]

/-- A sum over the channels whose flow is shared. -/
def sumShared (f : Channel → Nat) : Nat := (sharedChannels.map f).foldl (· + ·) 0

/-- A shared command at scale `k`: g × k / 1,024, truncated toward zero (R68 step 4). -/
def scaled (k : Nat) (g : Int) : Int := truncDiv (g * k) 1024

/-- The trim: the scale is lowered by 1 while the scaled demands exceed the budget (R68 step 5). -/
def trimScale (q : Channel → Nat) (g : Channel → Int) (budget : Nat) : Nat → Nat
  | 0 => 0
  | k + 1 =>
    if budget < sumShared (fun c => demandOf (q c) (scaled (k + 1) (g c))) then trimScale q g budget k else k + 1

/-- The sharing computation on gated commands `g` with ratings `q` and available flow `qa` (R68). -/
def shareFlow (qa : Nat) (q : Channel → Nat) (g : Channel → Int) : Sharing :=
  let demand := fun c => demandOf (q c) (g c)
  let budget := qa - demand .grip
  let total := sumShared demand
  let scale := if total ≤ budget then none else some (trimScale q g budget (budget * 1024 / total))
  { chans := Six.make fun c =>
      { gated := g c, demand := demand c,
        shared := match scale, c with
          | none, _ | _, .grip => g c
          | some k, _ => scaled k (g c) }
    budget := budget, total := total, scale := scale }

/-! ## Duty (R69) and its way to the output (R65) -/

/-- A coil's calibration word (R69, R195). -/
def coilWord (m : Words) (c : Channel) (d : Side) : Word32 := readWord m .coils (coilNumber c d)

/-- The duty of a driven coil: dmin + (dmax − dmin) × |u'| / 1,000, truncated (R69). -/
def dutyOf (w : Word32) (u : Nat) : Nat :=
  let dmin := (w.extractLsb' 0 16).toNat
  let dmax := (w.extractLsb' 16 16).toNat
  (dmin + truncDiv (((dmax : Int) - dmin) * u) 1000).toNat

/-- The duties computed of a channel's coils from its shared command (R69). -/
def coilDuties (m : Words) (c : Channel) (u : Int) : Two Nat :=
  { a := if 0 < u then dutyOf (coilWord m c .a) u.natAbs else 0,
    b := if u < 0 then dutyOf (coilWord m c .b) u.natAbs else 0 }

/-- A new duty computed: 0 reaches the output at once, a duty above 0 at the coil's next period start (R65). -/
def Coil.compute (x : Coil) (duty : Nat) : Coil := if duty = 0 then Coil.reset else { x with computed := duty }

/-- Both coils of a channel with new duties computed. -/
def computeCoils (x : Two Coil) (duty : Two Nat) : Two Coil := ⟨x.a.compute duty.a, x.b.compute duty.b⟩

/-- Either coil of a channel has a duty computed above 0. -/
def anyDuty (x : Two Coil) : Bool := decide (0 < x.a.computed) || decide (0 < x.b.computed)

/-- The Valve Drive with the sharing computation made afresh from gated commands `g` (R65, R68, R69). A STOPPED timer
starts when a coil of its group has a duty above 0. -/
def Drive.share (x : Drive) (m : Words) (g : Channel → Int) : Drive :=
  let sharing := shareFlow x.qa (qmax m) g
  let coils := Six.make fun c => computeCoils (x.coils.get c) (coilDuties m c (sharing.chans.get c).shared)
  { x with
    sharing := sharing, coils := coils,
    timer0 := x.timer0 || anyDuty coils.reach || anyDuty coils.lift || anyDuty coils.grip,
    timer1 := x.timer1 || anyDuty coils.divert || anyDuty coils.packA || anyDuty coils.packB }

/-- The sharing computation on the present state (R67, log 40). -/
def State.refresh (s : State) : State := s.setDrive (s.drive.share s.tables s.gated)

/-! ## Coils (R64, R65, R70) -/

/-- A group's timer is RUNNING (R65). -/
def Drive.timerOf (x : Drive) (c : Channel) : Bool := if c.inGroup0 then x.timer0 else x.timer1

/-- The state with one coil's record replaced. -/
def State.setCoil (s : State) (c : Channel) (d : Side) (x : Coil) : State :=
  s.setDrive { s.drive with coils := s.drive.coils.put c ((s.drive.coils.get c).putSide d x) }

/-- A coil's record. -/
def State.coil (s : State) (c : Channel) (d : Side) : Coil := (s.drive.coils.get c).side d

/-- The mean current below which a coil at a duty in force has an OPEN fault: a tenth of 3,000 × duty / 1,000, each
truncated (R70). -/
def openThreshold (duty : Nat) : Nat := Config.ratedCurrent * duty / 1000 / 10

/-- The OPEN test at the end of a period of the coil (R70). -/
def Coil.isOpen (x : Coil) (meanCurrent : Nat) : Bool :=
  decide (100 ≤ x.inForce) && decide (meanCurrent < openThreshold x.inForce)

/-- A coil's period start: the duty computed becomes the duty in force, and the output is driven while it is above 0
(R65). -/
def Coil.begin (x : Coil) : Coil := { x with inForce := x.computed, driven := decide (0 < x.computed) }

/-- A group's period in µs (R65, R195). -/
def groupPeriod (m : Words) (group : Nat) : Nat := ((readWord m .periods group).extractLsb' 0 16).toNat

/-- When coil position `k` begins its period after the group's, in µs (R65). -/
def coilDelay (k period : Nat) : Nat := k * period / 6

/-- A coil's on-time in µs (R65). -/
def onTime (duty period : Nat) : Nat := duty * period / 1000

/-- The latch of a channel set, and both its coils off (R71 step 1). -/
def State.setLatch (s : State) (c : Channel) (l : Latch) : State :=
  s.setDrive { s.drive with
    latches := s.drive.latches.put c (some l), coils := s.drive.coils.put c ⟨Coil.reset, Coil.reset⟩ }

/-- The latch of a channel cleared (R72). -/
def State.clearLatch (s : State) (c : Channel) : State :=
  s.setDrive { s.drive with latches := s.drive.latches.put c none }

/-- Both timers STOPPED at the completion of a shadow load, with the periods just loaded; a load that finds a mismatch
leaves none (R55, R65, log 42). -/
def State.stopTimers (s : State) (loaded : Option Words) : State :=
  s.setDrive { s.drive with
    timer0 := false, timer1 := false, period0 := loaded.map fun m => groupPeriod m 0,
    period1 := loaded.map fun m => groupPeriod m 1 }

/-- Section DRIVE of STATUS_GET (R74); before the settings are read its flow rests on the default ones (log 43). -/
def State.driveStatus (s : State) : DriveStatus :=
  let x := s.drive
  { qa := x.qa, rpm := x.rpm, usingIdle := x.usingIdle, budget := x.sharing.budget, total := x.sharing.total,
    scale := x.sharing.scale,
    chans := Six.make fun c => if s.hasChannel c then some (x.sharing.chans.get c) else none,
    coils := Six.make fun c => if s.hasChannel c then some (x.coils.get c) else none,
    timer0 := x.timer0, timer1 := x.timer1, period0 := x.period0, period1 := x.period1,
    latches := x.latches }

end Sys2Proof.Machine
end

