-- ==== Sys2Proof/Machine/Lock.lean ====
section
/-! DEFINITION. The Metrology Lock's shared operations: trial flag, legal status, health attributes and the stored items
that a metrology write touches (R100 to R118). -/

namespace Sys2Proof.Machine

/-- The trial flag: the working set differs from the reference set in some parameter (R100). -/
def Lock.trial (x : Lock) : Bool := x.working != x.reference

/-- The conditions of the legal status (R117). -/
def State.legalParts (s : State) : LegalParts :=
  { lockClosed := s.lock.state != .opened,
    calValid := s.lock.cal == .valid,
    shadowMatches := s.shadow.state == .ready && s.shadow.check.isSome && s.shadow.check == s.lock.lockedCheck,
    zeroUncrossed := !s.lock.zero.crossed }

/-- The legal status as it stands (R117). -/
def State.legal (s : State) : LegalStatus :=
  let p := s.legalParts
  if p.lockClosed && p.calValid && p.shadowMatches && p.zeroUncrossed then .legal else .notLegal

/-- The zero range of a Max: Max × 4 / 100, truncated (R87). -/
def zeroRange (max : Int) : Int := truncDiv (max * 4) 100

/-- A tracked zero bounded to the zero range, with its sign (R88). -/
def boundZero (max zt : Int) : Int := clampTo (-(zeroRange max)) (zeroRange max) zt

/-! ## Health attributes (R113 to R115) -/

/-- The outcomes of a ZERO capture (R87). -/
inductive ZeroOutcome where
  | inBand
  | blocked
  | outOfBand
  deriving DecidableEq, Repr

/-- ZERO_HEALTH at a zero outcome; `zt` is Zt as it stands then and `r` the residual (R113). -/
def ZeroHealth.take (z : ZeroHealth) (o : ZeroOutcome) (zt r : Int) : ZeroHealth :=
  match o with
  | .inBand => { z with count := 0, point := some zt }
  | .blocked => { z with crossed := true, point := some (zt + r) }
  | .outOfBand =>
    let n := raiseSat 255 z.count
    { count := n, crossed := z.crossed || decide (Config.zeroHealthThreshold ≤ n), point := some (zt + r) }

/-- The outcome list with one more outcome; at 32 entries the oldest is dropped (R114). -/
def appendOutcome (l : List WindowOutcome) (o : WindowOutcome) : List WindowOutcome :=
  (if l.length < Config.outcomeCapacity then l else l.drop 1) ++ [o]

/-- UNSTABLE_RATE's value: the UNSTABLE entries of the list (R114). -/
def unstableRate (l : List WindowOutcome) : Nat := l.countP (· == .unstable)

/-- UNSTABLE_RATE is crossed (R114). -/
def Lock.unstableCrossed (x : Lock) : Bool := decide (Config.unstableThreshold ≤ unstableRate x.outcomes)

/-- CELL_BALANCE's value from the cell means (R115). -/
def balanceOf (mA mB : Int) : Nat :=
  if 0 < mA + mB then (100 * (mA - mB).natAbs) / (mA + mB).toNat else 100

/-- CELL_BALANCE is crossed (R115). -/
def Lock.balanceCrossed (x : Lock) : Bool :=
  match x.balance with
  | some v => decide (Config.balanceThreshold ≤ v)
  | none => false

/-- An advisory attribute stands crossed (R91, R114, R115). -/
def Lock.advisory (x : Lock) : Bool := x.unstableCrossed || x.balanceCrossed

/-! ## Refusals and stored items (R102, R109) -/

/-- The answer of a request that is taken only while the lock is OPEN: LOCKED or FROZEN otherwise (R102). -/
def lockRefusal : LockState → Option Code
  | .locked => some .locked
  | .frozen => some .frozen
  | .opened => none

/-- The stored block with its check erased, the first stage of a write of it (R109). -/
def Lock.eraseBlockCheck (x : Lock) : Lock := { x with block := { x.block with check := none } }

/-- The code record with its check erased, the first stage of a write of it (R109). -/
def Lock.eraseCodeCheck (x : Lock) : Lock := { x with codeRecord := { x.codeRecord with checkGood := false } }

/-- A record item filled from the nine parameters and PROFILE_CHECK: the changed-parameter mask (R108). -/
def changedMask (x : Lock) (check : Option Word32) : Word32 :=
  BitVec.ofNat 32 (x.reference.changed x.working + if check = x.lockedCheck then 0 else 512)

/-- The kind of the metrology write in flight, as STATUS_GET names it (R118). -/
def MetroWrite.kind : MetroWrite → WriteKind
  | .commit .. | .counter => .commit
  | .verify => .verify
  | .maker _ => .maker
  | .code .. => .code

/-- An item that the start-up reading gives: not yet known, so absent, until the reading is done (R101, R189, log 43). -/
def Lock.known {α : Type} (x : Lock) (v : α) : Option α := if x.reading then none else some v

/-- Section LOCK of STATUS_GET (R118). -/
def State.lockStatus (s : State) : LockStatus :=
  let x := s.lock
  { state := x.state, failed := x.failed, cal := x.known x.cal, cec := x.known x.cec, trial := x.trial,
    working := x.known x.working, lockedCheck := if x.reading then none else x.lockedCheck, level := x.known x.level,
    codePresent := x.known x.code.isSome, write := x.write.map MetroWrite.kind, legal := x.known s.legal,
    zeroCrossed := x.zero.crossed, unstableCrossed := x.unstableCrossed, balanceCrossed := x.balanceCrossed }

/-- ATTR_READ's items (R118). -/
def State.attrData (s : State) : AttrData :=
  let x := s.lock
  { zero := x.zero, unstableRate := unstableRate x.outcomes, outcomes := x.outcomes, balance := x.balance,
    balanceCrossed := x.balanceCrossed, legal := s.legal, parts := s.legalParts }

end Sys2Proof.Machine
end

