-- ==== Sys2Proof/Machine/Interlock.lean ====
section
/-! DEFINITION. The Interlocks' shared operations: PAYLOAD, the travel snapshot and the stow alarm (R172 to R181). -/

namespace Sys2Proof.Machine

/-- PAYLOAD with the values as they stand: totals and statuses absent while STARTING, those of B on a SINGLE body (R179). -/
def State.payloadMsg (s : State) : PayloadMsg :=
  let known := !s.journal.starting
  let b := known && s.hasComp .b
  { totalA := if known then some s.comps.a.total else none,
    totalB := if b then some s.comps.b.total else none,
    statusA := if known then some s.comps.a.status else none,
    statusB := if b then some s.comps.b.status else none,
    alarm := s.inter.alarm }

/-- PAYLOAD sent, which restarts the payload timer (R179). -/
def State.emitPayload (s : State) : State :=
  let t := s.sendPayload s.payloadMsg
  t.setInter { t.inter with payloadTimer := Config.payloadMs }

/-- The levels that a snapshot latches, or their present values: those of the flaps stand as 0 on a SINGLE body, where
they are not latched (R178, R197). -/
def State.watchedLevels (s : State) : Levels :=
  let l := s.pins.levels
  match s.variant with
  | .split => l
  | .single => { l with flapAtA := false, flapAtB := false }

/-- The stow alarm RAISED: from CLEAR the alert is sent and the alarm handed to PAYLOAD (R178, R179). -/
def State.raiseAlarm (s : State) : State :=
  match s.inter.snapshot with
  | none => s
  | some latched =>
    if s.inter.alarm then s
    else ((s.setInter { s.inter with alarm := true }).alert (.stowAlarm latched s.watchedLevels)).emitPayload

/-- The travel snapshot taken when the speed state is OVER, the cycle IDLE and none is held; an arm that is not stowed
raises the alarm at once (R178). -/
def State.testSnapshot (s : State) : State :=
  if s.inter.speedOver && s.lcc.phase == .idle && s.inter.snapshot.isNone then
    let t := s.setInter { s.inter with snapshot := some s.watchedLevels }
    if s.pins.levels.armStowed then t else t.raiseAlarm
  else s

/-- The snapshot and the alarm cleared; a change of the alarm is handed to PAYLOAD (R178, R179). -/
def State.clearSnapshot (s : State) : State :=
  let t := s.setInter { s.inter with snapshot := none, alarm := false }
  if s.inter.alarm then t.emitPayload else t

/-- A watched input's level. -/
def Levels.level (l : Levels) : WatchedInput → Bool
  | .armStowed => l.armStowed
  | .gripOpen => l.gripOpen
  | .flapAtA => l.flapAtA
  | .flapAtB => l.flapAtB

/-- The levels with one input's replaced. -/
def Levels.putLevel (l : Levels) (w : WatchedInput) (v : Bool) : Levels :=
  match w with
  | .armStowed => { l with armStowed := v }
  | .gripOpen => { l with gripOpen := v }
  | .flapAtA => { l with flapAtA := v }
  | .flapAtB => { l with flapAtB := v }

/-- The inputs that a snapshot latches (R178). -/
def State.latches (s : State) : WatchedInput → Bool
  | .armStowed | .gripOpen => true
  | .flapAtA | .flapAtB => s.variant == .split

/-- The truck stands still: the chassis is PRESENT and its last reported speed is 0 (R174). -/
def State.stationary (s : State) : Bool := s.inter.present && s.inter.report.speed == some 0

/-- The speed state is OVER: the chassis SILENT, the speed unknown, or above the limit stored with the report (R176). -/
def Interlocks.isOver (x : Interlocks) : Bool :=
  match x.present, x.report.speed, x.report.limit with
  | true, some v, some l => decide (l < v)
  | _, _, _ => true

/-- The time of a record: the seconds counter (R180). -/
def State.recordTime (s : State) : Nat := s.inter.seconds

/-- Section INTERLOCKS of STATUS_GET (R181). The time left to the permit's deadline is free up to the period it was
started with (log 4). -/
def State.interlockStatus (s : State) : InterlockStatus :=
  let x := s.inter
  { permitHeld := x.permitHeld,
    timeLeft := if x.permitHeld then x.permitTimer.map fun p => Config.freeNat s.freeIx % (p + 1) else none,
    present := x.present, speed := x.report.speed, rpm := x.report.rpm, brakeOn := x.report.brakeOn,
    speedOver := x.speedOver, pto := x.pto, snapshot := x.snapshot, alarm := x.alarm, seconds := x.seconds,
    timeValid := x.timeValid }

end Sys2Proof.Machine
end

