-- ==== Sys2Proof/Machine/Journal.lean ====
section
/-! DEFINITION. The Lift Journal's shared operations: space, staging, record writes, reclaim and the start-up scan (R153 to
R171). -/

namespace Sys2Proof.Machine

/-! ## Slots and sectors (R153, R154) -/

/-- The patterns of a slot (R153). -/
inductive Pattern where
  | blank
  | valid
  | void
  | damaged
  deriving DecidableEq, Repr

/-- The pattern of a slot's content (R153). -/
def patternOf (x : SlotBits) : Pattern :=
  if x = blankSlot then .blank else if x = 0#512 then .void else if slotCheck x then .valid else .damaged

/-- The sector of a slot. -/
def sectorOf (slot : Nat) : Nat := slot / Config.slotsPerSector

/-- A sector's state and whether its content is disregarded. -/
def Journal.sector (j : Journal) (k : Nat) : Sector := j.sectors.getD k ⟨.blank, false⟩

/-- The journal with a sector replaced. -/
def Journal.setSector (j : Journal) (k : Nat) (x : Sector) : Journal := { j with sectors := j.sectors.set k x }

/-- The records of a sector are retained: it is ACTIVE, FULL or RECLAIMABLE, and its content stands (R154, R168). -/
def Sector.retained (x : Sector) : Bool :=
  match x.state with
  | .active | .full | .reclaimable => !x.disregarded
  | .blank | .erasing => false

/-- The retained records: slot, sequence number and content (R154). -/
def Journal.records (j : Journal) : List (Nat × SlotBits) :=
  j.slots.filter fun e => (j.sector (sectorOf e.1)).retained && patternOf e.2 == .valid

/-- The least number of a list. -/
def leastOf : List Nat → Option Nat
  | [] => none
  | n :: r => some (r.foldl min n)

/-- The greatest number of a list. -/
def greatestOf : List Nat → Option Nat
  | [] => none
  | n :: r => some (r.foldl max n)

/-- The lowest retained sequence number (R155). -/
def Journal.lowestRetained (j : Journal) : Option Nat := leastOf (j.records.map fun e => slotSeq e.2)

/-- The retained record of a sequence number: its slot and content. -/
def Journal.find (j : Journal) (seq : Nat) : Option (Nat × SlotBits) := j.records.find? fun e => slotSeq e.2 == seq

/-- The sector that holds the newest written record. -/
def Journal.newestSector (j : Journal) : Option Nat :=
  match j.newest with
  | none => none
  | some n => (j.find n).map fun e => sectorOf e.1

/-- The number of unreleased records (R164). -/
def Journal.unreleased (j : Journal) : Nat :=
  match j.newest with
  | none => 0
  | some n => n - j.mark

/-! ## Space (R157, R163) -/

/-- The journal can grant a reservation (R157). -/
def Journal.canGrant (j : Journal) : Bool :=
  decide (j.reserved + 1 ≤ j.free) && decide (j.reserved + j.queue.length < Config.queueCapacity)
    && decide (j.nextSeq + j.reserved ≤ maxCount32)

/-- free − reserved is at least 256 (R163). -/
def Journal.ample (j : Journal) : Bool := decide (j.reserved + Config.lowMargin ≤ j.free)

/-- The low flag set, with the alert, when free − reserved is below 256 and the flag is clear (R163). -/
def State.testLow (s : State) : State :=
  if s.journal.ample || s.journal.low then s
  else (s.setJournal { s.journal with low := true }).alert (.journalLow s.journal.free s.journal.reserved)

/-- The low flag cleared when free − reserved is 256 or more (R163). -/
def Journal.clearLow (j : Journal) : Journal := if j.ample then { j with low := false } else j

/-- A reservation granted (R157). -/
def State.grant (s : State) : State := (s.setJournal { s.journal with reserved := s.journal.reserved + 1 }).testLow

/-- A reservation returned (R157). -/
def State.returnReservation (s : State) : State :=
  s.setJournal (Journal.clearLow { s.journal with reserved := s.journal.reserved - 1 })

/-! ## Record writes (R160, R161) -/

/-- The sectors in ring order from the one after `k` (R153). -/
def ringAfter (k : Nat) : List Nat := (List.range Config.sectors).map fun i => (k + 1 + i) % Config.sectors

/-- The ACTIVE sector. -/
def Journal.activeSector (j : Journal) : Option Nat :=
  (List.range Config.sectors).find? fun k => (j.sector k).state == .active

/-- The lowest unwritten slot of a sector. -/
def Journal.lowestBlank (j : Journal) (k : Nat) : Option Nat :=
  ((List.range Config.slotsPerSector).map (k * Config.slotsPerSector + ·)).find? fun i => readSlot j.slots i == blankSlot

/-- The write frontier's sector: the ACTIVE one, or the first BLANK one in ring order (R160). -/
def Journal.frontierSector (j : Journal) : Option Nat :=
  match j.activeSector with
  | some k => some k
  | none => (ringAfter (j.newestSector.getD 31)).find? fun k => (j.sector k).state == .blank

/-- A record write started where one is due: it goes to the frontier, whose sector is ACTIVE from then on, and a running
erase is suspended (R160, R161). -/
def Journal.startWrite (j : Journal) : Journal :=
  match j.queue, j.writing with
  | _ :: _, none =>
    match j.frontierSector with
    | none => j
    | some k =>
      match j.lowestBlank k with
      | none => j
      | some i =>
        { j.setSector k ⟨.active, false⟩ with
          writing := some i, erase := j.erase.map fun e => { e with running := false } }
  | _, _ => j

/-- A record staged against a held reservation (R159): numbered, queued, counted, announced, and written when no write is
in flight. -/
def State.stage (s : State) (r : Record) : State :=
  let j := s.journal
  let r := { r with seq := j.nextSeq }
  (s.setJournal (Journal.startWrite { j with
    nextSeq := j.nextSeq + 1, queue := j.queue ++ [r], reserved := j.reserved - 1, free := j.free - 1 })).indicate
      (.record r.seq r.kind)

/-! ## Reclaim (R162) -/

/-- Every record in a sector is released (R162). -/
def Journal.allReleased (j : Journal) (k : Nat) : Bool :=
  j.slots.all fun e => !(sectorOf e.1 == k && patternOf e.2 == .valid) || decide (slotSeq e.2 ≤ j.mark)

/-- The test of one sector: FULL, all released and not holding the newest written record, it becomes RECLAIMABLE. -/
def Journal.testReclaim (j : Journal) (k : Nat) : Journal :=
  if (j.sector k).state == .full && j.allReleased k && j.newestSector != some k then
    j.setSector k ⟨.reclaimable, false⟩
  else j

/-- The test of every FULL sector. -/
def Journal.testAll (j : Journal) : Journal := (List.range Config.sectors).foldl Journal.testReclaim j

/-- The lowest sequence number that stands in a sector. -/
def Journal.lowestIn (j : Journal) (k : Nat) : Nat :=
  (leastOf ((j.records.filter fun e => sectorOf e.1 == k).map fun e => slotSeq e.2)).getD 0

/-- The RECLAIMABLE sector to erase next: a disregarded one first, the lowest-numbered of them, then the one holding the
lowest sequence numbers (R162, log 32). -/
def Journal.nextErase (j : Journal) : Option Nat :=
  let c := (List.range Config.sectors).filter fun k => (j.sector k).state == .reclaimable
  match c.find? fun k => (j.sector k).disregarded with
  | some k => some k
  | none =>
    match c with
    | [] => none
    | k :: r => some (r.foldl (fun a b => if j.lowestIn b < j.lowestIn a then b else a) k)

/-- An erase started when a sector is RECLAIMABLE and none is in flight; it is RUNNING when no write is in flight and the
queue is empty (R161, R162). -/
def Journal.startErase (j : Journal) : Journal :=
  match j.erase, j.nextErase with
  | none, some k =>
    let t := { j.setSector k ⟨.erasing, false⟩ with
      note := some k, erase := some ⟨k, j.writing.isNone && j.queue.isEmpty⟩ }
    { t with oldest := t.lowestRetained }
  | _, _ => j

/-- The completion of a record write (R160). -/
def Journal.finishWrite (j : Journal) : Journal :=
  match j.writing, j.queue with
  | some i, r :: rest =>
    let before := j.newestSector
    let k := sectorOf i
    let j := { j with
      slots := writeCell erasedSlot j.slots i r.bits, writing := none, queue := rest,
      newest := some r.seq, oldest := some (j.oldest.getD r.seq) }
    let j := if i % Config.slotsPerSector = 127 then j.setSector k ⟨.full, false⟩ else j
    let j := match before with
      | some b => if b = k then j else j.testReclaim b
      | none => j
    let j := if rest.isEmpty then { j with erase := j.erase.map fun e => { e with running := true } } else j.startWrite
    j.startErase
  | _, _ => j

/-- The completion of an erase that is RUNNING (R162). -/
def Journal.finishErase (j : Journal) : Journal :=
  match j.erase with
  | some ⟨k, true⟩ =>
    let lo := k * Config.slotsPerSector
    let t := { j.setSector k ⟨.blank, false⟩ with
      slots := eraseRange lo (lo + Config.slotsPerSector) j.slots, note := none,
      free := j.free + Config.slotsPerSector, erase := none }
    t.clearLow.startErase
  | _ => j

/-! ## The release mark (R164, R165) -/

/-- The cell that does not hold the present mark (R164); the first while neither is known to (log 38). -/
def Journal.markTarget (j : Journal) : Side :=
  match j.holder with
  | none => .a
  | some d => d.other

/-- A release write started: the check of its cell stands no longer (R164, log 15). -/
def Journal.startRelease (j : Journal) (w : ReleaseWrite) : Journal :=
  { j with release := some w, cells := j.cells.putSide j.markTarget ⟨w.value, false⟩ }

/-- The completion of a release write: the mark raised and every FULL sector tested (R165). -/
def Journal.finishRelease (j : Journal) (w : ReleaseWrite) : Journal :=
  (Journal.testAll { j with
    release := none, mark := w.value, holder := some j.markTarget,
    cells := j.cells.putSide j.markTarget ⟨w.value, true⟩ }).startErase

/-- The mark that the cells give, and the cell that holds it (R164). -/
def markOf (cells : Two MarkCell) : Nat × Option Side :=
  match cells.a.checkGood, cells.b.checkGood with
  | true, true => if cells.a.value < cells.b.value then (cells.b.value, some .b) else (cells.a.value, some .a)
  | true, false => (cells.a.value, some .a)
  | false, true => (cells.b.value, some .b)
  | false, false => (0, none)

/-- The cell that holds a mark. Where the scan has lowered the mark and neither holds it, the model's own choice is the cell
that gave the mark, so that the next write goes to the other (R164, log 38). -/
def holderOf (cells : Two MarkCell) (mark : Nat) : Option Side :=
  if cells.a.checkGood ∧ cells.a.value = mark then some .a
  else if cells.b.checkGood ∧ cells.b.value = mark then some .b
  else (markOf cells).2

/-! ## The start-up scan (R168, R169) -/

/-- The classes of a sector (R168). -/
inductive SectorClass where
  | interrupted
  | blank
  | wellFormed
  | malformed
  deriving DecidableEq, Repr

/-- The patterns of a sector's slots. -/
def Journal.patterns (j : Journal) (k : Nat) : List Pattern :=
  (List.range Config.slotsPerSector).map fun i => patternOf (readSlot j.slots (k * Config.slotsPerSector + i))

/-- VALID or VOID slots, then at most one DAMAGED slot, then BLANK slots (R168). -/
def wellFormed : List Pattern → Bool
  | .valid :: r | .void :: r => wellFormed r
  | .damaged :: r | .blank :: r => r.all (· == .blank)
  | [] => true

/-- A sector's class (R168). -/
def Journal.classOf (j : Journal) (k : Nat) : SectorClass :=
  if j.note = some k then .interrupted
  else if j.slots.all fun e => sectorOf e.1 != k then .blank
  else
    let p := j.patterns k
    if p.all (· == .blank) then .blank else if wellFormed p then .wellFormed else .malformed

/-- The records that the scan reads: those of well-formed and malformed sectors. -/
def Journal.scanned (j : Journal) : List (Nat × SlotBits) :=
  j.slots.filter fun e => j.note != some (sectorOf e.1) && patternOf e.2 == .valid

/-- A sector that the walk may start in afresh: BLANK, or well formed with no VALID slot (R169). -/
def Journal.walkable (j : Journal) (k : Nat) : Bool :=
  match j.classOf k with
  | .blank => true
  | .wellFormed => (j.patterns k).all (· != .valid)
  | .interrupted | .malformed => false

/-- Where the walk starts: a sector and a slot in it (R169). -/
def Journal.walkStart (j : Journal) : Option (Nat × Nat) :=
  let newest := greatestOf (j.scanned.map fun e => slotSeq e.2)
  let at0 := fun after => ((ringAfter after).find? j.walkable).map fun k => (k, 0)
  match newest with
  | none => at0 31
  | some n =>
    match j.scanned.find? fun e => slotSeq e.2 == n with
    | none => at0 31
    | some e =>
      if e.1 % Config.slotsPerSector = 127 then at0 (sectorOf e.1)
      else some (sectorOf e.1, e.1 % Config.slotsPerSector + 1)

/-- The walk through the patterns from slot `i`: the slots it voids, and the BLANK slot it stops at (R169). In a malformed
sector no slot counts as unwritten (log 31). -/
def walk (unwritten : Bool) : Nat → List Pattern → List Nat × Option Nat
  | _, [] => ([], none)
  | i, .blank :: r => if unwritten then ([], some i) else walk unwritten (i + 1) r
  | i, .damaged :: r => (i :: (walk unwritten (i + 1) r).1, (walk unwritten (i + 1) r).2)
  | i, _ :: r => walk unwritten (i + 1) r

/-- What the walk finds: the sector walked, the slots to void, the frontier. -/
def Journal.walked (j : Journal) : Option (Nat × List Nat × Option Nat) :=
  j.walkStart.map fun p => (p.1, walk (j.classOf p.1 != .malformed) p.2 ((j.patterns p.1).drop p.2))

/-- A sector's state after the scan, before the reclaim test (R168, R169). -/
def Journal.scannedSector (j : Journal) (w : Option (Nat × List Nat × Option Nat)) (k : Nat) : Sector :=
  let active := match w with
    | some (k', _, some _) => k == k'
    | _ => false
  match j.classOf k with
  | .interrupted => ⟨.reclaimable, true⟩
  | .blank => if active then ⟨.active, false⟩ else ⟨.blank, false⟩
  | .wellFormed => if active then ⟨.active, false⟩ else ⟨.full, false⟩
  | .malformed => ⟨.full, false⟩

/-- Free slots by R157: unwritten slots of the ACTIVE sector, 128 for each BLANK one, less the queue. -/
def Journal.countFree (j : Journal) : Nat :=
  let blank := ((List.range Config.sectors).filter fun k => (j.sector k).state == .blank).length
  let active := match j.activeSector with
    | none => 0
    | some k => (j.patterns k).countP (· == .blank)
  active + Config.slotsPerSector * blank - j.queue.length

/-- The slots with the torn records voided (R169). -/
def Journal.voided (j : Journal) : Slots :=
  match j.walked with
  | none => j.slots
  | some (k, vs, _) =>
    vs.foldl (fun m i => writeCell erasedSlot m (k * Config.slotsPerSector + i) 0#512) j.slots

/-- The start-up scan's end, up to the erases that follow it (R164, R168, R169). -/
def Journal.scan (j : Journal) : Journal :=
  let newest := greatestOf (j.scanned.map fun e => slotSeq e.2)
  let cell := markOf j.cells
  let mark := match newest with
    | none => cell.1
    | some n => min cell.1 n
  let t := { j with
    starting := false, slots := j.voided, sectors := (List.range Config.sectors).map (j.scannedSector j.walked),
    newest := newest, nextSeq := newest.getD mark + 1, mark := mark, holder := holderOf j.cells mark, note := none,
    reserved := 0, queue := [], writing := none, erase := none, release := none, low := false }
  let t := { t with oldest := t.lowestRetained, free := t.countFree }
  t.testAll

/-- The newest written record's content. -/
def Journal.newestRecord (j : Journal) : Option SlotBits :=
  match j.newest with
  | none => none
  | some n => (j.find n).map Prod.snd

/-- The counts of section JOURNAL (R171). The next sequence is given as it stands, past the last number too (log 53). -/
def Journal.counts (j : Journal) : JournalCounts :=
  { newest := j.newest, oldest := j.oldest, nextSeq := j.nextSeq, mark := j.mark, unreleased := j.unreleased,
    free := j.free, reserved := j.reserved, queued := j.queue.length, low := j.low,
    writing := if j.writing.isSome then j.queue.head?.map Record.seq else none,
    releasing := j.release.isSome, erase := j.erase, sectors := j.sectors.map Sector.state }

end Sys2Proof.Machine
end

