-- ==== Sys2Proof/Machine/Weigh.lean ====
section
/-! DEFINITION. The Weigh Engine's shared operations: the sample path, windows, zero tracking and the parameters of a judgement
(R75 to R99). -/

namespace Sys2Proof.Machine

/-! ## The sample path (R77 to R79) -/

/-- A count at full scale (R77). -/
def fullScale (c : BitVec 24) : Bool := c.toInt == 8388607 || c.toInt == -8388608

/-- A cell's mass: (c − Z) × K / 65,536, rounded (R77). -/
def cellMass (c : BitVec 24) (z k : Int) : Int := roundDiv ((c.toInt - z) * k) 65536

/-- The tilt factor of a reading: the angles clamped to ±1,500, the two table entries multiplied (R76, R78). -/
def tiltOf (x : Reading) : Int :=
  roundDiv (tiltFactor (clampTo (-1500) 1500 x.pitch) * tiltFactor (clampTo (-1500) 1500 x.roll)) 65536

/-- The mass corrected for tilt (R78). -/
def correctTilt (m : Int) (x : Reading) : Int := roundDiv (m * tiltOf x) 65536

/-- The latest pair that counts within range make (R77 to R79). -/
def pairOf (p : Params) (x : Reading) (zt : Int) (cA cB : BitVec 24) : Pair :=
  if fullScale cA || fullScale cB then .overrange
  else
    let mA := cellMass cA p.zA p.kA
    let mB := cellMass cB p.zB p.kB
    .weighed mA mB (correctTilt (mA + mB) x - zt)

/-- The reading in force is beyond the tilt limit, as received (R84, R98). -/
def Reading.beyond (x : Reading) (limit : Int) : Bool :=
  decide (limit < x.pitch.natAbs) || decide (limit < x.roll.natAbs)

/-- A pair worked with this reading sets TILT (R84). -/
def Reading.tilted (x : Reading) (limit : Int) : Bool := x.beyond limit || !x.fresh

/-- The flags of a SETTLING window at a pair (R84, log 24). -/
def Window.flag (w : Window) (overrange tilt : Bool) : Window :=
  match w.capture with
  | none => { w with overrange := w.overrange || overrange, tilt := w.tilt || tilt }
  | some _ => w

/-! ## Blocks and captures (R80 to R83) -/

/-- The accumulator with one more pair (R80). -/
def Accumulator.add (x : Accumulator) (mA mB v : Int) : Accumulator :=
  { count := x.count + 1, sumV := x.sumV + v, sumA := x.sumA + mA, sumB := x.sumB + mB }

/-- The block means of eight pairs (R80). -/
def Accumulator.block (x : Accumulator) : Block := ⟨roundDiv x.sumV 8, roundDiv x.sumA 8, roundDiv x.sumB 8⟩

/-- A settle list with one more entry; at 16 the oldest is dropped (R82). -/
def appendSettle (l : List Block) (b : Block) : List Block :=
  (if l.length < Config.settleCapacity then l else l.drop 1) ++ [b]

/-- The greatest v mean less the smallest (R83). -/
def spreadOf : List Block → Int
  | [] => 0
  | b :: r => r.foldl (fun m x => max m x.v) b.v - r.foldl (fun m x => min m x.v) b.v

/-- The stability test (R83). -/
def settled (l : List Block) (p : Params) : Bool :=
  l.length == Config.settleCapacity && decide (spreadOf l ≤ p.band * p.d)

/-- A sum over the settle list. -/
def sumBlocks (f : Block → Int) (l : List Block) : Int := (l.map f).foldl (· + ·) 0

/-- The capture of a settle list (R83). -/
def captureOf (l : List Block) (x : Reading) (standing : LegalStatus) : Capture :=
  { value := roundDiv (sumBlocks Block.v l) 16,
    angles := if x.fresh then some (x.pitch, x.roll) else none,
    legal := standing, mA := roundDiv (sumBlocks Block.mA l) 16, mB := roundDiv (sumBlocks Block.mB l) 16 }

/-- The context's gross capture: the first one offered, and none once the path is ABORTED (R3, R11, R22). -/
def LiftCtx.offerGross (x : LiftCtx) (c : Capture) : LiftCtx :=
  if x.path = .aborted then x
  else match x.gross with
    | some _ => x
    | none => { x with gross := some ⟨c.value, c.angles, c.legal⟩ }

/-- The context's tare capture: the first one offered, and none once the path is ABORTED (R3, R11, R22). -/
def LiftCtx.offerTare (x : LiftCtx) (c : Capture) : LiftCtx :=
  if x.path = .aborted then x
  else match x.tare with
    | some _ => x
    | none => { x with tare := some ⟨c.value, c.legal⟩ }

/-- Zero tracking's outcome for a residual (R87). -/
def zeroOutcome (p : Params) (zt r : Int) : ZeroOutcome :=
  if (r.natAbs : Int) ≤ p.d / 2 then
    if ((zt + r).natAbs : Int) ≤ zeroRange p.max then .inBand else .blocked
  else .outOfBand

/-- A ZERO capture handed to zero tracking: discarded in a flagged window, else Zt, the last residual and ZERO_HEALTH follow
(R87, R113). -/
def State.takeZero (s : State) (w : Window) (r : Int) : State :=
  if w.overrange || w.tilt then s
  else
    let o := zeroOutcome s.lock.working s.weigh.zt r
    let zt := if o = .inBand then s.weigh.zt + r else s.weigh.zt
    (s.setWeigh { s.weigh with zt := zt, residual := some r }).setLock
      { s.lock with zero := s.lock.zero.take o zt r }

/-- A capture handed on by its window's kind (R83, R97). -/
def State.handCapture (s : State) (w : Window) (c : Capture) : State :=
  match w.kind with
  | .zero => s.takeZero w c.value
  | .gross =>
    (s.mapCtx fun x => x.offerGross c).setLock { s.lock with balance := some (balanceOf c.mA c.mB) }
  | .tare => s.mapCtx fun x => x.offerTare c

/-- A block arrival: the latest block, and where the open window is SETTLING and the hold clear an entry of the settle list,
which may fix the capture (R80, R82, R83). -/
def State.blockArrival (s : State) (b : Block) : State :=
  let x := { s.weigh with latestBlock := some b }
  match x.window with
  | some w =>
    if w.capture.isNone && !x.hold then
      let l := appendSettle x.settle b
      if settled l s.lock.working then
        let c := captureOf l x.reading s.legal
        (s.setWeigh { x with settle := l, window := some { w with capture := some c } }).handCapture w c
      else s.setWeigh { x with settle := l }
    else s.setWeigh x
  | none => s.setWeigh x

/-- An OVERRANGE pair: the block abandoned, the settle list emptied, a SETTLING window flagged (R77, R84). -/
def Weigh.overrangePair (x : Weigh) (tilt : Bool) : Weigh :=
  { x with acc := Accumulator.cleared, settle := [], latestPair := some .overrange,
           window := x.window.map fun w => w.flag true tilt }

/-- A pair within range joins the accumulator, and a SETTLING window gathers TILT from it (R79, R80, R84). -/
def Weigh.weighedPair (x : Weigh) (mA mB v : Int) (tilt : Bool) : Weigh :=
  { x with acc := x.acc.add mA mB v, latestPair := some (.weighed mA mB v),
           window := x.window.map fun w => w.flag false tilt }

/-- A sample pair worked through the stages, while the engine is ENABLED (R77 to R84, R95). -/
def State.workPair (s : State) (cA cB : BitVec 24) : State :=
  let tilt := s.weigh.reading.tilted s.lock.working.tilt
  match pairOf s.lock.working s.weigh.reading s.weigh.zt cA cB with
  | .overrange => s.setWeigh (s.weigh.overrangePair tilt)
  | .weighed mA mB v =>
    let x := s.weigh.weighedPair mA mB v tilt
    if x.acc.count < 8 then s.setWeigh x
    else (s.setWeigh { x with acc := Accumulator.cleared }).blockArrival x.acc.block

/-! ## Windows (R81, R85, R86, R95) -/

/-- The window record at its opening (R81). -/
def Window.fresh (k : WindowKind) : Window := { kind := k, overrange := false, tilt := false, capture := none }

/-- An OPEN mark taken while ENABLED (R81); the new window clears the hold (R86). -/
def Weigh.openWindow (x : Weigh) (k : WindowKind) : Weigh :=
  { x with window := some (Window.fresh k), settle := [], acc := Accumulator.cleared, hold := false }

/-- An OPEN mark taken while DISABLED: no window, and the context is told of a GROSS or TARE (R95). -/
def LiftCtx.openedDisabled (x : LiftCtx) : WindowKind → LiftCtx
  | .zero => x
  | .gross => { x with grossDisabled := true }
  | .tare => { x with tareDisabled := true }

/-- An OPEN mark's effect once taken (R81, R95). -/
def State.openWindow (s : State) (k : WindowKind) : State :=
  if s.weigh.enabled then s.setWeigh (s.weigh.openWindow k) else s.mapCtx fun x => x.openedDisabled k

/-- What any closing leaves: no window, an empty settle list, the hold clear (R85). -/
def Weigh.closed (x : Weigh) : Weigh := { x with window := none, settle := [], hold := false }

/-- The flags a window hands to the context, UNSTABLE added while it is SETTLING (R85). -/
def Window.flags (w : Window) : WindowFlags := ⟨w.overrange, w.tilt, w.capture.isNone⟩

/-- Flags added to those of the context (R11). -/
def WindowFlags.add (x y : WindowFlags) : WindowFlags :=
  ⟨x.overrange || y.overrange, x.tilt || y.tilt, x.unstable || y.unstable⟩

/-- An outcome appended to UNSTABLE_RATE's list (R114). -/
def State.noteOutcome (s : State) (o : WindowOutcome) : State :=
  s.setLock { s.lock with outcomes := appendOutcome s.lock.outcomes o }

/-- The outcome of a window's closing (R85). -/
def Window.outcome (w : Window) : WindowOutcome := if w.capture.isNone then .unstable else .captured

/-- The open window closed with its outcome handed on: a CLOSE mark, or the end of a phase (R85). -/
def State.closeWindow (s : State) : State :=
  match s.weigh.window with
  | none => s
  | some w =>
    let t := s.setWeigh s.weigh.closed
    match w.kind with
    | .zero => t
    | .gross => (t.mapCtx fun x => { x with grossFlags := x.grossFlags.add w.flags }).noteOutcome w.outcome
    | .tare => (t.mapCtx fun x => { x with tareFlags := x.tareFlags.add w.flags }).noteOutcome w.outcome

/-- The close at ABORT and on entry to STUCK: nothing is handed on, and the hold is cleared (R85, R86, log 23). -/
def State.dropWindow (s : State) : State := s.setWeigh s.weigh.closed

/-- The LCC's halt request; a second one while the hold is set changes nothing (R86). -/
def State.weighHalt (s : State) : State :=
  if s.weigh.hold then s else s.setWeigh { s.weigh with settle := [], acc := Accumulator.cleared, hold := true }

/-- The LCC's resume request (R86). -/
def State.weighResume (s : State) : State :=
  s.setWeigh { s.weigh with settle := [], acc := Accumulator.cleared, hold := false }

/-- The engine on becoming ENABLED (R96). -/
def Weigh.enable (x : Weigh) : Weigh :=
  { x with enabled := true, window := none, settle := [], hold := false, acc := Accumulator.cleared }

/-- The engine becomes ENABLED when the calibration state is not INVALID and the cycle is IDLE (R96). -/
def State.testEnable (s : State) : State :=
  if !s.weigh.enabled && s.lock.cal != .invalid && s.lcc.phase == .idle && !s.lock.reading then s.setWeigh s.weigh.enable
  else s

/-- A GROSS or TARE window is open (R18). -/
def Weigh.billedWindowOpen (x : Weigh) : Bool :=
  match x.window with
  | some w => w.kind != .zero
  | none => false

/-! ## Rounding (R89) -/

/-- R(x): the multiple of the division nearest to x, halves away from zero (R89). -/
def roundTo (d x : Int) : Int := d * roundDiv x d

/-! ## What masters see (R98, R99) -/

/-- LIVE_WEIGHT's items (R98). R98 does not list the weight items that are absent while DISABLED; the model's own choice is
all but the engine state, the reading with its tilt test and the window hold (log 45). -/
def State.liveWeight (s : State) : LiveWeight :=
  let x := s.weigh
  let p := s.lock.working
  { enabled := x.enabled,
    pair := if x.enabled then x.latestPair else none,
    blockV := if x.enabled then x.latestBlock.map Block.v else none,
    reading := x.reading, beyondTilt := x.reading.beyond p.tilt,
    zt := if x.enabled then some x.zt else none,
    residual := if x.enabled then x.residual else none,
    window := if x.enabled then x.window.map fun w => (w.kind, w.capture.isSome, w.overrange, w.tilt) else none,
    entries := if x.enabled then some x.settle.length else none,
    spread := if x.enabled && x.settle.length == Config.settleCapacity then some (spreadOf x.settle) else none,
    hold := x.hold }

/-- Section WEIGH of STATUS_GET (R99), with the entries that R82 lets it read. -/
def State.weighStatus (s : State) : WeighStatus :=
  let x := s.weigh
  { enabled := x.enabled, window := x.window, entries := x.settle.length, settle := x.settle, hold := x.hold,
    zt := x.zt, residual := x.residual }

end Sys2Proof.Machine
end

