-- ==== Sys2Proof/Machine/Flags.lean ====
section
/-! DEFINITION. The flags of a record (R194): the judgement of a lift (R90 to R94) and the cycle flags (R14). -/

namespace Sys2Proof.Machine

/-- The flags of a record, by their bits 0 to 16 (R194). -/
structure Flags where
  halted : Bool
  tagAmbiguous : Bool
  tableNotLoaded : Bool
  manualRecovery : Bool
  unstableGross : Bool
  unstableTare : Bool
  overrange : Bool
  tilt : Bool
  overMax : Bool
  negativeNet : Bool
  belowMin : Bool
  isNotLegal : Bool
  weighDisabled : Bool
  advisory : Bool
  repeated : Bool
  timeUnset : Bool
  haltedInWindow : Bool
  deriving DecidableEq, Repr

/-- No flag. -/
def Flags.none : Flags :=
  ⟨false, false, false, false, false, false, false, false, false, false, false, false, false, false, false, false, false⟩

/-- Bits from the least significant on, as a number. -/
def numberOf : List Bool → Nat
  | [] => 0
  | b :: r => b.toNat + 2 * numberOf r

/-- The flags as the record holds them (R194). -/
def Flags.word (f : Flags) : Word32 :=
  BitVec.ofNat 32 (numberOf
    [f.halted, f.tagAmbiguous, f.tableNotLoaded, f.manualRecovery, f.unstableGross, f.unstableTare, f.overrange, f.tilt,
     f.overMax, f.negativeNet, f.belowMin, f.isNotLegal, f.weighDisabled, f.advisory, f.repeated, f.timeUnset,
     f.haltedInWindow])

/-- The flags that keep a net from being billable by weight (R92). -/
def Flags.unbillable (f : Flags) : Bool :=
  f.unstableGross || f.unstableTare || f.overrange || f.tilt || f.overMax || f.negativeNet || f.belowMin || f.isNotLegal
    || f.haltedInWindow || f.weighDisabled

/-- The flags that a lift's context and the time state give to a record of any kind (R14). -/
def cycleFlags (x : LiftCtx) (timeValid : Bool) : Flags :=
  { Flags.none with
    halted := x.halted, tagAmbiguous := x.tagAmbiguous, tableNotLoaded := x.tableNotLoaded,
    manualRecovery := x.manualRecovery, timeUnset := !timeValid }

/-- The rounded gross of a context (R90, R94). -/
def grossOf (p : Params) (x : LiftCtx) : Option Int := x.gross.map fun c => roundTo p.d c.g

/-- The rounded tare of a context (R90, R94). -/
def tareOf (p : Params) (x : LiftCtx) : Option Int := x.tare.map fun c => roundTo p.d c.t

/-- The net: R(G − T), formed from the unrounded captures (R89, R90). -/
def netOf (p : Params) (x : LiftCtx) : Option Int :=
  match x.gross, x.tare with
  | some g, some t => some (roundTo p.d (g.g - t.t))
  | _, _ => none

/-- A condition on an optional value; an absent one meets none. -/
def meets (f : Int → Bool) : Option Int → Bool
  | some v => f v
  | none => false

/-- The judgement flags added to those of the cycle (R91); OVER_MAX stands for any gross that the record's field cannot hold
too (R194). -/
def judgeFlags (f : Flags) (p : Params) (advisory : Bool) (x : LiftCtx) : Flags :=
  { f with
    unstableGross := x.gross.isNone && !x.grossDisabled
    unstableTare := x.tare.isNone && !x.tareDisabled
    overrange := x.grossFlags.overrange || x.tareFlags.overrange
    tilt := x.grossFlags.tilt || x.tareFlags.tilt
    overMax := meets (fun g => decide (p.max < g) || !weightFits g) (grossOf p x)
    negativeNet := meets (fun n => decide (n < 0)) (netOf p x)
    belowMin := meets (fun n => decide (0 ≤ n) && decide (n < p.min * p.d)) (netOf p x)
    isNotLegal := (x.gross.map GrossCapture.legal == some .notLegal) || (x.tare.map TareCapture.legal == some .notLegal)
    haltedInWindow := x.haltedInWindow
    weighDisabled := x.grossDisabled || x.tareDisabled
    advisory := advisory }

/-- A net is billable by weight: present, and no flag of R92 set. -/
def billable (net : Option Int) (f : Flags) : Bool := net.isSome && !f.unbillable

/-- The payload contribution of a LIFT record: its net when above 0, otherwise 0 (R93). -/
def contribution : Option Int → Nat
  | some n => n.toNat
  | none => 0

end Sys2Proof.Machine
end

