-- ==== Sys2Proof/Machine/House.lean ====
section
/-! DEFINITION. The Tag Window's and the Household Table's shared operations (R119 to R135). -/

namespace Sys2Proof.Machine

/-! ## The tag window (R119 to R122) -/

/-- The tag list emptied, the overflow count 0 and the last result absent, at a LIFT's acceptance (R6, R119). -/
def Houses.emptyTags (x : Houses) : Houses := { x with tagList := [], overflow := 0, lastResult := none }

/-- An entry seen once more (R120). -/
def TagEntry.seen (e : TagEntry) (strength : Nat) : TagEntry :=
  { e with count := raiseSat 255 e.count, strength := max e.strength strength }

/-- A TAG_SEEN frame (R120). -/
def Houses.see (x : Houses) (tag : TagId) (strength : Nat) : Houses :=
  if !x.windowOpen || tag = noTagId then x
  else if x.tagList.any (fun e => e.tag == tag) then
    { x with tagList := x.tagList.map fun e => if e.tag = tag then e.seen strength else e }
  else if x.tagList.length < Config.tagListCapacity then
    { x with tagList := x.tagList ++ [{ tag := tag, count := 1, strength := strength }] }
  else { x with overflow := raiseSat 255 x.overflow }

/-- The result of a tag list: none seen, the one with the highest count, or several with it (R121). -/
def tagResult (l : List TagEntry) : TagResult :=
  let top := l.foldl (fun m e => max m e.count) 0
  match l.filter (fun e => e.count == top) with
  | [] => .noTag
  | [e] => .winner e.tag
  | _ => .ambiguous

/-- The context's tag result: stored while it holds no decision and its path is LIFT (R121). -/
def LiftCtx.offerTag (x : LiftCtx) (r : TagResult) (overflow : Nat) : LiftCtx :=
  if x.decision.isNone ∧ x.path = .lift then { x with tagResult := some r, overflow := overflow } else x

/-- The window closed and its result formed and handed on (R121). -/
def State.closeTags (s : State) : State :=
  let r := tagResult s.houses.tagList
  (s.setHouses { s.houses with windowOpen := false, lastResult := some (r, s.houses.overflow) }).mapCtx
    fun x => x.offerTag r s.houses.overflow

/-- The window closed with no result: at ABORT, on entry to STUCK and at staging (R122). -/
def State.dropTags (s : State) : State := s.setHouses { s.houses with windowOpen := false }

/-! ## The household table (R123 to R129) -/

/-- The entry of a tag. -/
def Houses.find (x : Houses) (tag : TagId) : Option Entry := x.table.find? fun e => e.tag == tag

/-- An entry put at the place of its tag, in place of one with the same tag (R124, R126). -/
def insertEntry (e : Entry) : List Entry → List Entry
  | [] => [e]
  | f :: r =>
    if e.tag.toNat < f.tag.toNat then e :: f :: r
    else if e.tag = f.tag then e :: r
    else f :: insertEntry e r

/-- The table without a tag's entry (R127). -/
def Houses.drop (x : Houses) (tag : TagId) : Houses := { x with table := x.table.filter fun e => e.tag != tag }

/-- The entry of a tag changed by `f`. -/
def Houses.update (x : Houses) (tag : TagId) (f : Entry → Entry) : Houses :=
  { x with table := x.table.map fun e => if e.tag = tag then f e else e }

/-- The entry of the lowest tag above a given one (R127). -/
def Houses.after (x : Houses) (tag : TagId) : Option Entry := x.table.find? fun e => decide (tag.toNat < e.tag.toNat)

/-- The pin of a tag's entry (R129). -/
def Houses.pin (x : Houses) (tag : TagId) (v : Bool) : Houses := x.update tag fun e => { e with pinned := v }

/-- An entry as ENTRY_PUT gives it, its fields checked; none when one is not acceptable (R123, R125 check 1, R197). A streams byte
with one of its bits 2 to 7 set is not (log 51). -/
def entryOf (f : EntryFields) : Option Entry :=
  let status := match f.status.toNat with
    | 0 => some HouseStatus.active
    | 1 => some .suspended
    | _ => none
  let tariff := match f.tariff.toNat with
    | 0 => some Tariff.byWeight
    | 1 => some .byLift
    | _ => none
  let excess := match f.excessPolicy.toNat with
    | 0 => some ExcessPolicy.charge
    | 1 => some .refuse
    | _ => none
  let allowance := presentField f.allowance
  match status, tariff, excess with
  | some st, some ta, some ex =>
    if f.tag ≠ noTagId ∧ f.account ≠ allOnes32 ∧ 1 ≤ f.streams.toNat ∧ f.streams.toNat ≤ 3 ∧ f.slot.toNat ≤ 3
        ∧ f.liftLimit ≠ 0#8 ∧ (allowance = none ∨ ta = .byWeight) then
      some
        { tag := f.tag, account := f.account.toNat, status := st,
          takesRefuse := f.streams.getLsbD 0, takesRecycle := f.streams.getLsbD 1, slot := f.slot.toNat, tariff := ta,
          allowance := allowance, excess := ex, liftLimit := presentField f.liftLimit, liftsToday := 0,
          lastTime := none, pinned := false }
    else none
  | _, _, _ => none

/-! ## The decision (R130, R131) -/

/-- What the table answers the LCC: the decision, the entry that decided, the two flags (R131). -/
structure Verdict where
  decision : Decision
  entry : Option Entry
  ambiguous : Bool
  notLoaded : Bool
  deriving DecidableEq, Repr

/-- The entry takes the stream (R123). -/
def Entry.takes (e : Entry) : Stream → Bool
  | .refuse => e.takesRefuse
  | .recycle => e.takesRecycle

/-- The decision of the untagged policy (R130). -/
def untagged (policy : UntaggedPolicy) (r : TagResult) : Decision :=
  match policy, r with
  | .liftUnbilled, _ => .accept
  | .refuse, .winner _ => .refuse .unknownTag
  | .refuse, _ => .refuse .untagged

/-- Checks 4 to 8 on an entry (R130). -/
def entryDecision (e : Entry) (stream : Stream) : Decision :=
  if e.status = .suspended then .refuse .suspended
  else if !e.takes stream then .refuse .stream
  else if e.liftLimit.any (fun l => decide (l ≤ e.liftsToday)) then .refuse .liftLimit
  else if e.allowance = some 0 ∧ e.excess = .refuse then .refuse .allowanceSpent
  else .accept

/-- The decision on a tag result (R130). -/
def decideLift (x : Houses) (policy : UntaggedPolicy) (r : TagResult) (stream : Stream) : Verdict :=
  let unknown : Verdict := ⟨untagged policy r, none, r == .ambiguous, !x.loaded⟩
  if !x.loaded then unknown
  else match r with
    | .noTag | .ambiguous => unknown
    | .winner tag =>
      match x.find tag with
      | none => unknown
      | some e => ⟨entryDecision e stream, some e, false, false⟩

/-! ## Billing (R132, R133) -/

/-- The billing fields of a record (R132). -/
structure Bill where
  covered : Nat
  excess : Nat
  allowance : Option Nat
  deriving DecidableEq, Repr

/-- Covered, excess and the allowance after, from the net and whether it is billable by weight (R132). -/
def billOf (e : Entry) (net : Option Int) (byWeight : Bool) : Bill :=
  let due := if e.tariff = .byWeight ∧ byWeight then (net.getD 0).toNat else 0
  match e.allowance with
  | some a => ⟨min due a, due - min due a, some (a - min due a)⟩
  | none => ⟨due, 0, none⟩

/-- REPEAT: the last lift lies no more than the interval before the record's time, and not after it (R133). -/
def isRepeat (e : Entry) (time interval : Nat) : Bool :=
  match e.lastTime with
  | some t => decide (t ≤ time) && decide (time - t ≤ interval)
  | none => false

/-- The entry after a LIFT's staging (R132, R133). -/
def Entry.billed (e : Entry) (b : Bill) (time : Nat) : Entry :=
  { e with allowance := b.allowance, liftsToday := raiseSat 255 e.liftsToday, lastTime := some time }

/-- An amount as the record's 24-bit field holds it (R194, log 26). -/
def amountField (n : Nat) : Nat := if n ≤ 16777214 then n else (Config.amountBeyondField n).toNat

/-- Section HOUSEHOLDS of STATUS_GET (R135). -/
def State.houseStatus (s : State) : HouseStatusMsg :=
  let x := s.houses
  { loaded := x.loaded, entries := x.table.length, pinned := (x.table.find? Entry.pinned).map Entry.tag,
    windowOpen := x.windowOpen, tagList := x.tagList, overflow := x.overflow, lastResult := x.lastResult }

end Sys2Proof.Machine
end

