-- ==== Sys2Proof/Machine/Player.lean ====
section
/-! DEFINITION. The Profile Player's operations on one channel, and the conditions that an AWAIT waits for (R26 to R48). -/

namespace Sys2Proof.Machine

/-! ## What an owner asks of a channel (R28, R29, R46, R47) -/

/-- A channel as START makes it (R26, R28). -/
def Chan.started (o : Origin) (addr envelope : Nat) : Chan :=
  { state := .run .playing, origin := some o, pointer := addr, interval := 20, u := 0, envelope := envelope,
    progress := .cleared, deadline := none, resume := none, fault := none }

/-- A channel on entry to FAULT (R44); a channel that is IDLE or in FAULT keeps its record (R44, R45). R44 does not name the AWAIT
deadline; the model keeps it until REARM or STOP (log 49). -/
def Chan.fail (r : Chan) (k : FaultKind) (addr : Nat) : Chan :=
  match r.state with
  | .idle | .fault => r
  | .run _ | .paused => { r with state := .fault, u := 0, resume := none, fault := some ⟨k, addr⟩ }

/-- A channel after STOP (R29). -/
def Chan.stop (r : Chan) : Chan :=
  match r.state with
  | .idle => r
  | _ => { r with state := .idle, u := 0, origin := none, progress := .cleared, deadline := none, resume := none,
                  fault := none }

/-- A channel after PAUSE (R47). -/
def Chan.pause (r : Chan) : Chan :=
  match r.state with
  | .run x => { r with state := .paused, resume := some x }
  | _ => r

/-- A channel after UNPAUSE (R47). -/
def Chan.unpause (r : Chan) : Chan :=
  match r.state, r.resume with
  | .paused, some x => { r with state := .run x, resume := none }
  | _, _ => r

/-- The command an AWAIT saved (R41). -/
def Progress.saved (u : Int) : Progress → Int
  | .await v => v
  | _ => u

/-- A channel after REARM: taken in FAULT of kind AWAIT_TIMEOUT; the AWAIT is to be reached anew (R46). -/
def Chan.rearm (r : Chan) : Chan :=
  match r.state, r.fault with
  | .fault, some ⟨.awaitTimeout, _⟩ =>
    { r with state := .run .awaiting, u := r.progress.saved r.u, progress := .cleared, deadline := none, fault := none }
  | _, _ => r

/-- START is taken: the channel is present and IDLE and the shadow READY (R28). -/
def State.takesStart (s : State) (c : Channel) : Bool :=
  s.hasChannel c && (s.chans.get c).state == .idle && s.shadow.state == .ready

/-- START: a refused one changes nothing; a channel whose latch is set enters FAULT at once (R28). -/
def State.startChan (s : State) (c : Channel) (o : Origin) (addr envelope : Nat) : State :=
  if s.takesStart c then
    let r := Chan.started o addr envelope
    s.setChan c (if (s.drive.latches.get c).isSome then r.fail .coil addr else r)
  else s

/-- A channel changed by an owner's request. -/
def State.mapChan (s : State) (c : Channel) (f : Chan → Chan) : State := s.setChan c (f (s.chans.get c))

/-- Channels changed by an owner's request, in turn. -/
def State.mapChans (s : State) (l : List Channel) (f : Chan → Chan) : State := l.foldl (fun t c => t.mapChan c f) s

/-! ## Conditions (R42, R43) -/

/-- The inputs of the absent packer read as 0 on a SINGLE body (R42). -/
def ofPackB (v : Variant) (x : Int) : Int := if v = .split then x else 0

/-- A discrete input compares as 0 or 1 (R42). -/
def discrete (b : Bool) : Int := if b then 1 else 0

/-- The present value of an input, by its code (R42, R195). -/
def State.input (s : State) (n : Nat) : Int :=
  let x := s.pins.sensors
  match n with
  | 0 => x.armAngle
  | 1 => x.reachPos
  | 2 => x.gripPressure
  | 3 => s.pins.packAPressure
  | 4 => ofPackB s.variant s.pins.packBPressure
  | 5 => x.supplyPressure
  | 6 => discrete s.pins.levels.armStowed
  | 7 => discrete s.pins.levels.gripOpen
  | 8 => discrete s.pins.levels.flapAtA
  | 9 => discrete s.pins.levels.flapAtB
  | 10 => discrete x.packAHome
  | 11 => discrete x.packAEnd
  | 12 => ofPackB s.variant (discrete x.packBHome)
  | 13 => ofPackB s.variant (discrete x.packBEnd)
  | 14 => discrete x.tailgateOpen
  | _ => 0

/-- A condition on an input's value (R42). -/
def Condition.holdsOn (c : Condition) (v : Int) : Bool :=
  match c.comparison with
  | .atLeast => decide (c.threshold ≤ v)
  | .atMost => decide (v ≤ c.threshold)
  | .equals => v == c.threshold

/-- The compartment that a built-in condition is evaluated against (R43). -/
def State.condComp (s : State) (c : Channel) (o : Option Origin) : Compartment :=
  match o with
  | some .pack | some .eject => c.packed.getD .a
  | some .cycle | none => (s.lcc.ctx.map LiftCtx.target).getD .a

/-- The packer is in a stage other than SWEEP or COMPRESS (R43). -/
def Stage.clear : Stage → Bool
  | .sweep | .compress => false
  | .rest | .retract | .ejecting | .fault => true

/-- A condition holds now, for a channel and its origin (R42, R43). -/
def State.holds (s : State) (c : Channel) (o : Option Origin) (n : Nat) : Bool :=
  if n = 30 then (s.comps.comp (s.condComp c o)).stage.clear
  else if n = 31 then
    match s.variant with
    | .single => true
    | .split => s.pins.levels.flapAt (s.condComp c o)
  else
    match conditionOf (readWord s.tables .conditions n) with
    | some x => x.holdsOn (s.input x.input)
    | none => false

/-! ## Command elements (R33 to R36) -/

/-- The command at step `k` of a RAMP: u0 + (target − u0) × k / n, truncated (R34). -/
def rampAt (u0 target : Int) (k n : Nat) : Int := u0 + truncDiv ((target - u0) * k) n

/-- The multiplier of a scale code (R35). -/
def multiplier (code : Nat) : Int :=
  match code with
  | 0 => 1
  | 1 => 4
  | 2 => 16
  | _ => 64

/-- One step of a DELTA4, saturating at ±1,000 (R35). -/
def deltaStep (u d : Int) (code : Nat) : Int := clampTo (-1000) 1000 (u + d * multiplier code)

/-- The pointer raised by 1: beyond 16,383 there is no element (R31). -/
def advanced (p : Nat) : Option Nat := if p < Config.lastElement then some (p + 1) else none

/-- The word of an element and its check, as the shadow holds them (R57, R58). -/
def State.elementWord (s : State) (addr : Nat) : Word32 := readWord s.tables .elements addr

/-- The check kept beside an element (R57). -/
def State.elementStored (s : State) (addr : Nat) : BitVec 4 :=
  match s.shadow.state, s.shadow.content with
  | .ready, some c => readCell erasedCheck c.checks addr
  | _, _ => erasedCheck addr

/-- The field values that fault BAD_ELEMENT (R32). -/
def Element.valid : Element → Bool
  | .set v => within (-1000) 1000 v
  | .ramp t n => within (-1000) 1000 t && n != 0
  | .hold n => n != 0
  | .step i => i != 0
  | .mark code => decide (code ≤ 12)
  | .delta4 .. | .await .. | .fin => true
  | .bad => false

/-! ## What masters see (R49) -/

/-- A channel's items in section CHANNELS (R49). -/
def State.chanStatus (s : State) (c : Channel) : ChanStatus :=
  let r := s.chans.get c
  let awaiting := r.state == .run .awaiting
  { state := r.state, origin := r.origin, pointer := r.pointer, interval := r.interval, u := r.u,
    uEnv := truncDiv (r.u * r.envelope) 255,
    fault := if r.state == .fault then r.fault else none,
    condition := if awaiting then
        match decodeElement (s.elementWord r.pointer) with
        | .await n _ => some n
        | _ => none
      else none,
    deadline := if awaiting then r.deadline else none,
    resume := if r.state == .paused then r.resume else none }

end Sys2Proof.Machine
end

