-- ==== Sys2Proof/Machine/Comps.lean ====
section
/-! DEFINITION. The Compartment Accounts' shared operations: status, totals, pack cycles and ejections (R136 to R152). -/

namespace Sys2Proof.Machine

/-! ## Status and totals (R137, R138) -/

/-- A compartment's status from its total, its short strokes, its limit in kilograms and full_strokes (R137). -/
def statusOf (total shorts limit fullStrokes : Nat) : CompStatus :=
  if limit * 1000 ≤ total ∨ fullStrokes ≤ shorts then .full
  else if limit * 1000 * 9 / 10 ≤ total ∨ 1 ≤ shorts then .nearFull
  else .opened

/-- A record with its status recomputed (R137). -/
def Comp.recompute (x : Comp) (set : Settings) (c : Compartment) : Comp :=
  { x with status := statusOf x.total x.shorts (set.limit c) set.fullStrokes }

/-- A compartment's total and status as it hands them to the Interlocks (R137). -/
def Comp.report (x : Comp) : Nat × CompStatus := (x.total, x.status)

/-- A compartment record replaced; a change of its total or status is handed to PAYLOAD as one (R137, R179). -/
def State.handOver (s : State) (c : Compartment) (x : Comp) : State :=
  let t := s.setComp c x
  if x.report = (s.comps.comp c).report then t else t.emitPayload

/-- A compartment's status recomputed and handed over where it changed (R137). -/
def State.recompute (s : State) (c : Compartment) : State :=
  if s.hasComp c then s.handOver c ((s.comps.comp c).recompute s.settings.inForce c) else s

/-- A total with a contribution added; the manual gives no rule beyond 4,294,967,294 g (R136, R138, log 25). -/
def addTotal (total n : Nat) : Nat :=
  if total + n ≤ maxCount32 then total + n else Config.totalBeyondRange (total + n) % (maxCount32 + 1)

/-- The payload contribution of a LIFT record added to a compartment's total (R138). -/
def State.contribute (s : State) (c : Compartment) (n : Nat) : State :=
  let x := s.comps.comp c
  s.handOver c ({ x with total := addTotal x.total n }.recompute s.settings.inForce c)

/-- A record with the totals it is to carry and every other field absent (R138, R194). -/
def State.blankRecord (s : State) (k : RecordKind) : Record :=
  { seq := 0, kind := k, flags := 0#32, time := none, account := none, tag := none, stream := none, comp := none,
    slot := none, reason := none, gross := none, tare := none, net := none, covered := none, excess := none,
    allowance := none, cec := s.lock.cec, totalA := s.comps.a.total,
    totalB := if s.hasComp .b then some s.comps.b.total else none, angles := none, lastPhase := none, overflow := 0 }

/-! ## Pack cycles (R141 to R146) -/

/-- The pack table's offset of a compartment's pack cycle (R50). -/
def packOffset : Compartment → Nat
  | .a => 0
  | .b => 1

/-- The pack table's offset of a compartment's ejection (R50). -/
def ejectOffset : Compartment → Nat
  | .a => 2
  | .b => 3

/-- The pack table entry of a compartment's pack cycle (R60). -/
def State.packEntry (s : State) (c : Compartment) : Option Nat := addressOf (readWord s.tables .packs (packOffset c))

/-- The pack table entry of a compartment's ejection (R60). -/
def State.ejectEntry (s : State) (c : Compartment) : Option Nat := addressOf (readWord s.tables .packs (ejectOffset c))

/-- The UNLOAD record staged: the total goes to 0 and the counts with it (R149). -/
def State.stageUnload (s : State) (c : Compartment) : State :=
  let x := s.comps.comp c
  let t := s.handOver c ({ x with total := 0, shorts := 0, tips := 0 }.recompute s.settings.inForce c)
  t.stage { t.blankRecord .unload with
    flags := { Flags.none with timeUnset := !t.inter.timeValid }.word, time := some t.recordTime, comp := some c,
    gross := some (roundDiv x.total 1000) }

/-- An ejection that ends: the record staged when EJECT_DONE was taken, the reservation returned otherwise (R149, R150). -/
def State.settleEject (s : State) (c : Compartment) (taken : Bool) (stage : Stage) (otherwise : EjectOutcome) : State :=
  let t := if taken then s.stageUnload c else s.returnReservation
  t.setComp c { t.comps.comp c with
    stage := stage, ejectDone := none, lastEject := some (if taken then .done else otherwise) }

/-- A packer channel's fault (R146), and the end of the ejection it cuts (R150). -/
def State.packFault (s : State) (c : Compartment) (f : FaultAt) : State :=
  let x := s.comps.comp c
  let t := (s.setComp c { x with stage := .fault, fault := some f, stroke := none }).alert (.packFault c f)
  match x.stage, x.ejectDone with
  | .ejecting, some taken => t.settleEject c taken .fault .fault
  | _, _ => t

/-- A packer channel's fault as it stands after START (R28, R142, R149). -/
def State.reportPackStart (s : State) (c : Compartment) : State :=
  match (s.chans.get c.packer).state, (s.chans.get c.packer).fault with
  | .fault, some f => s.packFault c f
  | _, _ => s

/-- A pack cycle started: the channel, the stage SWEEP, the stroke closed; paused at once while PTO is off (R142, R145). -/
def State.startPack (s : State) (c : Compartment) (addr : Nat) : State :=
  let t := s.startChan c.packer .pack addr 255
  let t := t.setComp c { t.comps.comp c with stage := .sweep, stroke := none }
  let t := if t.inter.pto then t else t.mapChan c.packer Chan.pause
  t.reportPackStart c

/-- A due pack cycle started when the conditions hold (R141). -/
def State.testDue (s : State) (c : Compartment) : State :=
  let x := s.comps.comp c
  if s.hasComp c && decide (s.settings.inForce.packAfter ≤ x.tips) && x.stage == .rest && s.inter.pto
      && s.shadow.state == .ready && !s.journal.starting then
    match s.packEntry c with
    | some addr => s.startPack c addr
    | none => s
  else s

/-- Both compartments tested for a due pack cycle (R141). -/
def State.testDueAll (s : State) : State := (s.testDue .a).testDue .b

/-- TIP_POINT for a compartment (R140, R141). -/
def State.tip (s : State) (c : Compartment) : State :=
  let x := s.comps.comp c
  (s.setComp c { x with tips := raiseSat 255 x.tips }).testDue c

/-- A stroke judged at PACK_RETRACT (R144). -/
def Comp.judge (x : Comp) : Comp :=
  match x.stroke with
  | none => x
  | some k => { x with stroke := none, lastStroke := some k, shorts := if k.short then raiseSat 4 x.shorts else 0 }

/-- PACK_RETRACT: the stage, the judgement, the status (R143, R144). -/
def State.packRetract (s : State) (c : Compartment) : State :=
  s.handOver c ({ s.comps.comp c with stage := .retract }.judge.recompute s.settings.inForce c)

/-- A pressure reading while a stroke is open in COMPRESS and the channel is not PAUSED (R144). -/
def Stroke.read (k : Stroke) (pressure full : Nat) : Stroke :=
  { short := k.short || decide (full ≤ pressure), peak := max k.peak pressure }

/-- The END of a packer channel (R143, R149, R150). -/
def State.packEnd (s : State) (c : Compartment) (o : Origin) : State :=
  match o with
  | .pack => s.setComp c { s.comps.comp c with stage := .rest, tips := 0, stroke := none }
  | .eject => (s.settleEject c ((s.comps.comp c).ejectDone.getD false) .rest .incomplete).testDue c
  | .cycle => s

/-- An ejection started: reservation, channel, stage; paused at once while PTO is off (R145, R149). -/
def State.startEject (s : State) (c : Compartment) (addr : Nat) : State :=
  let t := s.grant.startChan c.packer .eject addr 255
  let t := t.setComp c { t.comps.comp c with stage := .ejecting, ejectDone := some false }
  if t.inter.pto then t else t.mapChan c.packer Chan.pause

/-- The packer channels of an origin changed by a pause or an un-pause (R145). -/
def State.mapPackers (s : State) (which : Origin → Bool) (f : Chan → Chan) : State :=
  [Channel.packA, Channel.packB].foldl
    (fun t c => if (t.chans.get c).origin.any which then t.mapChan c f else t) s

/-- PTO goes off: both origins are paused (R145). -/
def State.packersPtoOff (s : State) : State := s.mapPackers (fun o => o != .cycle) Chan.pause

/-- PTO goes on: PACK is un-paused, EJECT when the permit is HELD (R145). -/
def State.packersPtoOn (s : State) : State :=
  s.mapPackers (fun o => o == .pack || (o == .eject && s.inter.permitHeld)) Chan.unpause

/-- The permit becomes EXPIRED: EJECT is paused (R145). -/
def State.packersExpired (s : State) : State := s.mapPackers (fun o => o == .eject) Chan.pause

/-- The permit becomes HELD: EJECT is un-paused while PTO is on (R145). -/
def State.packersHeld (s : State) : State := s.mapPackers (fun o => o == .eject && s.inter.pto) Chan.unpause

/-- The totals restored from the newest written record at the scan's end, short_strokes being 0 (R139). -/
def State.restoreTotals (s : State) : State :=
  let r := s.journal.newestRecord
  let totalA := match r with
    | some x => if slotTotalA x = absentField 4 then 0 else slotTotalA x
    | none => 0
  let totalB := match r with
    | some x => if slotTotalB x = absentField 4 then 0 else slotTotalB x
    | none => 0
  let set := s.settings.inForce
  let a := { s.comps.a with total := totalA, shorts := 0 }.recompute set .a
  let b := if s.hasComp .b then { s.comps.b with total := totalB, shorts := 0 }.recompute set .b else s.comps.b
  s.setComps ⟨a, b⟩

/-- A compartment in section COMPARTMENTS (R152): the total is absent while STARTING. -/
def State.compStatus (s : State) (c : Compartment) : CompStatusMsg :=
  let x := s.comps.comp c
  { total := if s.journal.starting then none else some x.total, status := x.status, tips := x.tips, shorts := x.shorts,
    stage := x.stage, fault := if x.stage = .fault then x.fault else none, stroke := x.stroke,
    lastStroke := x.lastStroke, ejectDone := if x.stage = .ejecting then x.ejectDone else none,
    lastEject := x.lastEject }

end Sys2Proof.Machine
end

