-- ==== Sys2Proof/Machine/Cycle.lean ====
section
/-! DEFINITION. The Lift Cycle Controller's shared operations: phases, halts, STUCK, the decision and staging (R2 to R24). -/

namespace Sys2Proof.Machine

/-! ## PHASE (R10) -/

/-- PHASE as the LCC stands: the halted phase and the cause set while HALTED, the fault record while FAULT is in the set
(R10). In any other phase the cause set is given as the empty set, byte 2 of the message as 0 (R197, log 58). -/
def Lcc.phaseMsg (x : Lcc) : PhaseMsg :=
  { phase := x.phase,
    haltedPhase := if x.phase = .halted then x.haltedPhase else none,
    causes := if x.phase = .halted then x.causes else Causes.none,
    faults := if x.phase = .halted ∧ x.causes.fault then x.faults else Six.all none }

/-- PHASE sent (R10). -/
def State.sendPhase (s : State) : State := s.indicate (.phase s.lcc.phaseMsg)

/-! ## Halts (R18, R19, R23) -/

/-- The cycle enters STUCK (R23, R85, R122). -/
def State.enterStuck (s : State) : State :=
  let t := ((s.mapChans s.lcc.started Chan.stop).dropWindow).dropTags
  (t.setLcc { t.lcc with
    phase := .stuck, haltedPhase := none, causes := Causes.none, faults := Six.all none, started := [] }).sendPhase

/-- The cycle halts in profile phase `p` with the arriving cause and what it enters in the fault record (R18). -/
def State.halt (s : State) (p : ProfilePhase) (causes : Causes) (faults : Six (Option FaultKind)) : State :=
  let inWindow := s.weigh.billedWindowOpen
  let t := (s.mapChans s.lcc.started Chan.pause).weighHalt.mapCtx fun x =>
    { x with halted := true, haltedInWindow := x.haltedInWindow || inWindow }
  (t.setLcc { t.lcc with phase := .halted, haltedPhase := some p, causes := causes, faults := faults }).sendPhase

/-- The interlock causes of a halt (R18). -/
inductive InterlockCause where
  | permit
  | pto
  | speed
  deriving DecidableEq, Repr

/-- A cause is in the set. -/
def Causes.has (x : Causes) : InterlockCause → Bool
  | .permit => x.permit
  | .pto => x.pto
  | .speed => x.speed

/-- The set with a cause in it or not. -/
def Causes.put (x : Causes) (c : InterlockCause) (v : Bool) : Causes :=
  match c with
  | .permit => { x with permit := v }
  | .pto => { x with pto := v }
  | .speed => { x with speed := v }

/-- An interlock cause arrives (R18, R19). -/
def State.addCause (s : State) (c : InterlockCause) : State :=
  match s.lcc.phase with
  | .run p => s.halt p (Causes.none.put c true) (Six.all none)
  | .halted =>
    if s.lcc.causes.has c then s else (s.setLcc { s.lcc with causes := s.lcc.causes.put c true }).sendPhase
  | .idle | .stuck => s

/-- An interlock cause goes away (R19). -/
def State.removeCause (s : State) (c : InterlockCause) : State :=
  if s.lcc.phase = .halted ∧ s.lcc.causes.has c then
    (s.setLcc { s.lcc with causes := s.lcc.causes.put c false }).sendPhase
  else s

/-- A channel of origin CYCLE has entered FAULT (R18, R19, R22). -/
def State.cycleFault (s : State) (c : Channel) (k : FaultKind) : State :=
  match s.lcc.phase with
  | .run .recover => s.enterStuck
  | .run p => s.halt p { Causes.none with fault := true } ((Six.all none).put c (some k))
  | .halted =>
    if s.lcc.haltedPhase = some .recover then s.enterStuck
    else (s.setLcc { s.lcc with
      causes := { s.lcc.causes with fault := true }, faults := s.lcc.faults.put c (some k) }).sendPhase
  | .idle | .stuck => s

/-! ## Phase entry (R7, R8) -/

/-- The set that a slot maps to (R62). -/
def SlotSets.get (m : SlotSets) : Nat → Nat
  | 0 => m.s0
  | 1 => m.s1
  | 2 => m.s2
  | _ => m.s3

/-- The slot map with a slot's set replaced (R62). -/
def SlotSets.put (m : SlotSets) (slot set : Nat) : SlotSets :=
  match slot with
  | 0 => { m with s0 := set }
  | 1 => { m with s1 := set }
  | 2 => { m with s2 := set }
  | _ => { m with s3 := set }

/-- The channels that the cycle may start (R7). -/
def armChannels : List Channel := [.reach, .lift, .grip, .divert]

/-- A set table entry: set × 48 + phase × 6 + channel (R50, R60). -/
def State.setEntry (s : State) (set : Nat) (p : ProfilePhase) (c : Channel) : Option Nat :=
  addressOf (readWord s.tables .sets (set * 48 + p.index * 6 + c.number))

/-- The diverter table's entry for a compartment (R50, R60). -/
def State.divertEntry (s : State) (c : Compartment) : Option Nat :=
  addressOf (readWord s.tables .diverter (compartmentCode c))

/-- The entry that a channel is started from at a phase's entry, if any (R7, R8). -/
def State.startAddress (s : State) (x : LiftCtx) (p : ProfilePhase) (c : Channel) : Option Nat :=
  if !s.hasChannel c then none
  else if c = .divert ∧ p = .raise ∧ !s.pins.levels.flapAt x.target then s.divertEntry x.target
  else s.setEntry (s.slotMap.get x.activeSlot) p c

/-- The channels a phase starts, with their addresses (R7, R8). -/
def State.phaseStarts (s : State) (x : LiftCtx) (p : ProfilePhase) : List (Channel × Nat) :=
  armChannels.filterMap fun c => (s.startAddress x p c).map fun a => (c, a)

/-- The cycle phase set to a profile phase, its channels started, PHASE sent (R7, R10). The last phase reached is held once
ABORT is taken (R3, R9). -/
def State.startPhase (s : State) (x : LiftCtx) (p : ProfilePhase) : State :=
  let starts := s.phaseStarts x p
  let t := (s.setLcc { s.lcc with
    phase := .run p, haltedPhase := none, causes := Causes.none, faults := Six.all none,
    started := starts.map Prod.fst }).mapCtx fun x => if x.path = .aborted then x else { x with lastPhase := p }
  starts.foldl (fun t e => t.startChan e.1 .cycle e.2 x.creep) t.sendPhase

/-- The coil faults that the starts met, reported in channel order (R28, R44, log 21). -/
def State.reportStarts (s : State) (l : List Channel) : State :=
  l.foldl (fun t c =>
    match (t.chans.get c).state, (t.chans.get c).fault with
    | .fault, some f => t.cycleFault c f.kind
    | _, _ => t) s

/-! ## Staging (R14 to R17) -/

/-- The fields common to a lift's records, and those of every kind that the context gives (R14). -/
def State.liftRecord (s : State) (x : LiftCtx) (k : RecordKind) : Record :=
  { s.blankRecord k with
    flags := (cycleFlags x s.inter.timeValid).word, time := some s.recordTime,
    account := x.household.map Household.account,
    tag := match x.household, x.tagResult with
      | some h, _ => some h.tag
      | none, some (.winner t) => some t
      | none, _ => none,
    stream := some x.stream, comp := some x.target, slot := some x.activeSlot,
    reason := match x.decision with
      | some (.refuse r) => some r
      | _ => none,
    lastPhase := some x.lastPhase, overflow := x.overflow }

/-- The staging of a LIFT record: judged, billed, its contribution added (R15, R132, R133, R138). -/
def State.stageLift (s : State) (x : LiftCtx) : State :=
  let p := s.lock.working
  let net := netOf p x
  let f := judgeFlags (cycleFlags x s.inter.timeValid) p s.lock.advisory x
  let entry := x.pin.bind s.houses.find
  let f := { f with repeated := entry.any fun e => isRepeat e s.recordTime s.settings.inForce.repeatInterval }
  let bill := entry.map fun e => billOf e net (billable net f)
  let t := match entry, bill with
    | some e, some b => s.setHouses (s.houses.update e.tag fun e => e.billed b s.recordTime)
    | _, _ => s
  let t := t.contribute x.target (contribution net)
  t.stage { t.liftRecord x .lift with
    flags := f.word, gross := grossOf p x, tare := tareOf p x, net := net,
    covered := bill.map fun b => amountField b.covered, excess := bill.map fun b => amountField b.excess,
    allowance := bill.bind Bill.allowance, angles := x.gross.bind GrossCapture.angles }

/-- The staging of a REFUSED record (R16). -/
def State.stageRefused (s : State) (x : LiftCtx) : State := s.stage (s.liftRecord x .refused)

/-- The staging of an ABORTED record: rounding alone; OVER_MAX stays clear though a gross may lie outside its field (R17, R94,
R194, log 48). -/
def State.stageAborted (s : State) (x : LiftCtx) : State :=
  s.stage { s.liftRecord x .aborted with
    gross := grossOf s.lock.working x, tare := tareOf s.lock.working x, angles := x.gross.bind GrossCapture.angles }

/-- The LCC's last act for a lift: the record, the pin, the context, IDLE (R14, R122, R129, R96, R178). -/
def State.stageCycle (s : State) : State :=
  match s.lcc.ctx with
  | none => s
  | some x =>
    let t := match x.path with
      | .lift => s.stageLift x
      | .refused => s.stageRefused x
      | .aborted => s.stageAborted x
    let t := match x.pin with
      | some tag => t.setHouses (t.houses.pin tag false)
      | none => t
    let t := (t.dropTags.setLcc Lcc.reset).sendPhase
    t.testEnable.testSnapshot

/-! ## The decision (R12, R13) and the end of a phase (R9) -/

/-- The context with the decision (R12, R13). -/
def LiftCtx.decide (x : LiftCtx) (v : Verdict) : LiftCtx :=
  { x with
    decision := some v.decision
    household := v.entry.map fun e => ⟨e.tag, e.account⟩
    activeSlot := (v.entry.map Entry.slot).getD x.activeSlot
    pin := if v.decision = .accept then v.entry.map Entry.tag else none
    path := if v.decision = .accept then x.path else .refused
    tagAmbiguous := v.ambiguous
    tableNotLoaded := v.notLoaded }

/-- The decision at the end of APPROACH, an accepted entry pinned (R12, R122, R129, R130). -/
def State.takeDecision (s : State) (x : LiftCtx) : State :=
  let v := decideLift s.houses s.settings.inForce.untaggedPolicy (x.tagResult.getD .noTag) x.stream
  let t := s.mapCtx fun y => y.decide v
  match v.decision, v.entry with
  | .accept, some e => t.setHouses (t.houses.pin e.tag true)
  | _, _ => t

/-- The phase that follows the end of a phase, and what the LCC does before it; none when the lift is staged (R9, R12, R13). -/
def State.endPhase (s : State) (p : ProfilePhase) : State × Option ProfilePhase :=
  let s := s.closeWindow
  match p with
  | .approach =>
    let s := if s.houses.windowOpen then s.closeTags else s
    match s.lcc.ctx with
    | none => (s, none)
    | some x =>
      let t := s.takeDecision x
      (t, some (if (t.lcc.ctx.map LiftCtx.path) = some .refused then .retract else .grip))
  | .grip => (s, some .raise)
  | .raise => (s, some .tip)
  | .tip => (s, some .lower)
  | .lower => (s, some .release)
  | .release => (s, some .retract)
  | .retract | .recover => (s.stageCycle, none)

/-- A profile phase entered; a phase whose started list is empty ends at its entry, and the next is entered (R7, R9). A lift
has at most eight phases. -/
def State.enterPhases : Nat → State → ProfilePhase → State
  | 0, s, _ => s
  | n + 1, s, p =>
    match s.lcc.ctx with
    | none => s
    | some x =>
      let t := s.startPhase x p
      match t.lcc.started with
      | [] =>
        match t.endPhase p with
        | (u, some q) => State.enterPhases n u q
        | (u, none) => u
      | l => t.reportStarts l

/-- A profile phase entered (R7). -/
def State.enterPhase (s : State) (p : ProfilePhase) : State := State.enterPhases 8 s p

/-- A channel of origin CYCLE has reported END: the report that completes the started list ends the phase (R9). -/
def State.cycleEnd (s : State) : State :=
  match s.lcc.phase with
  | .run p =>
    if s.lcc.started.all fun c => (s.chans.get c).state == .idle then
      match s.endPhase p with
      | (t, some q) => t.enterPhase q
      | (t, none) => t
    else s
  | .idle | .halted | .stuck => s

/-! ## Interlock changes handed to the LCC and the snapshot (R173, R176, R177) -/

/-- The speed state recomputed and a change of it handed on; `first` is the first report since the reset, which counts as a
change to OVER for the snapshot alone (R176, R178). -/
def State.recomputeSpeed (s : State) (first : Bool) : State :=
  let now := s.inter.isOver
  let t := s.setInter { s.inter with speedOver := now }
  match s.inter.speedOver, now with
  | false, true => (t.addCause .speed).testSnapshot
  | true, false => (t.removeCause .speed).clearSnapshot
  | true, true => if first then t.testSnapshot else t
  | false, false => t

/-- Section CYCLE of STATUS_GET (R10), with the captures handed to the lift context (R99). -/
def State.cycleStatus (s : State) : CycleStatus :=
  let x := s.lcc.ctx
  { phase := s.lcc.phaseMsg, stream := x.map LiftCtx.stream, target := x.map LiftCtx.target,
    activeSlot := x.map LiftCtx.activeSlot, path := x.map LiftCtx.path, decision := x.bind LiftCtx.decision,
    gross := x.bind LiftCtx.gross, tare := x.bind LiftCtx.tare }

end Sys2Proof.Machine
end

