-- ==== Sys2Proof/Machine/Expiry.lean ====
section
/-! DEFINITION. A step expiry: the marks, the elements, what a channel reports to its owner (R30 to R45). -/

namespace Sys2Proof.Machine

/-! ## Reports to the owner (R38, R44) -/

/-- A channel enters FAULT and reports it to its owner; a channel that is IDLE or in FAULT reports nothing (R44, R45). -/
def State.failChan (s : State) (c : Channel) (k : FaultKind) (addr : Nat) : State :=
  let r := s.chans.get c
  match r.state with
  | .idle | .fault => s
  | .run _ | .paused =>
    let t := s.setChan c (r.fail k addr)
    match r.origin, c.packed with
    | some .cycle, _ => t.cycleFault c k
    | some .pack, some m | some .eject, some m => t.packFault m ⟨k, addr⟩
    | _, _ => t

/-- END: the channel IDLE at the END element, and the report to its owner (R38). -/
def State.endChan (s : State) (c : Channel) : State :=
  let r := s.chans.get c
  let t := s.setChan c { r with
    state := .idle, u := 0, origin := none, progress := .cleared, deadline := none, resume := none, fault := none }
  match r.origin, c.packed with
  | some .cycle, _ => t.cycleEnd
  | some o, some m => t.packEnd m o
  | _, _ => t

/-! ## Marks (R39, R40) -/

/-- A weigh window's OPEN mark (R40, R81, R95). -/
def State.openMark (s : State) (k : WindowKind) (o : Option Origin) : Option State :=
  if o = some .cycle ∧ (s.weigh.enabled = false ∨ s.weigh.window = none) then some (s.openWindow k) else none

/-- A weigh window's CLOSE mark (R40, R85, R95). -/
def State.closeMark (s : State) (k : WindowKind) (o : Option Origin) : Option State :=
  if o = some .cycle then
    if s.weigh.enabled then
      if s.weigh.window.map Window.kind = some k then some s.closeWindow else none
    else some s
  else none

/-- TAG_OPEN (R40, R121). -/
def State.tagOpenMark (s : State) (o : Option Origin) : Option State :=
  if o = some .cycle ∧ s.houses.windowOpen = false then some (s.setHouses { s.houses with windowOpen := true }) else none

/-- TAG_CLOSE (R40, R121). -/
def State.tagCloseMark (s : State) (o : Option Origin) : Option State :=
  if o = some .cycle ∧ s.houses.windowOpen then some s.closeTags else none

/-- TIP_POINT, passed on with the target compartment (R11, R40, R140). -/
def State.tipMark (s : State) (o : Option Origin) : Option State :=
  if o = some .cycle ∧ s.lcc.phase = .run .tip then some (s.tip ((s.lcc.ctx.map LiftCtx.target).getD .a)) else none

/-- A packer's mark: from its own channel with origin PACK (R40, R143). -/
def State.packMark (s : State) (c : Channel) (o : Option Origin) (f : State → Compartment → State) : Option State :=
  match o, c.packed with
  | some .pack, some m => some (f s m)
  | _, _ => none

/-- PACK_SWEEP (R143). -/
def State.packSweep (s : State) (m : Compartment) : State := s.setComp m { s.comps.comp m with stage := .sweep }

/-- PACK_COMPRESS: a new stroke is opened (R143). -/
def State.packCompress (s : State) (m : Compartment) : State :=
  s.setComp m { s.comps.comp m with stage := .compress, stroke := some ⟨false, 0⟩ }

/-- EJECT_DONE (R40, R149). -/
def State.ejectMark (s : State) (c : Channel) (o : Option Origin) : Option State :=
  match o, c.packed with
  | some .eject, some m => some (s.setComp m { s.comps.comp m with ejectDone := some true })
  | _, _ => none

/-- A mark delivered to its owner: taken, or none when it is rejected as out of order (R39, R40). -/
def State.deliver (s : State) (c : Channel) (code : Nat) : Option State :=
  let o := (s.chans.get c).origin
  match code with
  | 0 => s.tagOpenMark o
  | 1 => s.tagCloseMark o
  | 2 => s.openMark .gross o
  | 3 => s.closeMark .gross o
  | 4 => s.openMark .tare o
  | 5 => s.closeMark .tare o
  | 6 => s.openMark .zero o
  | 7 => s.closeMark .zero o
  | 8 => s.tipMark o
  | 9 => s.packMark c o State.packSweep
  | 10 => s.packMark c o State.packCompress
  | 11 => s.packMark c o State.packRetract
  | 12 => s.ejectMark c o
  | _ => none

/-! ## Elements (R31 to R41) -/

/-- The pointer advanced after an element: true when there is a next element, and a fault beyond 16,383 (R31). -/
def State.advance (s : State) (c : Channel) : State × Bool :=
  let r := s.chans.get c
  match advanced r.pointer with
  | some p => (s.setChan c { r with pointer := p }, true)
  | none => (s.failChan c .badElement Config.lastElement, false)

/-- A channel after the last step of an element: PLAYING, its progress cleared, at the next element (R31). -/
def State.completeElement (s : State) (c : Channel) (u : Int) : State :=
  let r := s.chans.get c
  ((s.setChan c { r with state := .run .playing, u := u, progress := .cleared }).advance c).1

/-- Step `k` of a RAMP of `n` (R34). -/
def State.rampStep (s : State) (c : Channel) (u0 target : Int) (k n : Nat) : State :=
  let u := rampAt u0 target k n
  if k < n then s.mapChan c fun r => { r with state := .run .playing, u := u, progress := .ramp u0 k }
  else s.completeElement c u

/-- Step `k` of a DELTA4, 1 to 4, by its delta (R35). -/
def State.deltaAt (s : State) (c : Channel) (d : Int) (scale k : Nat) : State :=
  let u := deltaStep (s.chans.get c).u d scale
  if k < 4 then s.mapChan c fun r => { r with state := .run .playing, u := u, progress := .delta4 k }
  else s.completeElement c u

/-- One step of a HOLD with `n` steps remaining before it (R36). -/
def State.holdStep (s : State) (c : Channel) (n : Nat) : State :=
  if 1 < n then s.mapChan c fun r => { r with state := .run .holding, progress := .hold (n - 1) }
  else s.completeElement c (s.chans.get c).u

/-- An AWAIT whose condition holds lets the channel go on (R41). -/
def State.passAwait (s : State) (c : Channel) : State × Bool :=
  (s.mapChan c fun r => { r with state := .run .playing, progress := .cleared, deadline := none }).advance c

/-- An AWAIT reached whose condition does not hold (R41). -/
def State.beginAwait (s : State) (c : Channel) (timeout : Nat) : State :=
  s.mapChan c fun r => { r with
    state := .run .awaiting, progress := .await r.u, deadline := if timeout = 0 then none else some timeout }

/-- A later check of an AWAIT that fails (R41). -/
def State.countAwait (s : State) (c : Channel) : State :=
  let r := s.chans.get c
  match r.deadline with
  | none => s
  | some d =>
    let t := s.setChan c { r with deadline := some (d - 1) }
    if d ≤ 1 then t.failChan c .awaitTimeout r.pointer else t

/-- The element at the pointer reached: validated, performed, and the next one within the same expiry where it takes no
step (R31, R32). A run of zero-step elements is bounded by the element area. -/
def State.reach : Nat → State → Channel → State
  | 0, s, _ => s
  | n + 1, s, c =>
    let r := s.chans.get c
    let w := s.elementWord r.pointer
    let next := fun (p : State × Bool) => if p.2 then State.reach n p.1 c else p.1
    if elementCheck w ≠ s.elementStored r.pointer then s.failChan c .checkError r.pointer
    else if !(decodeElement w).valid then s.failChan c .badElement r.pointer
    else match decodeElement w with
      | .set v => s.completeElement c v
      | .ramp target k => s.rampStep c r.u target 1 k
      | .delta4 d1 _ _ _ scale => s.deltaAt c d1 scale 1
      | .hold k => s.holdStep c k
      | .step i => next ((s.setChan c { r with state := .run .playing, interval := i, progress := .cleared }).advance c)
      | .mark code =>
        match s.deliver c code with
        | some t => next ((t.mapChan c fun r => { r with state := .run .playing, progress := .cleared }).advance c)
        | none => s.failChan c .markOrder r.pointer
      | .await cond timeout => if s.holds c r.origin cond then next (s.passAwait c) else s.beginAwait c timeout
      | .fin => s.endChan c
      | .bad => s.failChan c .badElement r.pointer

/-- The elements that one expiry may reach: those of the element area (R31). -/
def reachBound : Nat := 16385

/-- An element in progress worked for one more step; its word is read again without its check (R31, R32, log 36). -/
def State.continueElement (s : State) (c : Channel) (r : Chan) : State :=
  match r.progress, decodeElement (s.elementWord r.pointer) with
  | .ramp u0 k, .ramp target n => s.rampStep c u0 target (k + 1) n
  | .delta4 1, .delta4 _ d _ _ scale => s.deltaAt c d scale 2
  | .delta4 2, .delta4 _ _ d _ scale => s.deltaAt c d scale 3
  | .delta4 _, .delta4 _ _ _ d scale => s.deltaAt c d scale 4
  | .hold k, _ => s.holdStep c k
  | .await _, .await cond _ =>
    if s.holds c r.origin cond then
      match s.passAwait c with
      | (t, true) => t.reach reachBound c
      | (t, false) => t
    else s.countAwait c
  | _, _ => s.reach reachBound c

/-- A step expiry of a channel whose step timer runs (R30, R31). -/
def State.expire (s : State) (c : Channel) : State :=
  let r := s.chans.get c
  match r.state with
  | .run _ => s.continueElement c r
  | .idle | .paused | .fault => s

/-! ## Coil faults (R45, R71) -/

/-- A coil fault: the latch set and both coils off, the channel faulted, the alert sent, the sharing made afresh; nothing
when the channel's latch is set already (R71). -/
def State.coilFault (s : State) (c : Channel) (l : Latch) : State :=
  if (s.drive.latches.get c).isSome then s
  else (((s.setLatch c l).failChan c .coil (s.chans.get c).pointer).alert (.coilFault c l)).refresh

end Sys2Proof.Machine
end

