-- ==== Sys2Proof/Machine/Stores.lean ====
section
/-! DEFINITION. Shared operations of the profile store and the shadow (R50 to R63), of the settings block (R190), and what a
full reset leaves of work in flight (R53, R109, R165, R167). -/

namespace Sys2Proof.Machine

/-! ## The profile store (R50 to R54) -/

/-- A permitted entry value of an area (R50, R52 check 2, R195). -/
def wordOk (area : Area) (w : Word32) : Bool :=
  let lo := (w.extractLsb' 0 16).toNat
  let hi := (w.extractLsb' 16 16).toNat
  match area with
  | .elements => true
  | .sets | .diverter | .packs => addressWordOk w
  | .conditions => conditionWordOk w
  | .flows => decide (w.toNat ≤ 2000)
  | .coils => decide (lo ≤ hi) && decide (hi ≤ 1000)
  | .periods => decide (2500 ≤ w.toNat) && decide (w.toNat ≤ 10000)

/-- The words of an area, or of all eight, set to their erased values (R54). -/
def eraseWords (m : Words) : Option Area → Words
  | some a => eraseRange a.base (a.base + a.size) m
  | none => []

/-- The store when the words of its work are in place: the new check, VALID (R53, R54). -/
def Store.settle (x : Store) (m : Words) : Store :=
  { x with words := m, check := some (storeCrc m), state := .valid, job := none }

/-- The store at the acceptance of a write or an erase: BUSY, its check erased (R53, R54). -/
def Store.begin (x : Store) (j : StoreJob) : Store := { x with state := .busy, check := none, job := some j }

/-- The store can take a write or an erase: not BUSY, no load in flight (R52 check 4). -/
def State.storeFree (s : State) : Bool := s.store.state != .busy && s.shadow.state != .loading

/-! ## The shadow (R55 to R58) -/

/-- The copy of a store's words, with the check of each element (R57, R58). -/
def copyOf (m : Words) : ShadowCopy :=
  { words := m,
    checks := ((m.filter fun e => decide (e.1 < 16384)).map fun e => (e.1, elementCheck e.2)).filter
      fun e => e.2 != 15#4 }

/-- The shadow LOADING, its content and check discarded (R56). -/
def Shadow.loading : Shadow := { state := .loading, content := none, check := none }

/-- The completion of a load (R57): true when the computed check matches the stored one. Either end of it stops the group
timers (R55, R65). -/
def State.finishLoad (s : State) : State × Bool :=
  let crc := storeCrc s.store.words
  if s.store.check = some crc then
    ((s.setShadow { state := .ready, content := some (copyOf s.store.words), check := some crc }).stopTimers
      (some s.store.words), true)
  else
    ((((s.setShadow Shadow.reset).setStore { s.store with state := .invalid }).stopTimers none).alert .storeInvalid, false)

/-- Section STORE of STATUS_GET (R63); the store state and check are not yet known while the store is verified (R51, R189). -/
def State.storeStatus (s : State) : StoreStatus :=
  { state := if s.store.verifying then none else some s.store.state, job := s.store.job,
    check := if s.store.verifying then none else s.store.check, shadow := s.shadow.state,
    shadowCheck := s.shadow.check, loading := s.shadow.state == .loading, slots := s.slotMap }

/-! ## The settings block (R190) -/

/-- The cell that a settings write goes to: the one that does not hold the newest generation, cell 0 when neither does
(R190). -/
def SettingsBlock.target (x : SettingsBlock) : Side :=
  match x.holder with
  | none => .a
  | some d => d.other

/-- A settings write started while the block is dirty and none is in flight; none starts at the last generation (R190). -/
def SettingsBlock.startWrite (x : SettingsBlock) : SettingsBlock :=
  if x.dirty ∧ x.write = none ∧ x.generation < maxCount32 then
    { x with
      dirty := false, write := some ⟨x.inForce, x.generation + 1⟩,
      cells := x.cells.putSide x.target ⟨x.inForce.values, x.generation + 1, false⟩ }
  else x

/-- The completion of a settings write; another follows when the block was made dirty meanwhile (R190). -/
def SettingsBlock.finishWrite (x : SettingsBlock) (w : SettingsWrite) : SettingsBlock :=
  SettingsBlock.startWrite { x with
    write := none, generation := w.generation, holder := some x.target,
    cells := x.cells.putSide x.target ⟨w.settings.values, w.generation, true⟩ }

/-- The cell that the start-up read chooses (R190). -/
def chooseCell (cells : Two SettingsCell) : Option Side :=
  match cells.a.checkGood, cells.b.checkGood with
  | true, true => if cells.a.generation < cells.b.generation then some .b else some .a
  | true, false => some .a
  | false, true => some .b
  | false, false => none

/-- The block after the start-up read (R190). Of two good cells of one generation cell 0 is taken as the newest one too, so that
the next write goes to cell 1 (log 55). -/
def SettingsBlock.read (x : SettingsBlock) : SettingsBlock :=
  match chooseCell x.cells with
  | some d =>
    { x with reading := false, inForce := Settings.ofValues (x.cells.side d).values,
             generation := (x.cells.side d).generation, holder := some d, origin := .stored }
  | none => { x with reading := false, inForce := Settings.defaults, generation := 0, holder := none, origin := .defaulted }

/-! ## Work cut by a full reset (R53, R54, R109, R167) -/

/-- The words of a store whose work was cut: each word of the work is in place or not, as a free value has it (log 14). -/
def cutStore (ix : Nat) (x : Store) : Words :=
  match x.job with
  | none => x.words
  | some (.write base ws) =>
    ((List.range ws.length).zip ws).foldl
      (fun m e => if Config.freeNat (ix + e.1) % 2 = 0 then m else writeCell erasedWord m (base + e.1) e.2) x.words
  | some (.erase area) =>
    x.words.filter fun e =>
      Config.freeNat (ix + e.1) % 2 == 0 || (eraseWords [e] area == [e])

/-- The store after a full reset: what its memory holds, and the verification to come (R51, R53). -/
def Store.afterReset (ix : Nat) (x : Store) : Store := { Store.reset with words := cutStore ix x, check := x.check }

/-- The slot of a record write that was cut: BLANK, VALID or DAMAGED, as free values have it (R167, log 12). -/
def cutRecord (ix : Nat) (r : Record) : SlotBits :=
  match Config.freeNat ix % 3 with
  | 0 => blankSlot
  | 1 => r.bits
  | _ => if patternOf (Config.freePattern ix) = .damaged then Config.freePattern ix else blankSlot

/-- The slots after a full reset: a cut write's slot, and any content in a sector whose erase was cut (R167, log 12,
log 13). -/
def cutSlots (ix : Nat) (j : Journal) : Slots :=
  let m := match j.writing, j.queue with
    | some i, r :: _ => writeCell erasedSlot j.slots i (cutRecord ix r)
    | _, _ => j.slots
  match j.erase with
  | some e => writeCells erasedSlot m (e.sector * Config.slotsPerSector)
      ((List.range Config.slotsPerSector).map fun i => Config.freePattern (ix + 1 + i))
  | none => m

/-- The journal after a full reset: its memory, its mark cells and its erase note (R155, R167). A voiding is not found half done:
the scan that voids is one command (R169, log 54). -/
def Journal.afterReset (ix : Nat) (j : Journal) : Journal :=
  { Journal.reset with slots := cutSlots ix j, cells := j.cells, note := j.note }

/-- The lock after a full reset: its stored items, what was being written failing its check. A maker write of both items is
cut in the first or in the second, in either order, as a free value has it (R101, R109, log 15). -/
def Lock.afterReset (ix : Nat) (x : Lock) : Lock :=
  let t := { Lock.reset with block := x.block, codeRecord := x.codeRecord, counterCell := x.counterCell }
  match x.write with
  | some (.maker false) => t.eraseCodeCheck
  | some (.maker true) =>
    match Config.freeNat ix % 4 with
    | 0 => t.eraseCodeCheck
    | 1 => { t.eraseBlockCheck with codeRecord := ⟨none, .high, true⟩ }
    | 2 => t.eraseBlockCheck
    | _ => { t.eraseCodeCheck with
        block := storedBlock x.reference x.lockedCheck .unverified (blockCec x.block.contents) }
  | _ => t

/-- The settings block after a full reset: its two cells (R190). -/
def SettingsBlock.afterReset (x : SettingsBlock) : SettingsBlock := { SettingsBlock.reset with cells := x.cells }

/-- The free values that a full reset may draw. -/
def resetDraws : Nat := 32768

end Sys2Proof.Machine
end

