-- ==== Sys2Proof/Machine/Startup.lean ====
section
/-! DEFINITION. FULL_RESET and the start-up reads (R1, R25, R51, R59, R101, R139, R167 to R169, R190). -/

namespace Sys2Proof.Machine

/-- The part after a full reset: the strap and PTO_ENGAGED read, the stored items kept as they stand, everything else at its
reset value (R1, R25, R172). The store, the journal and the lock draw different free values (log 11). -/
def State.fullReset (s : State) (strapGrounded ptoEngaged : Bool) : State :=
  { State.reset with
    pending := s.pending
    variant := if strapGrounded then .single else .split
    pins := s.pins
    settings := s.settings.afterReset
    store := s.store.afterReset s.freeIx
    lock := s.lock.afterReset (s.freeIx + 30000)
    journal := s.journal.afterReset (s.freeIx + 20000)
    inter := { Interlocks.reset with pto := ptoEngaged }
    freeIx := s.freeIx + resetDraws }

/-- FULL_RESET. -/
def execFullReset (strapGrounded ptoEngaged : Bool) (s : State) : Host.Outcome State Fault Refusal :=
  .next (s.fullReset strapGrounded ptoEngaged)

/-- The settings in force chosen, and the alert when neither cell passes (R190). -/
def State.readSettings (s : State) : State :=
  let t := (s.setSettings s.settings.read).recomputeQa.refresh
  if t.settings.origin = .defaulted then t.alert .settingsDefaulted else t

/-- SETTINGS_READ_DONE: once, before any other start-up work (R190, log 3, log 10). -/
def execSettingsReadDone (s : State) : Host.Outcome State Fault Refusal :=
  .next (if s.settings.reading then s.readSettings else s)

/-- The metrology items as they are read back (R101). -/
def Lock.read (x : Lock) : Lock :=
  let b := x.block.contents
  let good := x.block.good
  let cec := if good then max x.counterCell (blockCec b) else x.counterCell
  let set := if good then blockParams b else Params.factory
  { x with
    reading := false, state := .locked, failed := 0, write := none, reference := set, working := set,
    lockedCheck := if good then blockLockedCheck b else none,
    cal := if good then blockCal b else .invalid,
    cec := cec, counterCell := cec,
    code := if x.codeRecord.checkGood then x.codeRecord.code else none,
    level := if x.codeRecord.checkGood then x.codeRecord.level else .high }

/-- The Metrology Lock and the Weigh Engine after the reading (R75, R101). The manual is silent on a lift that is in flight
then; the model's own choice is that the engine is ENABLED at once and a window hold stands (log 46). -/
def State.readMetrology (s : State) : State :=
  let t := s.setLock s.lock.read
  t.setWeigh { t.weigh with enabled := t.lock.cal != .invalid }

/-- METROLOGY_READ_DONE: once, after the settings (R101, log 3, log 10). -/
def execMetrologyReadDone (s : State) : Host.Outcome State Fault Refusal :=
  .next (if s.lock.reading && !s.settings.reading then s.readMetrology else s)

/-- The store verified, and the automatic load or the alert (R51, R59). -/
def State.verifyStore (s : State) : State :=
  let x := { s.store with verifying := false }
  if s.store.check = some (storeCrc s.store.words) then
    (s.setStore { x with state := .valid }).setShadow Shadow.loading
  else (s.setStore { x with state := .invalid }).alert .storeInvalid

/-- STORE_VERIFY_DONE: once, after the settings (R51, log 3, log 10). -/
def execStoreVerifyDone (s : State) : Host.Outcome State Fault Refusal :=
  .next (if s.store.verifying && !s.settings.reading then s.verifyStore else s)

/-- The end of the start-up scan: the journal's state, the totals, PAYLOAD, the erase, JOURNAL_LOW, due pack cycles (R139,
R141, R163, R169, R179). -/
def State.finishScan (s : State) : State :=
  let t := ((s.setJournal s.journal.scan).restoreTotals).emitPayload
  ((t.setJournal t.journal.startErase).testLow.testDueAll).refresh

/-- JOURNAL_SCAN_DONE: once, after the settings (R169, log 3, log 10). -/
def execJournalScanDone (s : State) : Host.Outcome State Fault Refusal :=
  .next (if s.journal.starting && !s.settings.reading then s.finishScan else s)

end Sys2Proof.Machine
end

