-- ==== Sys2Proof/Machine/Ports.lean ====
section
/-! DEFINITION. The commands of the Link Ports (R182 to R187, R192). -/

namespace Sys2Proof.Machine

/-- A TAG_SEEN handed to the Tag Window (R120, R185). -/
def State.tagSeen (s : State) (tag : TagId) (strength : Byte) : State := s.setHouses (s.houses.see tag strength.toNat)

/-- A frame that passes its framing and addressing is taken at its port (R182 to R184). A frame of the service line given whole
leaves a partial frame of that line as it is, which is the model's own choice (log 60). -/
def State.receive (s : State) (f : RawFrame) : State :=
  match f with
  | .can p id data =>
    match canRequest p id data with
    | some (h, r) => s.arrive h r
    | none => s
  | .line bytes =>
    if wholeLineOk bytes && !s.sending then s.arrive (serviceRequest bytes).1 (serviceRequest bytes).2 else s

/-- FRAME_ARRIVAL (R182 to R184). -/
def execFrameArrival (f : RawFrame) (s : State) : Host.Outcome State Fault Refusal := .next (s.receive f)

/-- UNKNOWN_KIND: taken from its queue and answered UNKNOWN_KIND, or NOT_PERMITTED for a kind the part only sends (R186). -/
def execUnknownKind (h : Header) (kind : Byte) (s : State) : Host.Outcome State Fault Refusal :=
  .next (match s.take h (.other kind) with
    | some t => t.answer h kind (if definedOnly kind then .notPermitted else .unknownKind) .empty
    | none => s)

/-- The oldest message of a port's transmit queue has been sent (R183, R184, R187, log 18). -/
def State.messageSent (s : State) (p : Port) : State :=
  let x := s.port p
  match x.tx with
  | m :: rest =>
    if x.onBus then (s.setPort p { x with tx := rest, sent := some (m.wire s.freeIx) }).setFreeIx (s.freeIx + 1) else s
  | [] => s

/-- MESSAGE_SENT (R187). -/
def execMessageSent (p : Port) (s : State) : Host.Outcome State Fault Refusal := .next (s.messageSent p)

/-- SERVICE_BYTE_GAP: the partial frame of the line is discarded (R184, R185). -/
def execServiceByteGap (l : Line) (s : State) : Host.Outcome State Fault Refusal := .next (s.setPartial l [])

/-- TAG_LINE_BREAK: any partial frame of the tag line is discarded (R185). -/
def execTagLineBreak (s : State) : Host.Outcome State Fault Refusal := .next (s.setPartial .tagLine [])

/-- The port of a CAN link. -/
def portOfCan : CanPort → Port
  | .body => .body
  | .chassis => .chassis

/-- BUS_OFF (R182). -/
def execBusOff (p : CanPort) (s : State) : Host.Outcome State Fault Refusal :=
  .next (s.setPort (portOfCan p) { s.port (portOfCan p) with onBus := false })

/-- A port after a link reset: ON_BUS, its queues and its pending list empty (R182, R192). -/
def PortState.linkReset (x : PortState) : PortState := { x with onBus := true, rx := [], tx := [], deferred := [] }

/-- A link reset of a port; the service line's partial frame is discarded with it (R192). -/
def State.linkReset (s : State) (p : Port) : State :=
  let t := s.setPort p (s.port p).linkReset
  match p with
  | .service => t.setPartial .service []
  | .body | .chassis => t

/-- LINK_RESET (R192). -/
def execLinkReset (p : Port) (s : State) : Host.Outcome State Fault Refusal := .next (s.linkReset p)

/-- A complete frame of a line: a service-line frame arrives at its port, a TAG_SEEN goes to the Tag Window and any other
tag-line frame is discarded (R184, R185). -/
def State.lineFrame (s : State) (l : Line) (bytes : List Byte) : State :=
  match l with
  | .service => s.arrive (serviceRequest bytes).1 (serviceRequest bytes).2
  | .tagLine =>
    if byteAt 2 bytes = 64#8 ∧ bytes.length = 14 then s.tagSeen (fieldAt 64 3 8 bytes) (byteAt 11 bytes) else s

/-- A byte on a line (R184, R185). -/
def State.lineByte (s : State) (l : Line) (b : Byte) : State :=
  match assemble l (decide (l = .service) && s.sending) (s.partialOf l) b with
  | .held x => s.setPartial l x
  | .complete x => (s.setPartial l []).lineFrame l x

/-- LINE_BYTE_ARRIVAL (R184, R185). -/
def execLineByteArrival (l : Line) (b : Byte) (s : State) : Host.Outcome State Fault Refusal := .next (s.lineByte l b)

/-- TAG_SEEN (R120). A partial frame of the tag line stands as it is (log 60). -/
def execTagSeen (tag : TagId) (strength : Byte) (s : State) : Host.Outcome State Fault Refusal :=
  .next (s.tagSeen tag strength)

end Sys2Proof.Machine
end

