-- ==== Sys2Proof/Machine/Lifting.lean ====
section
/-! DEFINITION. The console's requests to the Lift Cycle Controller, and PERMIT (R4 to R6, R20, R21, R24, R173). -/

namespace Sys2Proof.Machine

/-! ## LIFT (R4 to R6) -/

/-- The fields of a LIFT in range: the stream, the approach slot, the creep scale used and whether it was clamped; none when
the request is malformed (R4). -/
def liftOf (f : LiftFields) : Option (Stream × Nat × Nat × Bool) :=
  let slot := (presentField f.slot).getD 0
  match streamOf f.stream with
  | none => none
  | some st =>
    if slot ≤ 3 then
      some (st, slot, max 64 ((presentField f.creep).getD 255), decide ((presentField f.creep).getD 255 < 64))
    else none

/-- The first check of R5 from 2 to 11 that fails. -/
def State.liftRefusal (s : State) (st : Stream) (slot : Nat) : Option LiftRefusal :=
  let c := s.settings.inForce.map st
  if s.lcc.phase ≠ .idle then some .cycleBusy
  else if s.shadow.state ≠ .ready then some .shadowNotReady
  else if !s.inter.pto then some .ptoOff
  else if !s.inter.permitHeld then some .noPermit
  else if !s.inter.present then some .chassisSilent
  else if s.inter.speedOver then some .speed
  else if !s.hasComp c then some .noCompartment
  else if (s.comps.comp c).status = .full then some .compartmentFull
  else if !s.journal.canGrant then some .journalFull
  else if armChannels.all (fun k => !s.hasChannel k || (s.setEntry (s.slotMap.get slot) .approach k).isNone) then
    some .slotEmpty
  else none

/-- The lift context at acceptance (R3, R6). -/
def LiftCtx.accepted (st : Stream) (c : Compartment) (slot creep : Nat) : LiftCtx :=
  { stream := st, target := c, approachSlot := slot, activeSlot := slot, creep := creep, reservation := true,
    tagResult := none, overflow := 0, decision := none, household := none, pin := none, gross := none, tare := none,
    grossFlags := ⟨false, false, false⟩, tareFlags := ⟨false, false, false⟩, grossDisabled := false,
    tareDisabled := false, haltedInWindow := false, path := .lift, halted := false, tagAmbiguous := false,
    tableNotLoaded := false, manualRecovery := false, lastPhase := .approach }

/-- A LIFT accepted: the reservation, the context, the tag list, APPROACH (R6). -/
def State.acceptLift (s : State) (st : Stream) (slot creep : Nat) : State :=
  let t := s.grant
  let t := t.setLcc { t.lcc with ctx := some (LiftCtx.accepted st (s.settings.inForce.map st) slot creep) }
  (t.setHouses t.houses.emptyTags).enterPhase .approach

/-- LIFT at the LCC (R4, R5, R6). -/
def State.takeLift (h : Header) (f : LiftFields) (s : State) : State :=
  match liftOf f with
  | none => s.answer h 1#8 .malformed .empty
  | some (st, slot, creep, clamped) =>
    if s.journal.starting then s.answer h 1#8 .busy .empty
    else match s.liftRefusal st slot with
      | some r => s.answer h 1#8 .refused (.refusal r)
      | none =>
        let t := (s.acceptLift st slot creep).refresh
        if clamped then t.answer h 1#8 .clamped (.creep creep) else t.answer h 1#8 .ok .empty

/-- LIFT. -/
def execLift (h : Header) (b : Payload LiftFields) (s : State) : Host.Outcome State Fault Refusal :=
  .next (s.request h (.lift b) b (State.takeLift h))

/-! ## PERMIT (R173) -/

/-- The permit restarted, and made HELD where it was EXPIRED (R173). -/
def State.renewPermit (s : State) : State :=
  let t := s.setInter { s.inter with permitHeld := true, permitTimer := some s.settings.inForce.permitPeriod }
  if s.inter.permitHeld then t else ((t.removeCause .permit).packersHeld).refresh

/-- PERMIT. -/
def execPermit (h : Header) (b : Payload Unit) (s : State) : Host.Outcome State Fault Refusal :=
  .next (s.request h (.permit b) b fun _ t => t.renewPermit.answer h 2#8 .ok .empty)

/-! ## RESUME (R20) -/

/-- Every kind in the fault record is AWAIT_TIMEOUT (R20). -/
def Lcc.onlyTimeouts (x : Lcc) : Bool :=
  allChannels.all fun c => match x.faults.get c with
    | none | some .awaitTimeout => true
    | some _ => false

/-- The cause set lets the cycle resume (R20). -/
def Lcc.canResume (x : Lcc) : Bool :=
  !x.causes.permit && !x.causes.pto && !x.causes.speed && (!x.causes.fault || x.onlyTimeouts)

/-- The cycle resumed in phase `p`: RECOVER started where it never was, the channels un-paused and rearmed otherwise (R20,
R46, R47, R86). -/
def State.resumeCycle (s : State) (p : ProfilePhase) : State :=
  let t := s.weighResume
  if p = .recover ∧ s.lcc.started = [] then t.enterPhase .recover
  else
    let t := t.mapChans s.lcc.started Chan.unpause
    let t := t.mapChans (s.lcc.started.filter fun c => (s.lcc.faults.get c).isSome) Chan.rearm
    (t.setLcc { t.lcc with
      phase := .run p, haltedPhase := none, causes := Causes.none, faults := Six.all none }).sendPhase

/-- RESUME at the LCC (R20). -/
def State.takeResume (h : Header) (s : State) : State :=
  match s.lcc.phase, s.lcc.haltedPhase with
  | .halted, some p =>
    if s.lcc.canResume then ((s.resumeCycle p).refresh).answer h 3#8 .ok .empty
    else s.answer h 3#8 .faultPersists (.causes s.lcc.causes)
  | _, _ => s.answer h 3#8 .wrongState .empty

/-- RESUME. -/
def execResume (h : Header) (b : Payload Unit) (s : State) : Host.Outcome State Fault Refusal :=
  .next (s.request h (.resume b) b fun _ t => t.takeResume h)

/-! ## ABORT (R21) -/

/-- The effects of ABORT up to its answer (R21, R85, R122). -/
def State.abandon (s : State) : State :=
  let t := ((s.mapChans s.lcc.started Chan.stop).dropWindow).dropTags.mapCtx fun x => { x with path := .aborted }
  t.setLcc { t.lcc with causes := { t.lcc.causes with fault := false }, faults := Six.all none, started := [] }

/-- RECOVER entered, or waited for while causes remain; a change of the cause set while HALTED sends PHASE (R10, R21,
log 22). -/
def State.enterRecover (s : State) (hadFault : Bool) : State :=
  if s.lcc.causes = Causes.none then s.enterPhase .recover
  else
    let t := s.setLcc { s.lcc with phase := .halted, haltedPhase := some .recover }
    if hadFault then t.sendPhase else t

/-- ABORT at the LCC (R21, R22, R23). -/
def State.takeAbort (h : Header) (s : State) : State :=
  let abandonLift := (((s.abandon).answer h 4#8 .ok .empty).enterRecover s.lcc.causes.fault).refresh
  let giveUp := (s.enterStuck.refresh).answer h 4#8 .ok .empty
  match s.lcc.phase with
  | .idle | .stuck => s.answer h 4#8 .wrongState .empty
  | .run .recover => giveUp
  | .run _ => abandonLift
  | .halted => if s.lcc.haltedPhase = some .recover then giveUp else abandonLift

/-- ABORT. -/
def execAbort (h : Header) (b : Payload Unit) (s : State) : Host.Outcome State Fault Refusal :=
  .next (s.request h (.abort b) b fun _ t => t.takeAbort h)

/-! ## CYCLE_CLEAR (R24) -/

/-- CYCLE_CLEAR at the LCC: a STUCK lift staged as an ABORTED record flagged MANUAL_RECOVERY (R17, R24). -/
def State.takeCycleClear (h : Header) (s : State) : State :=
  if s.lcc.phase = .stuck then
    ((s.mapCtx fun x => { x with path := .aborted, manualRecovery := true }).stageCycle).answer h 5#8 .ok .empty
  else s.answer h 5#8 .wrongState .empty

/-- CYCLE_CLEAR. -/
def execCycleClear (h : Header) (b : Payload Unit) (s : State) : Host.Outcome State Fault Refusal :=
  .next (s.request h (.cycleClear b) b fun _ t => t.takeCycleClear h)

end Sys2Proof.Machine
end

