-- ==== Sys2Proof/Machine/Packing.lean ====
section
/-! DEFINITION. The console's requests to the Compartment Accounts and the Valve Drive (R72, R142, R148 to R151). -/

namespace Sys2Proof.Machine

/-- A packer in FAULT stopped, its fault cleared (R29, R142). -/
def State.clearPacker (s : State) (c : Compartment) : State :=
  if (s.comps.comp c).stage = .fault then
    (s.mapChan c.packer Chan.stop).setComp c { s.comps.comp c with fault := none }
  else s

/-- PACK at the Compartment Accounts (R142). -/
def State.takePack (h : Header) (b : Byte) (s : State) : State :=
  if s.journal.starting then s.answer h 6#8 .busy .empty
  else match s.compNamed b with
    | none => s.answer h 6#8 .noSuch .empty
    | some c =>
      if s.shadow.state ≠ .ready then s.answer h 6#8 .shadowNotReady .empty
      else if (s.comps.comp c).stage ≠ .rest ∧ (s.comps.comp c).stage ≠ .fault then s.answer h 6#8 .busy .empty
      else match s.packEntry c with
        | none => s.answer h 6#8 .noSuch .empty
        | some addr => (((s.clearPacker c).startPack c addr).refresh).answer h 6#8 .ok .empty

/-- PACK. -/
def execPack (h : Header) (b : Payload Byte) (s : State) : Host.Outcome State Fault Refusal :=
  .next (s.request h (.pack b) b (State.takePack h))

/-- UNLOAD at the Compartment Accounts (R148, R149). Where the channel's coil latch is set, START faults it at once; the model's own
choice is that the OK is queued before the ALERT PACK_FAULT, and that the ejection is settled after both (R28, R149, R150,
log 61). -/
def State.takeUnload (h : Header) (b : Byte) (s : State) : State :=
  if s.journal.starting then s.answer h 7#8 .busy .empty
  else match s.compNamed b with
    | none => s.answer h 7#8 .noSuch .empty
    | some c =>
      if s.shadow.state ≠ .ready then s.answer h 7#8 .shadowNotReady .empty
      else if s.lcc.phase ≠ .idle then s.answer h 7#8 .busy .empty
      else if (s.comps.comp c).stage ≠ .rest then s.answer h 7#8 .busy .empty
      else if !s.stationary then s.answer h 7#8 .speed .empty
      else if s.inter.report.brakeOn ≠ some true then s.answer h 7#8 .wrongState .parkingBrake
      else if !s.inter.permitHeld then s.answer h 7#8 .wrongState .noPermit
      else match s.ejectEntry c with
        | none => s.answer h 7#8 .noSuch .empty
        | some addr =>
          if s.journal.canGrant then
            ((((s.startEject c addr).answer h 7#8 .ok .empty)).reportPackStart c).refresh
          else s.answer h 7#8 .journalFull .empty

/-- UNLOAD. -/
def execUnload (h : Header) (b : Payload Byte) (s : State) : Host.Outcome State Fault Refusal :=
  .next (s.request h (.unload b) b (State.takeUnload h))

/-- ABORT_UNLOAD at the Compartment Accounts (R150, R151). -/
def State.takeAbortUnload (h : Header) (b : Byte) (s : State) : State :=
  match s.compNamed b with
  | none => s.answer h 8#8 .noSuch .empty
  | some c =>
    if (s.comps.comp c).stage = .ejecting then
      let taken := (s.comps.comp c).ejectDone.getD false
      ((((s.mapChan c.packer Chan.stop).settleEject c taken .rest .aborted).testDue c).refresh).answer h 8#8 .ok .empty
    else s.answer h 8#8 .wrongState .empty

/-- ABORT_UNLOAD. -/
def execAbortUnload (h : Header) (b : Payload Byte) (s : State) : Host.Outcome State Fault Refusal :=
  .next (s.request h (.abortUnload b) b (State.takeAbortUnload h))

/-- FAULT_CLEAR at the Valve Drive (R72). -/
def State.takeFaultClear (h : Header) (b : Byte) (s : State) : State :=
  match s.chanNamed b with
  | none => s.answer h 9#8 .noSuch .empty
  | some c =>
    if (s.chans.get c).state = .run .playing then s.answer h 9#8 .wrongState .empty
    else match s.drive.latches.get c with
      | some l => ((s.clearLatch c).refresh).answer h 9#8 .ok (.latch (some l))
      | none => s.answer h 9#8 .ok (.latch none)

/-- FAULT_CLEAR. -/
def execFaultClear (h : Header) (b : Payload Byte) (s : State) : Host.Outcome State Fault Refusal :=
  .next (s.request h (.faultClear b) b (State.takeFaultClear h))

end Sys2Proof.Machine
end

