-- ==== Sys2Proof/Machine/Reading.lean ====
section
/-! DEFINITION. STATUS_GET (R189), and the route terminal's reading and releasing of the journal (R165, R166). -/

namespace Sys2Proof.Machine

/-- A port's items in section LINKS (R189), as its queues stand without the request being answered (log 57). -/
def PortState.status (x : PortState) : PortStatus :=
  { onBus := x.onBus, rx := x.rx.length, tx := x.tx.length, deferred := x.deferred.map Deferred.kind }

/-- The items of a section, by its code (R189, R197); none for a code outside the table. What a start-up read is still to
give is absent; while STARTING the model's own choice is that JOURNAL gives the scan state alone (R170, log 44). -/
def State.statusSection (s : State) (b : Byte) : Option StatusData :=
  match b.toNat with
  | 0 => some (.cycle s.cycleStatus)
  | 1 => some (.channels (Six.make fun c => if s.hasChannel c then some (s.chanStatus c) else none))
  | 2 => some (.drive s.driveStatus)
  | 3 => some (.store s.storeStatus)
  | 4 => some (.weigh s.weighStatus)
  | 5 => some (.lock s.lockStatus)
  | 6 => some (.households s.houseStatus)
  | 7 => some (.compartments (s.compStatus .a) (if s.hasComp .b then some (s.compStatus .b) else none))
  | 8 => some (.journal s.journal.starting (if s.journal.starting then none else some s.journal.counts))
  | 9 => some (.interlocks s.interlockStatus)
  | 10 => some (.links s.links.body.status s.links.chassis.status s.links.service.status
      (if s.settings.reading then none else some s.settings.origin))
  | _ => none

/-- STATUS_GET at the Link Ports (R189). The request has left its receive queue and is not counted in section LINKS, which is the
model's own choice (log 57). The time left in INTERLOCKS is one free value, the number of parts another. -/
def State.takeStatus (h : Header) (b : Byte) (s : State) : State :=
  match s.statusSection b with
  | none => s.answer h 10#8 .malformed .empty
  | some d => (s.setFreeIx (s.freeIx + 1)).answer h 10#8 .ok (.status d)

/-- STATUS_GET. -/
def execStatusGet (h : Header) (b : Payload Byte) (s : State) : Host.Outcome State Fault Refusal :=
  .next (s.request h (.statusGet b) b (State.takeStatus h))

/-- The record of a number, or where it is not (R166, log 33). -/
def State.readRecord (h : Header) (n : Nat) (s : State) : State :=
  let j := s.journal
  match j.newest, j.oldest with
  | some newest, some oldest =>
    if newest < n then s.answer h 21#8 .notYet (.seq (some newest))
    else if n < oldest then s.answer h 21#8 .gone (.seq (some oldest))
    else match j.find n with
      | some e => s.answer h 21#8 .ok (.record e.2 newest j.mark)
      | none => s.answer h 21#8 .gone (.seq (some oldest))
  | none, _ => s.answer h 21#8 .notYet (.seq none)
  | some newest, none =>
    if newest < n then s.answer h 21#8 .notYet (.seq (some newest)) else s.answer h 21#8 .gone (.seq none)

/-- JOURNAL_READ at the journal (R166, R197, log 27). -/
def State.takeJournalRead (h : Header) (f : JournalReadFields) (s : State) : State :=
  if s.journal.starting then s.answer h 21#8 .busy .empty
  else match f.form.toNat with
    | 0 => if f.seq = allOnes32 then s.answer h 21#8 .malformed .empty else s.readRecord h f.seq.toNat
    | 1 => s.readRecord h (s.journal.mark + 1)
    | _ => s.answer h 21#8 .malformed .empty

/-- JOURNAL_READ. -/
def execJournalRead (h : Header) (b : Payload JournalReadFields) (s : State) : Host.Outcome State Fault Refusal :=
  .next (s.request h (.journalRead b) b (State.takeJournalRead h))

/-- A release write started, its request held until the write completes (R165, R186). -/
def State.startRelease (s : State) (h : Header) (value : Nat) (clamped : Bool) : State :=
  (s.setJournal (s.journal.startRelease ⟨value, clamped⟩)).defer h 22#8

/-- JOURNAL_RELEASE at the journal (R165). -/
def State.takeJournalRelease (h : Header) (w : Word32) (s : State) : State :=
  let j := s.journal
  let n := w.toNat
  if j.starting then s.answer h 22#8 .busy .empty
  else if w = allOnes32 then s.answer h 22#8 .malformed .empty
  else if j.release.isSome then s.answer h 22#8 .busy .empty
  else if n ≤ j.mark then s.answer h 22#8 .ok (.count j.unreleased)
  else match j.newest with
    | none => s.answer h 22#8 .clamped (.count 0)
    | some newest =>
      if n ≤ newest then s.startRelease h n false
      else if j.mark < newest then s.startRelease h newest true
      else s.answer h 22#8 .clamped (.count j.unreleased)

/-- JOURNAL_RELEASE. -/
def execJournalRelease (h : Header) (b : Payload Word32) (s : State) : Host.Outcome State Fault Refusal :=
  .next (s.request h (.journalRelease b) b (State.takeJournalRelease h))

end Sys2Proof.Machine
end

