-- ==== Sys2Proof/Machine/Route.lean ====
section
/-! DEFINITION. The route terminal's requests to the Household Table, the slot map, the settings and the clock (R62, R125 to
R128, R180, R191). -/

namespace Sys2Proof.Machine

/-! ## The household table (R125 to R128) -/

/-- ENTRY_PUT at the table (R125, R126). -/
def State.takeEntryPut (h : Header) (f : EntryFields) (s : State) : State :=
  match entryOf f with
  | none => s.answer h 16#8 .malformed .empty
  | some e =>
    let x := s.houses
    let put := s.setHouses { x with table := insertEntry e x.table }
    match x.find f.tag with
    | some old =>
      if old.pinned then s.answer h 16#8 .entryPinned .empty
      else put.answer h 16#8 .ok (.replaced put.houses.table.length)
    | none =>
      if x.table.length < Config.tableCapacity then put.answer h 16#8 .ok (.inserted put.houses.table.length)
      else s.answer h 16#8 .tableFull .empty

/-- ENTRY_PUT. -/
def execEntryPut (h : Header) (b : Payload EntryFields) (s : State) : Host.Outcome State Fault Refusal :=
  .next (s.request h (.entryPut b) b (State.takeEntryPut h))

/-- ENTRY_DROP at the table (R127). -/
def State.takeEntryDrop (h : Header) (tag : TagId) (s : State) : State :=
  match s.houses.find tag with
  | none => s.answer h 17#8 .notFound .empty
  | some e =>
    if e.pinned then s.answer h 17#8 .entryPinned .empty
    else
      let t := s.setHouses (s.houses.drop tag)
      t.answer h 17#8 .ok (.count t.houses.table.length)

/-- ENTRY_DROP. -/
def execEntryDrop (h : Header) (b : Payload TagId) (s : State) : Host.Outcome State Fault Refusal :=
  .next (s.request h (.entryDrop b) b (State.takeEntryDrop h))

/-- ENTRY_GET at the table (R127, R197, log 27). -/
def State.takeEntryGet (h : Header) (f : EntryGetFields) (s : State) : State :=
  let answer := fun (e : Option Entry) => match e with
    | some e => s.answer h 18#8 .ok (.entry e)
    | none => s.answer h 18#8 .notFound .empty
  match f.form.toNat with
  | 0 => answer (s.houses.find f.tag)
  | 1 => answer s.houses.table.head?
  | 2 => answer (s.houses.after f.tag)
  | _ => s.answer h 18#8 .malformed .empty

/-- ENTRY_GET. -/
def execEntryGet (h : Header) (b : Payload EntryGetFields) (s : State) : Host.Outcome State Fault Refusal :=
  .next (s.request h (.entryGet b) b (State.takeEntryGet h))

/-- TABLE_CLEAR at the table (R128). -/
def State.takeTableClear (h : Header) (s : State) : State :=
  if s.houses.table.any Entry.pinned then s.answer h 19#8 .entryPinned .empty
  else (s.setHouses { s.houses with table := [], loaded := false }).answer h 19#8 .ok .empty

/-- TABLE_CLEAR. -/
def execTableClear (h : Header) (b : Payload Unit) (s : State) : Host.Outcome State Fault Refusal :=
  .next (s.request h (.tableClear b) b fun _ t => t.takeTableClear h)

/-- TABLE_READY at the table (R128). -/
def State.takeTableReady (h : Header) (s : State) : State :=
  (s.setHouses { s.houses with loaded := true }).answer h 20#8 .ok (.count s.houses.table.length)

/-- TABLE_READY. -/
def execTableReady (h : Header) (b : Payload Unit) (s : State) : Host.Outcome State Fault Refusal :=
  .next (s.request h (.tableReady b) b fun _ t => t.takeTableReady h)

/-! ## The clock (R180) -/

/-- TIME_SET at the Interlocks (R180). -/
def State.takeTimeSet (h : Header) (w : Word32) (s : State) : State :=
  if w = allOnes32 then s.answer h 23#8 .malformed .empty
  else (s.setInter { s.inter with seconds := w.toNat, timeValid := true }).answer h 23#8 .ok .empty

/-- TIME_SET. -/
def execTimeSet (h : Header) (b : Payload Word32) (s : State) : Host.Outcome State Fault Refusal :=
  .next (s.request h (.timeSet b) b (State.takeTimeSet h))

/-! ## The slot map (R62) -/

/-- No name stands twice in a list. -/
def distinct {α : Type} [DecidableEq α] : List α → Bool
  | [] => true
  | x :: r => !r.contains x && distinct r

/-- A list of 1 to 4 pairs in range, no slot named twice (R62, log 27). -/
def slotListOk (l : List (Byte × Byte)) : Bool :=
  decide (1 ≤ l.length) && decide (l.length ≤ 4) && l.all (fun e => decide (e.1.toNat ≤ 3) && decide (e.2.toNat ≤ 15))
    && distinct (l.map Prod.fst)

/-- SLOT_MAP (R62). -/
def State.takeSlotMap (h : Header) (l : List (Byte × Byte)) (s : State) : State :=
  if slotListOk l then
    let m := l.foldl (fun m e => m.put e.1.toNat e.2.toNat) s.slotMap
    (s.setSlotMap m).answer h 24#8 .ok (.slots m)
  else s.answer h 24#8 .malformed .empty

/-- SLOT_MAP. -/
def execSlotMap (h : Header) (b : Payload (List (Byte × Byte))) (s : State) : Host.Outcome State Fault Refusal :=
  .next (s.request h (.slotMap b) b (State.takeSlotMap h))

/-! ## Settings (R191) -/

/-- The pairs of a SETTING_PUT by name; none when it is malformed (R191, log 27). -/
def settingPairs (l : List (Byte × BitVec 16)) : Option (List (Setting × Nat)) :=
  let pairs := l.filterMap fun e => (settingOf e.1).map fun k => (k, e.2.toNat)
  if 1 ≤ l.length ∧ l.length ≤ 8 ∧ pairs.length = l.length ∧ distinct (pairs.map Prod.fst)
      ∧ pairs.all (fun e => !e.1.enumerated || decide (e.2 ≤ e.1.range.2)) then some pairs
  else none

/-- The settings with every pair applied, each numeric value brought to its nearer bound (R191). -/
def Settings.apply (x : Settings) (l : List (Setting × Nat)) : Settings :=
  l.foldl (fun x e => x.put e.1 (e.1.clamp e.2)) x

/-- Settings taken into use: statuses, due pack cycles, the available flow (R66, R137, R141, R191). The manual is silent on a
put that changes both statuses; the model's own choice is one handover for each compartment, A first, so that two PAYLOADs go
out, the first with B's status as it was (R179, log 47). While STARTING the statuses are recomputed from the totals held
(log 52). -/
def State.useSettings (s : State) (l : List (Setting × Nat)) : State :=
  let names := l.map Prod.fst
  let t := if names.contains .limitA || names.contains .limitB || names.contains .fullStrokes then
      (s.recompute .a).recompute .b
    else s
  let t := if names.contains .packAfter then t.testDueAll else t
  (if names.contains .idleRpm || names.contains .displacement then t.recomputeQa else t).refresh

/-- An accepted SETTING_PUT: applied together, the block dirty, a settings write started (R190, R191). -/
def State.applySettings (s : State) (l : List (Setting × Nat)) : State :=
  (s.setSettings (SettingsBlock.startWrite
    { s.settings with inForce := s.settings.inForce.apply l, dirty := true })).useSettings l

/-- SETTING_PUT at the settings block (R191). -/
def State.takeSettingPut (h : Header) (l : List (Byte × BitVec 16)) (s : State) : State :=
  if s.settings.reading then s.answer h 25#8 .busy .empty
  else match settingPairs l with
    | none => s.answer h 25#8 .malformed .empty
    | some pairs =>
      let t := s.applySettings pairs
      let values := pairs.map fun e => (e.1, t.settings.inForce.value e.1)
      if pairs.all fun e => e.1.clamp e.2 == e.2 then t.answer h 25#8 .ok (.settings values)
      else t.answer h 25#8 .clamped (.settings values)

/-- SETTING_PUT. -/
def execSettingPut (h : Header) (b : Payload (List (Byte × BitVec 16))) (s : State) :
    Host.Outcome State Fault Refusal :=
  .next (s.request h (.settingPut b) b (State.takeSettingPut h))

/-- SETTING_GET at the settings block (R191). -/
def State.takeSettingGet (h : Header) (b : Byte) (s : State) : State :=
  let x := s.settings
  let answer := fun (l : List Setting) =>
    s.answer h 26#8 .ok (.settingsAll (l.map fun k => (k, x.inForce.value k)) x.origin x.write.isSome)
  if x.reading then s.answer h 26#8 .busy .empty
  else if b = 255#8 then answer allSettings
  else match settingOf b with
    | some k => answer [k]
    | none => s.answer h 26#8 .malformed .empty

/-- SETTING_GET. -/
def execSettingGet (h : Header) (b : Payload Byte) (s : State) : Host.Outcome State Fault Refusal :=
  .next (s.request h (.settingGet b) b (State.takeSettingGet h))

end Sys2Proof.Machine
end

