-- ==== Sys2Proof/Machine/Locking.lean ====
section
/-! DEFINITION. Requests to the Metrology Lock, and LIVE_WEIGHT (R98, R102 to R111, R116, R118). -/

namespace Sys2Proof.Machine

/-- A request to the lock: BUSY until its items are read (R101, log 29). -/
def State.lockRequest (s : State) (h : Header) (kind : Byte) (t : State) : State :=
  if s.lock.reading then s.answer h kind .busy .empty else t

/-- A request that is taken only while the lock is OPEN: LOCKED or FROZEN otherwise (R102). -/
def State.openRequest (s : State) (h : Header) (kind : Byte) (t : State) : State :=
  s.lockRequest h kind <| match lockRefusal s.lock.state with
    | some code => s.answer h kind code .empty
    | none => t

/-- A request that a metrology write in flight turns away (R110). -/
def State.unlessWriting (s : State) (h : Header) (kind : Byte) (t : State) : State :=
  if s.lock.write.isSome then s.answer h kind .busy .empty else t

/-! ## The lock state (R102 to R104, R111) -/

/-- FREEZE_LOCK at the lock (R102). -/
def State.takeFreeze (h : Header) (s : State) : State :=
  s.lockRequest h 27#8 <| match s.lock.state with
    | .opened => s.answer h 27#8 .wrongState .empty
    | .locked | .frozen => (s.setLock { s.lock with state := .frozen }).answer h 27#8 .ok .empty

/-- FREEZE_LOCK. -/
def execFreezeLock (h : Header) (b : Payload Unit) (s : State) : Host.Outcome State Fault Refusal :=
  .next (s.request h (.freezeLock b) b fun _ t => t.takeFreeze h)

/-- The code identities (R103). -/
inductive Identity where
  | inspector
  | maker
  deriving DecidableEq, Repr

/-- An identity's code (R197). -/
def identityOf (b : Byte) : Option Identity :=
  match b.toNat with
  | 0 => some .inspector
  | 1 => some .maker
  | _ => none

/-- The code equals that of the named identity (R103 check 5). -/
def Lock.codeMatches (x : Lock) (i : Identity) (c : LockCode) : Bool :=
  match i with
  | .inspector => x.code == some c
  | .maker => c == Config.makerCode

/-- The lock after a failed attempt (R104). -/
def Lock.failAttempt (x : Lock) : Lock :=
  let n := x.failed + 1
  { x with failed := n, state := if Config.failedLimit ≤ n then .frozen else x.state }

/-- The lock after an accepted OPEN_LOCK; a maker open at MAXIMUM starts a maker write (R104, R109). -/
def Lock.opens (x : Lock) (i : Identity) : Lock :=
  let t := { x with failed := 0, state := .opened }
  match i, x.level with
  | .maker, .maximum =>
    { t with code := none, level := .high, cal := if x.cal = .valid then .unverified else x.cal,
             write := some (.maker (x.cal == .valid)) }
  | _, _ => t

/-- OPEN_LOCK at the lock (R103, R104). -/
def State.takeOpen (h : Header) (f : OpenLockFields) (s : State) : State :=
  s.lockRequest h 32#8 <| match identityOf f.identity with
    | none => s.answer h 32#8 .malformed .empty
    | some i =>
      match s.lock.state with
      | .frozen => s.answer h 32#8 .frozen .empty
      | .opened => s.answer h 32#8 .wrongState .empty
      | .locked =>
        if !s.pins.lockWireOpen then s.answer h 32#8 .wireIntact .empty
        else if s.lcc.phase ≠ .idle then s.answer h 32#8 .busy .empty
        else if !s.stationary then s.answer h 32#8 .speed .empty
        else if s.lock.codeMatches i f.code then (s.setLock (s.lock.opens i)).answer h 32#8 .ok .empty
        else (s.setLock s.lock.failAttempt).answer h 32#8 .codeMismatch .empty

/-- OPEN_LOCK, with the level of LOCK_WIRE (log 5). -/
def execOpenLock (h : Header) (b : Payload OpenLockFields) (wireOpen : Bool) (s : State) :
    Host.Outcome State Fault Refusal :=
  .next ((s.setPins { s.pins with lockWireOpen := wireOpen }).request h (.openLock b) b (State.takeOpen h))

/-- CLOSE_LOCK at the lock (R111). -/
def State.takeClose (h : Header) (s : State) : State :=
  s.lockRequest h 33#8 <|
    if s.lock.state ≠ .opened then s.answer h 33#8 .wrongState .empty
    else s.unlessWriting h 33#8 <|
      if s.lock.trial then s.answer h 33#8 .trialPending .empty
      else match s.lock.cal with
        | .valid | .invalid => (s.setLock { s.lock with state := .locked }).answer h 33#8 .ok .empty
        | .unverified => (s.setLock { s.lock.eraseBlockCheck with write := some .verify }).defer h 33#8

/-- CLOSE_LOCK. -/
def execCloseLock (h : Header) (b : Payload Unit) (s : State) : Host.Outcome State Fault Refusal :=
  .next (s.request h (.closeLock b) b fun _ t => t.takeClose h)

/-! ## Codes (R105) -/

/-- An access level's code (R197). -/
def levelOf (b : Byte) : Option AccessLevel :=
  match b.toNat with
  | 0 => some .high
  | 1 => some .maximum
  | _ => none

/-- SET_CODE at the lock (R105). Its MALFORMED comes before LOCKED, FROZEN and BUSY, an order that the model chose (log 50). -/
def State.takeSetCode (h : Header) (f : SetCodeFields) (s : State) : State :=
  s.lockRequest h 34#8 <| match levelOf f.level with
    | none => s.answer h 34#8 .malformed .empty
    | some level =>
      if f.code = BitVec.allOnes 256 then s.answer h 34#8 .malformed .empty
      else s.openRequest h 34#8 <| s.unlessWriting h 34#8 <|
        (s.setLock { s.lock.eraseCodeCheck with write := some (.code f.code level) }).defer h 34#8

/-- SET_CODE. -/
def execSetCode (h : Header) (b : Payload SetCodeFields) (s : State) : Host.Outcome State Fault Refusal :=
  .next (s.request h (.setCode b) b (State.takeSetCode h))

/-! ## Trial values (R106, R107) -/

/-- The pairs of a TRIAL_SET by name: 1 to 9, each a parameter, none twice (R106). -/
def trialPairs (l : List (Byte × Word32)) : Option (List (Param × Int)) :=
  let pairs := l.filterMap fun e => (paramOf e.1).map fun k => (k, e.2.toInt)
  if 1 ≤ l.length ∧ l.length ≤ 9 ∧ pairs.length = l.length ∧ distinct (pairs.map Prod.fst) then some pairs else none

/-- The working set with every pair applied (R106). -/
def Params.apply (x : Params) (l : List (Param × Int)) : Params := l.foldl (fun x e => x.put e.1 e.2) x

/-- The working set replaced; a change of Max bounds Zt (R88, R106, R107). -/
def State.setWorking (s : State) (p : Params) : State :=
  let t := s.setLock { s.lock with working := p }
  if p.max = s.lock.working.max then t else t.setWeigh { t.weigh with zt := boundZero p.max t.weigh.zt }

/-- TRIAL_SET at the lock (R106). -/
def State.takeTrialSet (h : Header) (l : List (Byte × Word32)) (s : State) : State :=
  s.openRequest h 35#8 <| s.unlessWriting h 35#8 <| match trialPairs l with
    | none => s.answer h 35#8 .malformed .empty
    | some pairs =>
      let p := s.lock.working.apply pairs
      if p.inRange then (s.setWorking p).answer h 35#8 .ok (.params p) else s.answer h 35#8 .malformed .empty

/-- TRIAL_SET. -/
def execTrialSet (h : Header) (b : Payload (List (Byte × Word32))) (s : State) : Host.Outcome State Fault Refusal :=
  .next (s.request h (.trialSet b) b (State.takeTrialSet h))

/-- TRIAL_DISCARD at the lock (R107). -/
def State.takeTrialDiscard (h : Header) (s : State) : State :=
  s.openRequest h 36#8 <| s.unlessWriting h 36#8 <| (s.setWorking s.lock.reference).answer h 36#8 .ok .empty

/-- TRIAL_DISCARD. -/
def execTrialDiscard (h : Header) (b : Payload Unit) (s : State) : Host.Outcome State Fault Refusal :=
  .next (s.request h (.trialDiscard b) b fun _ t => t.takeTrialDiscard h)

/-! ## COMMIT (R108) -/

/-- A commit write started from the working set and the shadow's profile check (R108). -/
def State.startCommit (s : State) (check : Word32) : State :=
  s.setLock { s.lock.eraseBlockCheck with
    write := some (.commit s.lock.working check (changedMask s.lock (some check))) }

/-- COMMIT at the lock (R108). -/
def State.takeCommit (h : Header) (s : State) : State :=
  s.openRequest h 37#8 <| s.unlessWriting h 37#8 <|
    if 65535 ≤ s.lock.cec then s.answer h 37#8 .counterExhausted .empty
    else match s.shadow.state, s.shadow.check with
      | .ready, some check =>
        if s.journal.starting then s.answer h 37#8 .busy .empty
        else if s.journal.canGrant then (s.grant.startCommit check).defer h 37#8
        else s.answer h 37#8 .journalFull .empty
      | _, _ => s.answer h 37#8 .shadowNotReady .empty

/-- COMMIT. -/
def execCommit (h : Header) (b : Payload Unit) (s : State) : Host.Outcome State Fault Refusal :=
  .next (s.request h (.commit b) b fun _ t => t.takeCommit h)

/-! ## Weighing health (R98, R116, R118) -/

/-- Zt set by hand to the zero point, ZERO_HEALTH cleared (R88, R116). -/
def State.zeroByHand (s : State) (point : Int) : State :=
  let zt := boundZero s.lock.working.max point
  (s.setWeigh { s.weigh with zt := zt }).setLock { s.lock with zero := ⟨0, false, some zt⟩ }

/-- SERVICE_ZERO at the lock (R116). -/
def State.takeServiceZero (h : Header) (s : State) : State :=
  s.openRequest h 38#8 <| match s.lock.zero.point with
    | none => s.answer h 38#8 .wrongState .empty
    | some point => (s.zeroByHand point).answer h 38#8 .ok (.grams (s.zeroByHand point).weigh.zt)

/-- SERVICE_ZERO. -/
def execServiceZero (h : Header) (b : Payload Unit) (s : State) : Host.Outcome State Fault Refusal :=
  .next (s.request h (.serviceZero b) b fun _ t => t.takeServiceZero h)

/-- LIVE_WEIGHT (R98). -/
def execLiveWeight (h : Header) (b : Payload Unit) (s : State) : Host.Outcome State Fault Refusal :=
  .next (s.request h (.liveWeight b) b fun _ t => t.answer h 39#8 .ok (.live t.liveWeight))

/-- ATTR_READ at the lock (R118). -/
def State.takeAttrRead (h : Header) (s : State) : State :=
  s.lockRequest h 40#8 (s.answer h 40#8 .ok (.attrs s.attrData))

/-- ATTR_READ. -/
def execAttrRead (h : Header) (b : Payload Unit) (s : State) : Host.Outcome State Fault Refusal :=
  .next (s.request h (.attrRead b) b fun _ t => t.takeAttrRead h)

end Sys2Proof.Machine
end

