-- ==== Sys2Proof/Machine/Profiles.lean ====
section
/-! DEFINITION. The calibration tool's requests to the profile store and the shadow (R52 to R57). -/

namespace Sys2Proof.Machine

/-- A store request: BUSY until the start-up verification is done (R51, log 29). -/
def State.storeRequest (s : State) (h : Header) (kind : Byte) (t : State) : State :=
  if s.store.verifying then s.answer h kind .busy .empty else t

/-- The checks of R52 on an accepted form: the lock OPEN, the store free; then the work starts (R52, R53, R54). -/
def State.startStoreJob (s : State) (h : Header) (kind : Byte) (j : StoreJob) : State :=
  if s.lock.state ≠ .opened then s.answer h kind .locked .empty
  else if s.storeFree then (s.setStore (s.store.begin j)).defer h kind
  else s.answer h kind .busy .empty

/-- The place and words of a PROFILE_WRITE that passes checks 1 and 2 of R52. -/
def writeOf (f : ProfileWriteFields) : Option StoreJob :=
  match areaOf f.area with
  | none => none
  | some a =>
    if 1 ≤ f.words.length ∧ f.words.length ≤ 12 ∧ f.offset.toNat + f.words.length ≤ a.size ∧ f.words.all (wordOk a) then
      some (.write (a.base + f.offset.toNat) f.words)
    else none

/-- PROFILE_WRITE at the store (R52, R53). -/
def State.takeProfileWrite (h : Header) (f : ProfileWriteFields) (s : State) : State :=
  s.storeRequest h 41#8 <| match writeOf f with
    | none => s.answer h 41#8 .malformed .empty
    | some j => s.startStoreJob h 41#8 j

/-- PROFILE_WRITE. -/
def execProfileWrite (h : Header) (b : Payload ProfileWriteFields) (s : State) : Host.Outcome State Fault Refusal :=
  .next (s.request h (.profileWrite b) b (State.takeProfileWrite h))

/-- What a PROFILE_ERASE names: all eight areas or one; none for any other name (R54, R197). -/
def eraseOf (b : Byte) : Option StoreJob :=
  if b = 255#8 then some (.erase none) else (areaOf b).map fun a => .erase (some a)

/-- PROFILE_ERASE at the store (R54). -/
def State.takeProfileErase (h : Header) (b : Byte) (s : State) : State :=
  s.storeRequest h 42#8 <| match eraseOf b with
    | none => s.answer h 42#8 .malformed .empty
    | some j => s.startStoreJob h 42#8 j

/-- PROFILE_ERASE. -/
def execProfileErase (h : Header) (b : Payload Byte) (s : State) : Host.Outcome State Fault Refusal :=
  .next (s.request h (.profileErase b) b (State.takeProfileErase h))

/-- Checks 1 to 4 of R56. -/
def State.mayLoad (s : State) : Bool :=
  s.lcc.phase == .idle
    && allChannels.all (fun c => !s.hasChannel c || (s.chans.get c).state == .idle)
    && [Compartment.a, .b].all (fun c => !s.hasComp c || (s.comps.comp c).stage == .rest)
    && s.storeFree

/-- SHADOW_LOAD at the shadow (R56). -/
def State.takeShadowLoad (h : Header) (s : State) : State :=
  s.storeRequest h 43#8 <|
    if !s.mayLoad then s.answer h 43#8 .busy .empty
    else if s.store.state = .invalid then s.answer h 43#8 .storeInvalid .empty
    else (s.setShadow Shadow.loading).defer h 43#8

/-- SHADOW_LOAD. -/
def execShadowLoad (h : Header) (b : Payload Unit) (s : State) : Host.Outcome State Fault Refusal :=
  .next (s.request h (.shadowLoad b) b fun _ t => t.takeShadowLoad h)

end Sys2Proof.Machine
end

