-- ==== Sys2Proof/Machine/Completions.lean ====
section
/-! DEFINITION. The completions of the part's own memory work (R53, R54, R57, R108, R109, R111, R160, R162, R165, R190). A
completion with no such work in flight has no effect (log 3). -/

namespace Sys2Proof.Machine

/-- A store write completed: the words, the new check, VALID, the answer (R53). -/
def State.finishProfileWrite (s : State) : State :=
  match s.store.job with
  | some (.write base ws) =>
    let t := s.setStore (s.store.settle (writeCells erasedWord s.store.words base ws))
    t.answerDeferred .service 41#8 .ok (.check (t.store.check.getD 0#32))
  | _ => s

/-- PROFILE_WRITE_DONE. -/
def execProfileWriteDone (s : State) : Host.Outcome State Fault Refusal := .next s.finishProfileWrite

/-- A store erase completed: the erased values, the new check, VALID, the answer (R54). -/
def State.finishProfileErase (s : State) : State :=
  match s.store.job with
  | some (.erase area) =>
    let t := s.setStore (s.store.settle (eraseWords s.store.words area))
    t.answerDeferred .service 42#8 .ok (.check (t.store.check.getD 0#32))
  | _ => s

/-- PROFILE_ERASE_DONE. -/
def execProfileEraseDone (s : State) : Host.Outcome State Fault Refusal := .next s.finishProfileErase

/-- A shadow load completed, timers STOPPED and the sharing made afresh: READY with its check, due packs tested; or INVALID
with the store (R57, R65, R67, R141). -/
def State.finishShadowLoad (s : State) : State :=
  match s.shadow.state with
  | .loading =>
    match s.finishLoad with
    | (t, true) =>
      (t.testDueAll.refresh).answerDeferred .service 43#8 .ok (.check (t.shadow.check.getD 0#32))
    | (t, false) => t.refresh.answerDeferred .service 43#8 .storeInvalid .empty
  | .invalid | .ready => s

/-- SHADOW_LOAD_DONE. -/
def execShadowLoadDone (s : State) : Host.Outcome State Fault Refusal := .next s.finishShadowLoad

/-- The lock at the completion of stage 3 of a commit write (R108). -/
def Lock.committed (x : Lock) (p : Params) (check : Word32) : Lock :=
  { x with
    cec := x.cec + 1, cal := .unverified, reference := p, lockedCheck := some check, write := some .counter,
    block := storedBlock p (some check) .unverified (x.cec + 1) }

/-- The CALIBRATION record (R108). -/
def State.calibrationRecord (s : State) (mask : Word32) : Record :=
  { s.blankRecord .calibration with
    flags := mask, time := if s.inter.timeValid then some s.recordTime else none }

/-- A commit completed: CEC, calibration, reference set, record, engine, answer (R96, R108). -/
def State.finishCommit (s : State) : State :=
  match s.lock.write with
  | some (.commit p check mask) =>
    let t := s.setLock (s.lock.committed p check)
    let t := (t.stage (t.calibrationRecord mask)).testEnable
    t.answerDeferred .service 37#8 .ok (.cec t.lock.cec)
  | _ => s

/-- COMMIT_WRITE_DONE. -/
def execCommitWriteDone (s : State) : Host.Outcome State Fault Refusal := .next s.finishCommit

/-- COUNTER_WRITE_DONE: the counter cell holds the CEC (R108 stage 4). -/
def execCounterWriteDone (s : State) : Host.Outcome State Fault Refusal :=
  .next (match s.lock.write with
    | some .counter => s.setLock { s.lock with write := none, counterCell := s.lock.cec }
    | _ => s)

/-- The lock at the completion of a verify write; the block keeps its CEC copy (R100, R111). -/
def Lock.verified (x : Lock) : Lock :=
  { x with
    cal := .valid, state := .locked, write := none,
    block := storedBlock x.reference x.lockedCheck .valid (blockCec x.block.contents) }

/-- VERIFY_WRITE_DONE (R111). -/
def execVerifyWriteDone (s : State) : Host.Outcome State Fault Refusal :=
  .next (match s.lock.write with
    | some .verify => (s.setLock s.lock.verified).answerDeferred .service 33#8 .ok .empty
    | _ => s)

/-- The lock at the completion of a maker write: the code record and, where it covers it, the block (R109). -/
def Lock.makerDone (x : Lock) (withBlock : Bool) : Lock :=
  { x with
    write := none, codeRecord := ⟨none, .high, true⟩,
    block := if withBlock then storedBlock x.reference x.lockedCheck .unverified (blockCec x.block.contents) else x.block }

/-- MAKER_WRITE_DONE (R109). -/
def execMakerWriteDone (s : State) : Host.Outcome State Fault Refusal :=
  .next (match s.lock.write with
    | some (.maker withBlock) => s.setLock (s.lock.makerDone withBlock)
    | _ => s)

/-- The lock at the completion of a code write (R105, R109). -/
def Lock.codeDone (x : Lock) (c : LockCode) (level : AccessLevel) : Lock :=
  { x with write := none, code := some c, level := level, codeRecord := ⟨some c, level, true⟩ }

/-- CODE_WRITE_DONE (R105). -/
def execCodeWriteDone (s : State) : Host.Outcome State Fault Refusal :=
  .next (match s.lock.write with
    | some (.code c level) => (s.setLock (s.lock.codeDone c level)).answerDeferred .service 34#8 .ok .empty
    | _ => s)

/-- SETTINGS_WRITE_DONE (R190). -/
def execSettingsWriteDone (s : State) : Host.Outcome State Fault Refusal :=
  .next (match s.settings.write with
    | some w => s.setSettings (s.settings.finishWrite w)
    | none => s)

/-- RECORD_WRITE_DONE (R160). -/
def execRecordWriteDone (s : State) : Host.Outcome State Fault Refusal := .next (s.setJournal s.journal.finishWrite)

/-- SECTOR_ERASE_DONE (R162). -/
def execSectorEraseDone (s : State) : Host.Outcome State Fault Refusal := .next (s.setJournal s.journal.finishErase)

/-- RELEASE_WRITE_DONE: the mark, the reclaim tests, the answer (R165). -/
def execReleaseWriteDone (s : State) : Host.Outcome State Fault Refusal :=
  .next (match s.journal.release with
    | some w =>
      let t := s.setJournal (s.journal.finishRelease w)
      t.answerDeferred .body 22#8 (if w.clamped then .clamped else .ok) (.count t.journal.unreleased)
    | none => s)

end Sys2Proof.Machine
end

