-- ==== Sys2Proof/Machine/Motion.lean ====
section
/-! DEFINITION. STEP_EXPIRY (R30, R31), the coils' commands (R65, R70, R71) and the Weigh Engine's inputs (R76, R144). -/

namespace Sys2Proof.Machine

/-- STEP_EXPIRY: the channel's step with the present sensor values; nothing with its timer stopped (R30, R31, log 3, log 5). -/
def execStepExpiry (c : Channel) (x : Sensors) (s : State) : Host.Outcome State Fault Refusal :=
  .next (match (s.chans.get c).state with
    | .run _ => if s.hasChannel c then ((s.setPins { s.pins with sensors := x }).expire c).refresh else s
    | .idle | .paused | .fault => s)

/-- A coil of a present channel whose group's timer is RUNNING (R64, R65). -/
def State.coilRuns (s : State) (c : Channel) : Bool := s.hasChannel c && s.drive.timerOf c

/-- COIL_PERIOD_START: the period that ends tested for OPEN, the duty computed taken up (R65, R70). -/
def execCoilPeriodStart (c : Channel) (d : Side) (meanCurrent : Nat) (s : State) : Host.Outcome State Fault Refusal :=
  .next (if s.coilRuns c then
      if (s.coil c d).isOpen meanCurrent then s.coilFault c ⟨d, .openCircuit⟩ else s.setCoil c d (s.coil c d).begin
    else s)

/-- COIL_ON_TIME_END: the output goes OFF (R65). -/
def execCoilOnTimeEnd (c : Channel) (d : Side) (s : State) : Host.Outcome State Fault Refusal :=
  .next (if s.coilRuns c then s.setCoil c d { s.coil c d with driven := false } else s)

/-- COIL_SHORT: a current above 4,500 mA in a present coil (R70). -/
def execCoilShort (c : Channel) (d : Side) (current : Nat) (s : State) : Host.Outcome State Fault Refusal :=
  .next (if s.hasChannel c && decide (Config.shortCurrent < current) then s.coilFault c ⟨d, .shortCircuit⟩ else s)

/-- SAMPLE_PAIR: worked while the engine is ENABLED (R77, R95). -/
def execSamplePair (cA cB : BitVec 24) (s : State) : Host.Outcome State Fault Refusal :=
  .next (if s.weigh.enabled then s.workPair cA cB else s)

/-- INCLINOMETER_READING: the reading in force, FRESH (R76). -/
def execInclinometerReading (pitch roll : Int) (s : State) : Host.Outcome State Fault Refusal :=
  .next (s.setWeigh { s.weigh with reading := ⟨pitch, roll, true⟩ })

/-- INCLINOMETER_STALE: the reading keeps its angles and is STALE (R76). -/
def execInclinometerStale (s : State) : Host.Outcome State Fault Refusal :=
  .next (s.setWeigh { s.weigh with reading := { s.weigh.reading with fresh := false } })

/-- The pressure input of a packer. -/
def State.setPressure (s : State) (c : Compartment) (p : Nat) : State :=
  match c with
  | .a => s.setPins { s.pins with packAPressure := p }
  | .b => s.setPins { s.pins with packBPressure := p }

/-- A pressure reading taken into the open stroke of a compartment in COMPRESS whose channel is not PAUSED (R144). -/
def State.readPressure (s : State) (c : Compartment) (p : Nat) : State :=
  let x := s.comps.comp c
  match x.stroke with
  | some k =>
    if x.stage = .compress ∧ (s.chans.get c.packer).state ≠ .paused then
      s.setComp c { x with stroke := some (k.read p s.settings.inForce.packFullPressure) }
    else s
  | none => s

/-- PRESSURE_READING (R42, R144). -/
def execPressureReading (c : Compartment) (pressure : Nat) (s : State) : Host.Outcome State Fault Refusal :=
  .next (if s.hasComp c then (s.setPressure c pressure).readPressure c pressure else s)

end Sys2Proof.Machine
end

