-- ==== Sys2Proof/Machine/Inputs.lean ====
section
/-! DEFINITION. CHASSIS_STATE and the Interlocks' own events (R173 to R180). -/

namespace Sys2Proof.Machine

/-- The parking brake of a report: any byte but 0 and 1 is unknown (R174, R196). -/
def brakeOf (b : Byte) : Option Bool :=
  match b.toNat with
  | 0 => some false
  | 1 => some true
  | _ => none

/-- CHASSIS_STATE at the Interlocks (R174). -/
def State.takeChassis (f : ChassisFields) (s : State) : State :=
  let t := s.setInter { s.inter with
    report := ⟨presentField f.speed, presentField f.rpm, brakeOf f.brake, some s.settings.inForce.liftSpeedLimit⟩,
    silenceTimer := some Config.silenceMs, present := true, reported := true }
  ((t.recomputeSpeed (!s.inter.reported)).recomputeQa).refresh

/-- CHASSIS_STATE. -/
def execChassisState (h : Header) (b : Payload ChassisFields) (s : State) : Host.Outcome State Fault Refusal :=
  .next (s.request h (.chassisState b) b State.takeChassis)

/-- The chassis becomes SILENT (R175). -/
def State.chassisSilent (s : State) : State :=
  let t := s.setInter { s.inter with
    report := { s.inter.report with speed := none }, silenceTimer := none, present := false }
  (((t.recomputeQa).recomputeSpeed false).alert .chassisSilent).refresh

/-- SILENCE_EXPIRY: nothing with the timer stopped (R175, log 3). -/
def execSilenceExpiry (s : State) : Host.Outcome State Fault Refusal :=
  .next (if s.inter.silenceTimer.isSome then s.chassisSilent else s)

/-- The permit becomes EXPIRED (R173). -/
def State.expirePermit (s : State) : State :=
  let t := s.setInter { s.inter with permitHeld := false, permitTimer := none }
  ((t.addCause .permit).packersExpired).refresh

/-- PERMIT_EXPIRY: nothing with the timer stopped (R173, log 3). -/
def execPermitExpiry (s : State) : Host.Outcome State Fault Refusal :=
  .next (if s.inter.permitTimer.isSome then s.expirePermit else s)

/-- A new level of PTO_ENGAGED handed on (R177). -/
def State.changePto (s : State) (on : Bool) : State :=
  let t := s.setInter { s.inter with pto := on }
  if on then (((t.removeCause .pto).packersPtoOn).testDueAll).refresh
  else ((t.addCause .pto).packersPtoOff).refresh

/-- PTO_CHANGE: a level that is not new changes nothing (R177, log 3). -/
def execPtoChange (on : Bool) (s : State) : Host.Outcome State Fault Refusal :=
  .next (if s.inter.pto = on then s else s.changePto on)

/-- A watched input's level taken, and the alarm at a change away from its latched level (R178). -/
def State.watchInput (s : State) (w : WatchedInput) (level : Bool) : State :=
  let t := s.setPins { s.pins with levels := s.pins.levels.putLevel w level }
  match s.inter.snapshot with
  | some l => if s.latches w && level != l.level w then t.raiseAlarm else t
  | none => t

/-- WATCHED_INPUT_CHANGE (R178). -/
def execWatchedInputChange (w : WatchedInput) (level : Bool) (s : State) : Host.Outcome State Fault Refusal :=
  .next (s.watchInput w level)

/-- PAYLOAD_TIMER_EXPIRY (R179). -/
def execPayloadTimerExpiry (s : State) : Host.Outcome State Fault Refusal := .next s.emitPayload

/-- SECOND_TICK (R180). -/
def execSecondTick (s : State) : Host.Outcome State Fault Refusal :=
  .next (s.setInter { s.inter with seconds := raiseSat maxCount32 s.inter.seconds })

end Sys2Proof.Machine
end

