-- ==== Sys2Proof/Machine/Dispatch.lean ====
section
/-! DEFINITION. The meaning of every command: one arm for each row of the table of steps. -/

namespace Sys2Proof.Machine

/-- A command's effect on everything but the queue of commands. -/
def exec (i : Instr) (s : State) : Host.Outcome State Fault Refusal :=
  match i with
  | .fullReset strapGrounded ptoEngaged => Sys2Proof.Machine.execFullReset strapGrounded ptoEngaged s
  | .settingsReadDone => Sys2Proof.Machine.execSettingsReadDone s
  | .metrologyReadDone => Sys2Proof.Machine.execMetrologyReadDone s
  | .storeVerifyDone => Sys2Proof.Machine.execStoreVerifyDone s
  | .journalScanDone => Sys2Proof.Machine.execJournalScanDone s
  | .frameArrival f => Sys2Proof.Machine.execFrameArrival f s
  | .unknownKind h kind => Sys2Proof.Machine.execUnknownKind h kind s
  | .messageSent p => Sys2Proof.Machine.execMessageSent p s
  | .serviceByteGap l => Sys2Proof.Machine.execServiceByteGap l s
  | .tagLineBreak => Sys2Proof.Machine.execTagLineBreak s
  | .busOff p => Sys2Proof.Machine.execBusOff p s
  | .linkReset p => Sys2Proof.Machine.execLinkReset p s
  | .lift h b => Sys2Proof.Machine.execLift h b s
  | .permit h b => Sys2Proof.Machine.execPermit h b s
  | .resume h b => Sys2Proof.Machine.execResume h b s
  | .abort h b => Sys2Proof.Machine.execAbort h b s
  | .cycleClear h b => Sys2Proof.Machine.execCycleClear h b s
  | .pack h b => Sys2Proof.Machine.execPack h b s
  | .unload h b => Sys2Proof.Machine.execUnload h b s
  | .abortUnload h b => Sys2Proof.Machine.execAbortUnload h b s
  | .faultClear h b => Sys2Proof.Machine.execFaultClear h b s
  | .statusGet h b => Sys2Proof.Machine.execStatusGet h b s
  | .entryPut h b => Sys2Proof.Machine.execEntryPut h b s
  | .entryDrop h b => Sys2Proof.Machine.execEntryDrop h b s
  | .entryGet h b => Sys2Proof.Machine.execEntryGet h b s
  | .tableClear h b => Sys2Proof.Machine.execTableClear h b s
  | .tableReady h b => Sys2Proof.Machine.execTableReady h b s
  | .journalRead h b => Sys2Proof.Machine.execJournalRead h b s
  | .journalRelease h b => Sys2Proof.Machine.execJournalRelease h b s
  | .timeSet h b => Sys2Proof.Machine.execTimeSet h b s
  | .slotMap h b => Sys2Proof.Machine.execSlotMap h b s
  | .settingPut h b => Sys2Proof.Machine.execSettingPut h b s
  | .settingGet h b => Sys2Proof.Machine.execSettingGet h b s
  | .freezeLock h b => Sys2Proof.Machine.execFreezeLock h b s
  | .openLock h b wireOpen => Sys2Proof.Machine.execOpenLock h b wireOpen s
  | .closeLock h b => Sys2Proof.Machine.execCloseLock h b s
  | .setCode h b => Sys2Proof.Machine.execSetCode h b s
  | .trialSet h b => Sys2Proof.Machine.execTrialSet h b s
  | .trialDiscard h b => Sys2Proof.Machine.execTrialDiscard h b s
  | .commit h b => Sys2Proof.Machine.execCommit h b s
  | .serviceZero h b => Sys2Proof.Machine.execServiceZero h b s
  | .liveWeight h b => Sys2Proof.Machine.execLiveWeight h b s
  | .attrRead h b => Sys2Proof.Machine.execAttrRead h b s
  | .profileWrite h b => Sys2Proof.Machine.execProfileWrite h b s
  | .profileErase h b => Sys2Proof.Machine.execProfileErase h b s
  | .shadowLoad h b => Sys2Proof.Machine.execShadowLoad h b s
  | .chassisState h b => Sys2Proof.Machine.execChassisState h b s
  | .tagSeen tag strength => Sys2Proof.Machine.execTagSeen tag strength s
  | .profileWriteDone => Sys2Proof.Machine.execProfileWriteDone s
  | .profileEraseDone => Sys2Proof.Machine.execProfileEraseDone s
  | .shadowLoadDone => Sys2Proof.Machine.execShadowLoadDone s
  | .commitWriteDone => Sys2Proof.Machine.execCommitWriteDone s
  | .counterWriteDone => Sys2Proof.Machine.execCounterWriteDone s
  | .verifyWriteDone => Sys2Proof.Machine.execVerifyWriteDone s
  | .makerWriteDone => Sys2Proof.Machine.execMakerWriteDone s
  | .codeWriteDone => Sys2Proof.Machine.execCodeWriteDone s
  | .settingsWriteDone => Sys2Proof.Machine.execSettingsWriteDone s
  | .recordWriteDone => Sys2Proof.Machine.execRecordWriteDone s
  | .sectorEraseDone => Sys2Proof.Machine.execSectorEraseDone s
  | .releaseWriteDone => Sys2Proof.Machine.execReleaseWriteDone s
  | .stepExpiry c x => Sys2Proof.Machine.execStepExpiry c x s
  | .samplePair cA cB => Sys2Proof.Machine.execSamplePair cA cB s
  | .inclinometerReading pitch roll => Sys2Proof.Machine.execInclinometerReading pitch roll s
  | .inclinometerStale => Sys2Proof.Machine.execInclinometerStale s
  | .pressureReading c pressure => Sys2Proof.Machine.execPressureReading c pressure s
  | .ptoChange on => Sys2Proof.Machine.execPtoChange on s
  | .watchedInputChange w level => Sys2Proof.Machine.execWatchedInputChange w level s
  | .permitExpiry => Sys2Proof.Machine.execPermitExpiry s
  | .silenceExpiry => Sys2Proof.Machine.execSilenceExpiry s
  | .payloadTimerExpiry => Sys2Proof.Machine.execPayloadTimerExpiry s
  | .secondTick => Sys2Proof.Machine.execSecondTick s
  | .coilPeriodStart c d meanCurrent => Sys2Proof.Machine.execCoilPeriodStart c d meanCurrent s
  | .coilOnTimeEnd c d => Sys2Proof.Machine.execCoilOnTimeEnd c d s
  | .coilShort c d current => Sys2Proof.Machine.execCoilShort c d current s
  | .lineByteArrival l b => Sys2Proof.Machine.execLineByteArrival l b s

end Sys2Proof.Machine
end

