-- ==== Sys2Proof/Safety.lean ====
section
/-! DEFINITION. What counts as a safe step, the invariants that every step keeps, and the terms that statements use for what
a request leaves in its port. -/

namespace Sys2Proof.Machine

/-- A step is safe when it answers a next state. -/
def Safe (s : State) : Prop := ∃ t, step s = .next t

/-! ## Terms for what a command leaves -/

/-- The state apart from the Link Ports and the count of free values: what a request's owner may change. -/
def State.core (s : State) : State := (s.setLinks Links.reset).setFreeIx 0

/-- The request of a request command: its header and its content. -/
def requestOf : Instr → Option (Header × Request)
  | .unknownKind h k => some (h, .other k)
  | .lift h b => some (h, .lift b)
  | .permit h b => some (h, .permit b)
  | .resume h b => some (h, .resume b)
  | .abort h b => some (h, .abort b)
  | .cycleClear h b => some (h, .cycleClear b)
  | .pack h b => some (h, .pack b)
  | .unload h b => some (h, .unload b)
  | .abortUnload h b => some (h, .abortUnload b)
  | .faultClear h b => some (h, .faultClear b)
  | .statusGet h b => some (h, .statusGet b)
  | .entryPut h b => some (h, .entryPut b)
  | .entryDrop h b => some (h, .entryDrop b)
  | .entryGet h b => some (h, .entryGet b)
  | .tableClear h b => some (h, .tableClear b)
  | .tableReady h b => some (h, .tableReady b)
  | .journalRead h b => some (h, .journalRead b)
  | .journalRelease h b => some (h, .journalRelease b)
  | .timeSet h b => some (h, .timeSet b)
  | .slotMap h b => some (h, .slotMap b)
  | .settingPut h b => some (h, .settingPut b)
  | .settingGet h b => some (h, .settingGet b)
  | .freezeLock h b => some (h, .freezeLock b)
  | .openLock h b _ => some (h, .openLock b)
  | .closeLock h b => some (h, .closeLock b)
  | .setCode h b => some (h, .setCode b)
  | .trialSet h b => some (h, .trialSet b)
  | .trialDiscard h b => some (h, .trialDiscard b)
  | .commit h b => some (h, .commit b)
  | .serviceZero h b => some (h, .serviceZero b)
  | .liveWeight h b => some (h, .liveWeight b)
  | .attrRead h b => some (h, .attrRead b)
  | .profileWrite h b => some (h, .profileWrite b)
  | .profileErase h b => some (h, .profileErase b)
  | .shadowLoad h b => some (h, .shadowLoad b)
  | .chassisState h b => some (h, .chassisState b)
  | .fullReset .. | .settingsReadDone | .metrologyReadDone | .storeVerifyDone | .journalScanDone | .frameArrival _
  | .messageSent _ | .serviceByteGap _ | .tagLineBreak | .busOff _ | .linkReset _ | .tagSeen .. | .profileWriteDone
  | .profileEraseDone | .shadowLoadDone | .commitWriteDone | .counterWriteDone | .verifyWriteDone | .makerWriteDone
  | .codeWriteDone | .settingsWriteDone | .recordWriteDone | .sectorEraseDone | .releaseWriteDone | .stepExpiry ..
  | .samplePair .. | .inclinometerReading .. | .inclinometerStale | .pressureReading .. | .ptoChange _
  | .watchedInputChange .. | .permitExpiry | .silenceExpiry | .payloadTimerExpiry | .secondTick | .coilPeriodStart ..
  | .coilOnTimeEnd .. | .coilShort .. | .lineByteArrival .. => none

/-- The request has another length than its kind calls for (R186 test 3). -/
def badLength : Request → Bool
  | .lift b => b.isNone
  | .permit b | .resume b | .abort b | .cycleClear b | .tableClear b | .tableReady b | .freezeLock b | .closeLock b
  | .trialDiscard b | .commit b | .serviceZero b | .liveWeight b | .attrRead b | .shadowLoad b => b.isNone
  | .pack b | .unload b | .abortUnload b | .faultClear b | .statusGet b | .settingGet b | .profileErase b => b.isNone
  | .entryPut b => b.isNone
  | .entryDrop b => b.isNone
  | .entryGet b => b.isNone
  | .journalRead b => b.isNone
  | .journalRelease b | .timeSet b => b.isNone
  | .slotMap b => b.isNone
  | .settingPut b => b.isNone
  | .openLock b => b.isNone
  | .setCode b => b.isNone
  | .trialSet b => b.isNone
  | .profileWrite b => b.isNone
  | .chassisState b => b.isNone
  | .other _ => false

/-- The requests to the Metrology Lock, their operands given (R101). -/
def toLock : Instr → Bool
  | .freezeLock _ (some _) | .openLock _ (some _) _ | .closeLock _ (some _) | .setCode _ (some _) | .trialSet _ (some _)
  | .trialDiscard _ (some _) | .commit _ (some _) | .serviceZero _ (some _) | .attrRead _ (some _) => true
  | _ => false

/-- The requests that only an OPEN lock takes, whatever their operands (R102). -/
def onlyOpen : Instr → Bool
  | .trialSet _ (some _) | .trialDiscard _ (some _) | .commit _ (some _) | .serviceZero _ (some _) => true
  | _ => false

/-- The requests among them that a metrology write in flight turns away (R110). -/
def onlyUnwritten : Instr → Bool
  | .trialSet _ (some _) | .trialDiscard _ (some _) | .commit _ (some _) => true
  | _ => false

/-- The state that a request meets: LOCK_WIRE at its present level for OPEN_LOCK (R103, log 5). -/
def State.seen (s : State) : Instr → State
  | .openLock _ _ w => s.setPins { s.pins with lockWireOpen := w }
  | _ => s

/-- The state with the head of the request's queue taken from it (R182). -/
def State.popped (s : State) (h : Header) : State :=
  s.setPort h.src.port { s.port h.src.port with rx := (s.port h.src.port).rx.tail }

/-- The request stands at the head of its port's receive queue (R182). -/
abbrev AtHead (s : State) (h : Header) (r : Request) : Prop := (s.port h.src.port).rx.head? = some ⟨h, r⟩

/-- The request stands at the head of its port's receive queue and its sender may make it (R182, R186). -/
abbrev Taken (s : State) (h : Header) (r : Request) : Prop := AtHead s h r ∧ r.allowed h.src = true

/-- A port can queue an answer: it is on its bus, and its transmit queue has room or holds an indication or PAYLOAD that
gives way (R182, R187). -/
def State.room (s : State) (p : Port) : Bool :=
  (s.port p).onBus &&
    (decide ((s.port p).tx.length < Config.txCapacity) || (s.port p).tx.any TxMsg.discardable)

/-- Where the port has room, the answer to the request of header `h` and kind `k` is the last message queued there, in one
frame (R187). -/
def Answers (s t : State) (h : Header) (k : Byte) (code : Code) (data : AnswerData) : Prop :=
  s.room h.src.port = true → (t.port h.src.port).tx.getLast? = some (.answer h k code 1 1 data)

/-- Nothing in the Link Ports changed but that the head of the request's queue left it, and its transmit queue. -/
def OnlyPort (s t : State) (h : Header) : Prop :=
  (t.port h.src.port).rx = (s.port h.src.port).rx.tail
    ∧ (t.port h.src.port).deferred = (s.port h.src.port).deferred
    ∧ (t.port h.src.port).onBus = (s.port h.src.port).onBus
    ∧ (t.port h.src.port).sent = (s.port h.src.port).sent
    ∧ (∀ q, q ≠ h.src.port → t.port q = s.port q)
    ∧ t.links.servicePartial = s.links.servicePartial ∧ t.links.tagPartial = s.links.tagPartial

/-- A request settled when it is taken: it left its queue, and one answer was given (R182, R186). -/
def Settled (s t : State) (h : Header) (k : Byte) (code : Code) (data : AnswerData) : Prop :=
  OnlyPort s t h ∧ Answers s t h k code data

/-- A request whose answer comes later: it moved from the receive queue to its port's pending list (R182, R186). -/
def Held (s t : State) (h : Header) (k : Byte) : Prop :=
  (t.port h.src.port).rx = (s.port h.src.port).rx.tail
    ∧ (t.port h.src.port).deferred = (s.port h.src.port).deferred ++ [⟨h, k⟩]
    ∧ (t.port h.src.port).onBus = (s.port h.src.port).onBus
    ∧ (t.port h.src.port).sent = (s.port h.src.port).sent
    ∧ (∀ q, q ≠ h.src.port → t.port q = s.port q)
    ∧ t.links.servicePartial = s.links.servicePartial ∧ t.links.tagPartial = s.links.tagPartial

/-- The request of kind `k` that a port's pending list holds is answered, the first of its kind leaving the list; where a
link reset has taken it from the list, its answer is discarded and the port stays as it was (R186, R192). -/
def AnswersHeld (s t : State) (p : Port) (k : Byte) (code : Code) (data : AnswerData) : Prop :=
  (∀ l d r, (s.port p).deferred = l ++ d :: r → (∀ e ∈ l, e.kind ≠ k) → d.kind = k → d.header.src.port = p →
    (t.port p).deferred = l ++ r ∧ Answers s t d.header k code data)
  ∧ ((∀ e ∈ (s.port p).deferred, e.kind ≠ k) → t.port p = s.port p)

/-- The body link has the message last in its transmit queue, where it had room (R187, R188). -/
def Indicated (s t : State) (i : Indication) : Prop :=
  s.links.body.onBus = true → s.links.body.tx.length < Config.txCapacity →
    t.links.body.tx = s.links.body.tx ++ [.indication i]

/-- The messages follow one another at the end of the body link's transmit queue, where it had room for them all (R182, R187,
R188). -/
def Tells (s t : State) (l : List TxMsg) : Prop :=
  s.links.body.onBus = true → s.links.body.tx.length + l.length ≤ Config.txCapacity →
    t.links.body.tx = s.links.body.tx ++ l

/-- PHASE on entry to a phase other than HALTED; its cause set is empty (R10, log 58). -/
abbrev phaseTold (p : CyclePhase) : TxMsg := .indication (.phase ⟨p, none, Causes.none, Six.all none⟩)

/-- PHASE in HALTED: the halted phase and the cause set, and the fault record where FAULT is in the set (R10). -/
abbrev haltTold (p : Option ProfilePhase) (c : Causes) (f : Six (Option FaultKind)) : TxMsg :=
  .indication (.phase ⟨.halted, p, c, if c.fault = true then f else Six.all none⟩)

/-- RECORD with its number and kind (R14, R159, R188). -/
abbrev recordTold (seq : Nat) (k : RecordKind) : TxMsg := .indication (.record seq k)

/-- An alert (R188). -/
abbrev alertTold (a : Alert) : TxMsg := .indication (.alert a)

/-- JOURNAL_LOW where the grant of one more reservation takes free − reserved below 256 (R163). -/
def State.lowTold (s : State) : List TxMsg :=
  if s.journal.low = false ∧ s.journal.free < s.journal.reserved + 1 + 256 then
    [alertTold (.journalLow s.journal.free (s.journal.reserved + 1))]
  else []

/-- The cycle's return to IDLE raises no stow alarm (R178). -/
abbrev State.staysQuiet (s : State) : Prop :=
  s.inter.speedOver = false ∨ s.inter.snapshot.isSome = true ∨ s.pins.levels.armStowed = true

/-- The bytes of a line taken one after another (R184, R185). -/
def State.feed (l : Line) (s : State) (bytes : List Byte) : State := bytes.foldl (fun t b => t.lineByte l b) s

/-- A check of R5 passes, named by the refusal it gives (R5, R157). -/
def State.liftPasses (s : State) (st : Stream) (slot : Nat) : LiftRefusal → Prop
  | .cycleBusy => s.lcc.phase = .idle
  | .shadowNotReady => s.shadow.state = .ready
  | .ptoOff => s.inter.pto = true
  | .noPermit => s.inter.permitHeld = true
  | .chassisSilent => s.inter.present = true
  | .speed => s.inter.speedOver = false
  | .noCompartment => s.hasComp (s.settings.inForce.map st) = true
  | .compartmentFull => (s.comps.comp (s.settings.inForce.map st)).status ≠ .full
  | .journalFull => s.journal.reserved + 1 ≤ s.journal.free ∧ s.journal.reserved + s.journal.queue.length < 4
      ∧ s.journal.nextSeq + s.journal.reserved ≤ 4294967294
  | .slotEmpty => ∃ k, k.isArm = true ∧ s.hasChannel k = true
      ∧ (s.setEntry (s.slotMap.get slot) .approach k).isSome = true

/-- The arm can be started: no arm channel has its coil latch set (R28). -/
def State.armFree (s : State) : Prop := ∀ k, k.isArm = true → s.drive.latches.get k = none

/-- Blocks that motion, weighing and the cycle do not touch: the stores, the settings, the slot map, the inputs (R60). -/
def SameStores (s t : State) : Prop :=
  t.store = s.store ∧ t.shadow = s.shadow ∧ t.settings = s.settings ∧ t.slotMap = s.slotMap ∧ t.pins = s.pins
    ∧ t.variant = s.variant ∧ t.pending = s.pending

/-- The areas of the profile store by their code, where each begins and how many words it holds (R50, R197). -/
def areaTable : List (Area × Nat × Nat × Nat) :=
  [(.elements, 0, 0, 16384), (.sets, 1, 16384, 768), (.diverter, 2, 17152, 2), (.packs, 3, 17154, 4),
   (.conditions, 4, 17158, 30), (.flows, 5, 17188, 6), (.coils, 6, 17194, 12), (.periods, 7, 17206, 2)]

/-- A word is a permitted entry of the area with this code (R50, R52, R195). -/
abbrev PermittedEntry (area : Nat) (w : Word32) : Prop :=
  (1 ≤ area ∧ area ≤ 3 → w = 0xFFFFFFFF#32 ∨ w.toNat ≤ 16383)
    ∧ (area = 4 → w = 0xFFFFFFFF#32 ∨ ((w.extractLsb' 0 5).toNat ≤ 14 ∧ (w.extractLsb' 8 2).toNat ≤ 2
        ∧ w.extractLsb' 5 3 = 0#3 ∧ w.extractLsb' 10 6 = 0#6))
    ∧ (area = 5 → w.toNat ≤ 2000)
    ∧ (area = 6 → (w.extractLsb' 0 16).toNat ≤ (w.extractLsb' 16 16).toNat ∧ (w.extractLsb' 16 16).toNat ≤ 1000)
    ∧ (area = 7 → 2500 ≤ w.toNat ∧ w.toNat ≤ 10000)

/-! ## Terms for motion, weighing and the lift -/

/-- The element at an address passes its check and is `e` (R32, R195). -/
abbrev State.elementAt (s : State) (addr : Nat) (e : Element) : Prop :=
  elementCheck (s.elementWord addr) = s.elementStored addr ∧ decodeElement (s.elementWord addr) = e

/-- The states in which the step timer runs (R27). -/
def ChanState.running : ChanState → Bool
  | .run _ => true
  | .idle | .paused | .fault => false

/-- A channel is present and its step timer runs (R27). -/
abbrev State.stepping (s : State) (c : Channel) : Prop := s.hasChannel c = true ∧ (s.chans.get c).state.running = true

/-- The next expiry of a channel reaches the element `e` (R31). -/
abbrev State.reaches (s : State) (c : Channel) (e : Element) : Prop :=
  s.stepping c ∧ (s.chans.get c).progress = .cleared ∧ s.elementAt (s.chans.get c).pointer e

/-- A channel is inside the element `e`, with the progress `p` in it (R31). -/
abbrev State.inside (s : State) (c : Channel) (e : Element) (p : Progress) : Prop :=
  s.stepping c ∧ (s.chans.get c).progress = p ∧ decodeElement (s.elementWord (s.chans.get c).pointer) = e

/-- A channel record past its element, at the next one, with the command `u` (R31). -/
def Chan.nextElement (r : Chan) (u : Int) : Chan :=
  { r with state := .run .playing, u := u, progress := .cleared, pointer := r.pointer + 1 }

/-- A channel record after END (R38). -/
def Chan.ended (r : Chan) : Chan :=
  { r with state := .idle, u := 0, origin := none, progress := .cleared, deadline := none, resume := none, fault := none }

/-- The sensors as an expiry sees them (R42, log 5). -/
def State.sensed (s : State) (x : Sensors) : State := s.setPins { s.pins with sensors := x }

/-- What an expiry leaves that changes one channel's record alone: the sensors seen, the record, the sharing made afresh
(R67). -/
def State.moved (s : State) (c : Channel) (x : Sensors) (r : Chan) : State := ((s.sensed x).setChan c r).refresh

/-- The marks that their owners reject from an arm channel of origin CYCLE (R40, R95). -/
def State.rejectsMark (s : State) : Nat → Prop
  | 0 => s.houses.windowOpen = true
  | 1 => s.houses.windowOpen = false
  | 2 | 4 | 6 => s.weigh.enabled = true ∧ s.weigh.window ≠ none
  | 3 => s.weigh.enabled = true ∧ s.weigh.window.map Window.kind ≠ some .gross
  | 5 => s.weigh.enabled = true ∧ s.weigh.window.map Window.kind ≠ some .tare
  | 7 => s.weigh.enabled = true ∧ s.weigh.window.map Window.kind ≠ some .zero
  | 8 => s.lcc.phase ≠ .run .tip
  | _ => True

/-- An expiry that meets the element with this progress in it ends it: its last step is taken, or it takes none (R31, R33 to
R37, R41). -/
def State.takesLastStep (s : State) (c : Channel) (e : Element) : Progress → Prop
  | .cleared => (∃ v, e = .set v) ∨ (∃ v, e = .ramp v 1) ∨ e = .hold 1 ∨ (∃ i, e = .step i)
      ∨ ∃ n timeout, e = .await n timeout ∧ s.holds c (s.chans.get c).origin n = true
  | .ramp _ k => ∃ v, e = .ramp v (k + 1)
  | .delta4 k => k = 3 ∧ ∃ d1 d2 d3 d4 scale, e = .delta4 d1 d2 d3 d4 scale
  | .hold k => k = 1 ∧ ∃ n, e = .hold n
  | .await _ => ∃ n timeout, e = .await n timeout ∧ s.holds c (s.chans.get c).origin n = true

/-- The next expiry ends the element at 16,383, beyond which the pointer does not advance (R31). -/
def State.runsOff (s : State) (c : Channel) : Prop :=
  (s.chans.get c).pointer = 16383
    ∧ ∃ e, decodeElement (s.elementWord 16383) = e ∧ s.takesLastStep c e (s.chans.get c).progress
      ∧ ((s.chans.get c).progress = .cleared → s.elementAt 16383 e ∧ e.valid = true)

/-- What faults an arm channel of origin CYCLE at an expiry, by kind (R31, R32, R40, R41, R44). -/
def State.faultsAs (s : State) (c : Channel) : FaultKind → Prop
  | .checkError => (s.chans.get c).progress = .cleared
      ∧ elementCheck (s.elementWord (s.chans.get c).pointer) ≠ s.elementStored (s.chans.get c).pointer
  | .badElement => ((s.chans.get c).progress = .cleared
      ∧ ∃ e, s.elementAt (s.chans.get c).pointer e ∧ e.valid = false) ∨ s.runsOff c
  | .markOrder => (s.chans.get c).progress = .cleared
      ∧ ∃ code, s.elementAt (s.chans.get c).pointer (.mark code) ∧ code ≤ 12 ∧ s.rejectsMark code
  | .awaitTimeout => ∃ n timeout v, s.inside c (.await n timeout) (.await v) ∧ (s.chans.get c).deadline = some 1
      ∧ s.holds c (s.chans.get c).origin n = false
  | .coil => False

/-- What faults a packer's channel of origin PACK or EJECT at an expiry, by kind (R31, R32, R40, R41, R44). -/
def State.packerFaultsAs (s : State) (c : Channel) : FaultKind → Prop
  | .markOrder => (s.chans.get c).progress = .cleared
      ∧ ∃ code, s.elementAt (s.chans.get c).pointer (.mark code) ∧ code ≤ 12
        ∧ (code ≤ 8 ∨ (code = 12 ∧ (s.chans.get c).origin = some .pack)
            ∨ (9 ≤ code ∧ code ≤ 11 ∧ (s.chans.get c).origin = some .eject))
  | k => s.faultsAs c k

/-- A lift halted in phase `p`: its causes and faults, its context marked, the weigh window held (R18, R86). -/
def HaltsLift (s t : State) (p : ProfilePhase) (causes : Causes) (faults : Six (Option FaultKind)) : Prop :=
  t.lcc = { s.lcc with phase := .halted, haltedPhase := some p, causes := causes, faults := faults, ctx := t.lcc.ctx }
    ∧ t.lcc.ctx = s.lcc.ctx.map (fun x => { x with
        halted := true, haltedInWindow := x.haltedInWindow || s.weigh.billedWindowOpen })
    ∧ (s.weigh.hold = true → t.weigh = s.weigh)
    ∧ (s.weigh.hold = false → t.weigh = { s.weigh with settle := [], acc := Accumulator.cleared, hold := true })

/-- PAYLOAD last in the chassis link's transmit queue, where it had room (R179, R187). -/
def SendsPayload (s t : State) (m : PayloadMsg) : Prop :=
  s.links.chassis.onBus = true → s.links.chassis.tx.length < Config.txCapacity →
    t.links.chassis.tx = s.links.chassis.tx ++ [.payload m]

/-- The next END of a channel of origin CYCLE is the last that the phase waits for (R9). -/
abbrev State.lastToEnd (s : State) (c : Channel) : Prop :=
  s.reaches c .fin ∧ (s.chans.get c).origin = some .cycle
    ∧ ∀ k ∈ s.lcc.started, k ≠ c → (s.chans.get k).state = .idle

/-- The arm is free but for a channel that is about to end: the others IDLE, no arm latch set (R7, R28). -/
def State.armReady (s : State) (c : Channel) : Prop :=
  s.armFree ∧ ∀ k, k.isArm = true → k ≠ c → (s.chans.get k).state = .idle

/-- The element address that a phase starts a channel of the lift `y` from: the diverter table's for DIVERT at RAISE while the
target's flap input is not set, the active set's otherwise (R7, R8). -/
def State.phaseEntry (s : State) (y : LiftCtx) (q : ProfilePhase) (j : Channel) : Option Nat :=
  if j = .divert ∧ q = .raise ∧ s.pins.levels.flapAt y.target = false then s.divertEntry y.target
  else s.setEntry (s.slotMap.get y.activeSlot) q j

/-- The channels of a phase started from their entries, and no other arm channel: each present one that has an entry (R7,
R8). -/
def StartsPhase (s t : State) (y : LiftCtx) (q : ProfilePhase) : Prop :=
  t.lcc.phase = .run q
    ∧ (∀ j, j ∈ t.lcc.started ↔ j.isArm = true ∧ s.hasChannel j = true ∧ (s.phaseEntry y q j).isSome = true)
    ∧ ∀ j a, j ∈ t.lcc.started → s.phaseEntry y q j = some a → t.chans.get j = Chan.started .cycle a y.creep

/-- The lift staged as an ABORTED record of the next number, with no net, against its reservation (R14, R17, R159). -/
def StagesAborted (s t : State) : Prop :=
  t.journal.reserved = s.journal.reserved - 1 ∧ t.journal.nextSeq = s.journal.nextSeq + 1
    ∧ t.journal.free = s.journal.free - 1
    ∧ ∃ r, t.journal.queue = s.journal.queue ++ [r] ∧ r.kind = .aborted ∧ r.seq = s.journal.nextSeq ∧ r.net = none

/-- A phase that starts no channel: no arm channel of the body has an entry for it (R7, R8, R9). -/
def State.emptyPhase (s : State) (y : LiftCtx) (q : ProfilePhase) : Prop :=
  ∀ j, j.isArm = true → s.hasChannel j = true → s.phaseEntry y q j = none

/-- Flags of a closing window added to those of the context (R11, R85). -/
def Window.addTo (w : Window) (f : WindowFlags) : WindowFlags :=
  ⟨f.overrange || w.overrange, f.tilt || w.tilt, f.unstable || w.capture.isNone⟩

/-- The context after a phase end that finds the weigh window open (R9, R85). -/
def LiftCtx.windowEnds (y : LiftCtx) : Option Window → LiftCtx
  | some w => match w.kind with
    | .zero => y
    | .gross => { y with grossFlags := w.addTo y.grossFlags }
    | .tare => { y with tareFlags := w.addTo y.tareFlags }
  | none => y

/-- The outcome list after a phase end: a GROSS or TARE window that it finds open adds its outcome, the list holding the last
32 (R85, R114). -/
def endOutcomes (l : List WindowOutcome) : Option Window → List WindowOutcome
  | some w =>
    if w.kind = .zero then l
    else (if l.length < 32 then l else l.drop 1) ++ [if w.capture.isNone then .unstable else .captured]
  | none => l

/-- A lift weighed without a flag: both captures LEGAL, the gross within Max and its field, the net `n` at least Min (R91, R92,
R194). -/
def LiftCtx.weighedClean (x : LiftCtx) (p : Params) (n : Int) : Prop :=
  ∃ g t, x.gross = some g ∧ x.tare = some t ∧ g.legal = .legal ∧ t.legal = .legal
    ∧ x.grossFlags.overrange = false ∧ x.grossFlags.tilt = false ∧ x.tareFlags.overrange = false
    ∧ x.tareFlags.tilt = false ∧ x.grossDisabled = false ∧ x.tareDisabled = false ∧ x.haltedInWindow = false
    ∧ roundTo p.d g.g ≤ p.max ∧ weightFits (roundTo p.d g.g) = true ∧ n = roundTo p.d (g.g - t.t) ∧ p.min * p.d ≤ n ∧ 0 ≤ n

/-! ## Terms for the journal -/

/-- The pattern of a slot of a sector (R153). -/
abbrev Journal.patternAt (j : Journal) (k i : Nat) : Pattern := patternOf (readSlot j.slots (k * 128 + i))

/-- Every slot of a sector is BLANK (R168). -/
def Journal.AllBlank (j : Journal) (k : Nat) : Prop := ∀ i < 128, j.patternAt k i = .blank

/-- A sector's slots are VALID or VOID, then at most one is DAMAGED, then the rest are BLANK; any of these runs may be empty
(R168). -/
def Journal.WellFormedAt (j : Journal) (k : Nat) : Prop :=
  ∃ a b, a ≤ b ∧ b ≤ a + 1 ∧ b ≤ 128 ∧ (∀ i < a, j.patternAt k i = .valid ∨ j.patternAt k i = .void)
    ∧ (∀ i, a ≤ i → i < b → j.patternAt k i = .damaged) ∧ ∀ i, b ≤ i → i < 128 → j.patternAt k i = .blank

/-- A record that the scan reads: a VALID slot outside the sector that the erase note names (R168). -/
def Journal.Reads (j : Journal) (e : Nat × SlotBits) : Prop :=
  e ∈ j.slots ∧ patternOf e.2 = .valid ∧ j.note ≠ some (e.1 / 128)

/-- The newest record that the scan reads, the one of its number (R169). -/
def Journal.ReadsNewest (j : Journal) (e : Nat × SlotBits) : Prop :=
  e.1 < 4096 ∧ j.Reads e ∧ ∀ f, j.Reads f → f ≠ e → slotSeq f.2 < slotSeq e.2

/-- A sector in which the walk can start at slot 0: well formed, BLANK among them, with no VALID slot, and not the one that the
erase note names (R168, R169). -/
def Journal.Fresh (j : Journal) (k : Nat) : Prop :=
  j.note ≠ some k ∧ j.WellFormedAt k ∧ ∀ i < 128, j.patternAt k i ≠ .valid

/-- The walk starts at slot 0 of the first sector in ring order after sector `m` in which it can, or nowhere (R153, R169). -/
def Journal.FreshAfter (j : Journal) (m : Nat) : Option (Nat × Nat) → Prop
  | none => ∀ q < 32, ¬ j.Fresh q
  | some (k, p) => p = 0 ∧ k < 32 ∧ j.Fresh k ∧ ∀ q < 32, (q + 31 - m) % 32 < (k + 31 - m) % 32 → ¬ j.Fresh q

/-- Where the walk starts, a sector and a slot in it, or nowhere: at the slot after the newest VALID record in its sector; where
that record is in slot 127, or there is none, in a fresh sector after its own, or after sector 31 (R169). -/
def Journal.WalksFrom (j : Journal) (w : Option (Nat × Nat)) : Prop :=
  (∃ e, j.ReadsNewest e ∧ e.1 % 128 < 127 ∧ w = some (e.1 / 128, e.1 % 128 + 1))
    ∨ (∃ e, j.ReadsNewest e ∧ e.1 % 128 = 127 ∧ j.FreshAfter (e.1 / 128) w)
    ∨ ((∀ e, ¬ j.Reads e) ∧ j.FreshAfter 31 w)

/-- A slot that the walk meets DAMAGED: a torn record (R169). -/
def Journal.Torn (j : Journal) (w : Option (Nat × Nat)) (n : Nat) : Prop :=
  ∃ k p, w = some (k, p) ∧ n / 128 = k ∧ p ≤ n % 128 ∧ patternOf (readSlot j.slots n) = .damaged

/-- The sector in which the walk meets a BLANK slot, the write frontier; a malformed sector has none (R169, log 31). -/
def Journal.FrontierAt (j : Journal) (w : Option (Nat × Nat)) (k : Nat) : Prop :=
  ∃ p i, w = some (k, p) ∧ j.WellFormedAt k ∧ p ≤ i ∧ i < 128 ∧ j.patternAt k i = .blank

/-- Every record in a sector is released, and none is the newest written (R162). -/
def Journal.Spent (j : Journal) (k : Nat) : Prop :=
  ∀ e ∈ j.slots, e.1 / 128 = k → patternOf e.2 = .valid → slotSeq e.2 ≤ j.mark ∧ j.newest ≠ some (slotSeq e.2)

/-- A sector ERASING, the note naming it, its erase RUNNING where no write is in flight and the queue is empty (R161, R162). -/
def Journal.Erases (j : Journal) (k : Nat) : Prop :=
  j.sector k = ⟨.erasing, false⟩ ∧ j.note = some k ∧ j.erase = some ⟨k, j.writing.isNone && j.queue.isEmpty⟩

/-- Of the sectors of which `c` holds, `k` is the one with the lowest sequence numbers (R162). -/
def Journal.Lowest (j : Journal) (c : Nat → Prop) (k : Nat) : Prop :=
  c k ∧ ∃ e ∈ j.slots, e.1 / 128 = k ∧ patternOf e.2 = .valid ∧ ∀ m, c m → m ≠ k →
    (∃ f ∈ j.slots, f.1 / 128 = m ∧ patternOf f.2 = .valid)
      ∧ ∀ f ∈ j.slots, f.1 / 128 = m → patternOf f.2 = .valid → slotSeq e.2 < slotSeq f.2

/-- Oldest retained is the lowest number of a record in an ACTIVE, FULL or RECLAIMABLE sector, or absent (R154, R155). -/
def Journal.OldestStands (j : Journal) : Prop :=
  (∀ n, j.oldest = some n →
      ∃ e ∈ j.slots, patternOf e.2 = .valid ∧ (j.sector (e.1 / 128)).retained = true ∧ slotSeq e.2 = n)
    ∧ ∀ e ∈ j.slots, patternOf e.2 = .valid → (j.sector (e.1 / 128)).retained = true →
        ∃ n, j.oldest = some n ∧ n ≤ slotSeq e.2

/-- No sector but a RECLAIMABLE one has its content disregarded, and of the retained records those of the newest number stand
in one sector (R156, R168). -/
def Journal.NewestOnce (j : Journal) : Prop :=
  (∀ k, (j.sector k).disregarded = true → (j.sector k).state = .reclaimable)
    ∧ ∀ e ∈ j.records, ∀ f ∈ j.records, j.newest = some (slotSeq e.2) → slotSeq f.2 = slotSeq e.2 →
        f.1 / 128 = e.1 / 128

/-! ## Invariants -/

/-- The two addressed memories, and the shadow's copy, stand in their canonical form (R50, R55, R153). -/
def MemoryCanonical (s : State) : Prop :=
  cellsWf erasedWord s.store.words = true ∧ cellsWf erasedSlot s.journal.slots = true
    ∧ ∀ c, s.shadow.content = some c → cellsWf erasedWord c.words = true ∧ cellsWf erasedCheck c.checks = true

/-- The tracked zero is at most 4 % of Max in magnitude (R88); with it what makes this last: no Max is negative, and the
zero is 0 with the engine DISABLED until the metrology items are read. -/
def ZeroBounded (s : State) : Prop :=
  (s.weigh.zt.natAbs : Int) ≤ zeroRange s.lock.working.max
    ∧ 0 ≤ s.lock.working.max ∧ 0 ≤ s.lock.reference.max
    ∧ (∀ p c m, s.lock.write = some (.commit p c m) → 0 ≤ p.max)
    ∧ (s.lock.reading = true → s.weigh.zt = 0 ∧ s.weigh.enabled = false)

/-- The household table: tags strictly ascending, at most 4,096 entries (R124). -/
def TableOrdered (s : State) : Prop :=
  s.houses.table.Pairwise (fun e f => e.tag.toNat < f.tag.toNat) ∧ s.houses.table.length ≤ Config.tableCapacity

/-- A pinned entry is the one that the lift in flight pinned; an IDLE cycle has no context, and a lift still in APPROACH has
no pin (R3, R124, R129). -/
def PinsHeld (s : State) : Prop :=
  TableOrdered s
    ∧ (∀ e ∈ s.houses.table, e.pinned = true → s.lcc.ctx.bind LiftCtx.pin = some e.tag)
    ∧ (s.lcc.phase = .idle → s.lcc.ctx = none)
    ∧ (s.lcc.phase = .run .approach ∨ (s.lcc.phase = .halted ∧ s.lcc.haltedPhase = some .approach) →
        s.lcc.ctx.bind LiftCtx.pin = none)

/-- A channel that may not move at present (R67, R71). -/
def State.gatedOff (s : State) (c : Channel) : Bool :=
  !s.hasChannel c || !s.inter.pto || (c.isArm && !s.inter.permitHeld) || (s.drive.latches.get c).isSome

/-- A coil off: no duty computed, none in force, the output OFF (R65). -/
abbrev Coil.off (x : Coil) : Prop := x.computed = 0 ∧ x.inForce = 0 ∧ x.driven = false

/-- A channel that may not move has both its coils off; of any channel one coil at most has a duty; a coil with no duty
computed is off (R65, R67, R71). -/
def CoilsSafe (s : State) : Prop :=
  ∀ c, (s.gatedOff c = true → (s.drive.coils.get c).a.off ∧ (s.drive.coils.get c).b.off)
    ∧ ((s.drive.coils.get c).a.off ∨ (s.drive.coils.get c).b.off)
    ∧ ((s.drive.coils.get c).a.computed = 0 → (s.drive.coils.get c).a.off)
    ∧ ((s.drive.coils.get c).b.computed = 0 → (s.drive.coils.get c).b.off)

/-- No queue or list holds more than its capacity (R80, R82, R114, R119, R182). -/
def QueuesBounded (s : State) : Prop :=
  (∀ p, (s.port p).rx.length ≤ Config.rxCapacity ∧ (s.port p).tx.length ≤ Config.txCapacity)
    ∧ s.houses.tagList.length ≤ Config.tagListCapacity ∧ s.weigh.settle.length ≤ Config.settleCapacity
    ∧ s.weigh.acc.count < 8 ∧ s.lock.outcomes.length ≤ Config.outcomeCapacity

/-- Every channel is IDLE while the shadow is not READY, an absent channel always, and the shadow is INVALID until the
store is verified (R28, R55, R56, R57, R59). -/
def ShadowGuards (s : State) : Prop :=
  (∀ c, (s.shadow.state ≠ .ready ∨ s.hasChannel c = false) → (s.chans.get c).state = .idle)
    ∧ (s.store.verifying = true → s.shadow.state = .invalid)

/-- The lock is OPEN while a metrology write is in flight (R110). -/
def WritesOpen (s : State) : Prop := s.lock.write.isSome = true → s.lock.state = .opened

end Sys2Proof.Machine
end

