-- ==== Sys2Proof/Certificates/Slice0/Obligations.lean ====
section
/-! DEFINITION. The statements: what the manual's rules say the commands do, frame by frame, and the invariants that every
step keeps. A statement whose title or docstring names a log entry holds of the model's own choice there. -/

open Sys2Proof Sys2Proof.Machine

/-! ## The queue, and invariants of every step -/

/-- A step with a command at the front of the queue is that command's effect with the queue's rest; on an empty queue the
part idles (log 1). -/
def Obligations.StepTakesTheFront : Prop :=
  (∀ (c : Instr) (rest : List Instr) (s : State), s.pending = c :: rest →
    step s = exec c { s with pending := rest }) ∧ ∀ s : State, s.pending = [] → step s = .next s

/-- Every command answers a next state, in every state; none changes the queue, and only FULL_RESET the variant (R1). That a
request which is not at the front, and an event that cannot occur, answer the state as it stands is the model's own choice
(logs 2, 3). -/
def Obligations.CommandsCompleteAndLeaveQueue : Prop :=
  ∀ (c : Instr) (s : State), ∃ t, exec c s = .next t ∧ t.pending = s.pending
    ∧ ((∀ g p, c ≠ .fullReset g p) → t.variant = s.variant)

/-- Every step keeps the two addressed memories and the shadow's copy in their canonical form (R50, R55, R153). -/
def Obligations.MemoryStaysCanonical : Prop :=
  ∀ s t : State, MemoryCanonical s → step s = .next t → MemoryCanonical t

/-- Every step keeps the tracked zero within 4 % of Max (R87, R88, R116). -/
def Obligations.TrackedZeroStaysBounded : Prop :=
  ∀ s t : State, ZeroBounded s → step s = .next t → ZeroBounded t

/-- Every step keeps the household table in ascending order of distinct tags, with at most 4,096 entries (R124). -/
def Obligations.TableStaysOrdered : Prop :=
  ∀ s t : State, TableOrdered s → step s = .next t → TableOrdered t

/-- Every step keeps the pins: an entry is pinned only by the lift in flight, after its decision; so at most one entry is
pinned, and only with a lift in flight (R124, R129). -/
def Obligations.PinsStayHeld : Prop :=
  ∀ s t : State, PinsHeld s → step s = .next t → PinsHeld t
    ∧ ∀ e ∈ t.houses.table, ∀ f ∈ t.houses.table, e.pinned = true → f.pinned = true → e = f ∧ t.lcc.phase ≠ .idle

/-- After every step a channel that may not move has both coils off, and no channel has both coils driven (R65, R67, R71). -/
def Obligations.GatedCoilsStayOff : Prop :=
  ∀ s t : State, CoilsSafe s → step s = .next t →
    CoilsSafe t ∧ (t.inter.pto = false → ∀ c, (t.drive.coils.get c).a.off ∧ (t.drive.coils.get c).b.off)
      ∧ (t.inter.permitHeld = false → ∀ c, c.isArm = true →
          (t.drive.coils.get c).a.off ∧ (t.drive.coils.get c).b.off)
      ∧ ∀ c, ¬((t.drive.coils.get c).a.driven = true ∧ (t.drive.coils.get c).b.driven = true)

/-- No step takes a port's receive queue beyond 8 or its transmit queue beyond 16, the tag list beyond 4, the settle list
beyond 16, the accumulator to 8 pairs or the outcome list beyond 32 (R80, R82, R114, R119, R182). -/
def Obligations.QueuesStayBounded : Prop :=
  ∀ s t : State, QueuesBounded s → step s = .next t → QueuesBounded t

/-- The shadow is never changed while any channel is not IDLE, FULL_RESET apart (R57, R61). -/
def Obligations.ShadowNeverChangesInMotion : Prop :=
  ∀ (s t : State) (i : Instr), ShadowGuards s → exec i s = .next t →
    ShadowGuards t ∧ ((∃ c, (s.chans.get c).state ≠ .idle) → (∀ g p, i ≠ .fullReset g p) → t.shadow = s.shadow)

/-- While a metrology write is in flight, the lock is OPEN, and the CEC never decreases and changes only by a completed
COMMIT while the lock is OPEN, the start-up reading apart (R101, R108, R110), and FULL_RESET, after which the model's own
choice is a CEC of 0 until that reading (log 9). -/
def Obligations.CecChangesOnlyByCommit : Prop :=
  ∀ (s t : State) (i : Instr), WritesOpen s → exec i s = .next t →
    WritesOpen t ∧ ((∀ g p, i ≠ .fullReset g p) → i ≠ .metrologyReadDone →
      t.lock.cec = s.lock.cec ∨ (t.lock.cec = s.lock.cec + 1 ∧ i = .commitWriteDone ∧ s.lock.state = .opened
        ∧ ∃ p c m, s.lock.write = some (.commit p c m)))

/-- The reset state meets every one of the invariants. -/
def Obligations.ResetMeetsInvariants : Prop :=
  MemoryCanonical State.reset ∧ ZeroBounded State.reset ∧ PinsHeld State.reset ∧ CoilsSafe State.reset
    ∧ QueuesBounded State.reset ∧ ShadowGuards State.reset ∧ WritesOpen State.reset

/-! ## Encodings -/

/-- A request read back from the bytes of its payload, as they stand in a frame of any port, is the request (R197). -/
def Obligations.RequestsRoundTrip : Prop :=
  ∀ (port : Port) (src : Node) (r : Request) (p : List Byte), r.wf src = true → r.payload = some p →
    decodeRequest port r.code (framePayload port p) = r

/-- What the stored layouts hold is read back as it was written: a record's check passes and its number and totals stand at
their bytes; the metrology block gives its set, locked check, calibration state and CEC; settings within their ranges come
back from a cell (R100, R101, R153, R190, R191, R194, R198). -/
def Obligations.StoredItemsReadBack : Prop :=
  (∀ r : Record, 1 ≤ r.seq → r.seq ≤ maxCount32 → r.totalA < 2 ^ 32 → (∀ n ∈ r.totalB, n < 2 ^ 32) →
    slotCheck r.bits = true ∧ slotSeq r.bits = r.seq ∧ patternOf r.bits = .valid
      ∧ slotTotalA r.bits = r.totalA ∧ slotTotalB r.bits = r.totalB.getD (2 ^ 32 - 1))
  ∧ (∀ (p : Params) (check : Option Word32) (cal : CalState) (cec : Nat),
    p.inRange = true → cal ≠ .invalid → cec ≤ 65535 →
    (storedBlock p check cal cec).good = true
      ∧ blockParams (storedBlock p check cal cec).contents = p
      ∧ blockLockedCheck (storedBlock p check cal cec).contents = check
      ∧ blockCal (storedBlock p check cal cec).contents = cal
      ∧ blockCec (storedBlock p check cal cec).contents = cec)
  ∧ ∀ x : Settings, (∀ k ∈ allSettings, k.range.1 ≤ x.value k ∧ x.value k ≤ k.range.2) →
        Settings.ofValues x.values = x

/-! ## Reset and start-up (R1, R25, R51, R59, R101, R139, R169, R190) -/

/-- FULL_RESET: the volatile items at their reset values, PTO and the variant read, the coils off, and the stored items of
work that is not in flight as they stood (R1, R25). That the inputs' levels stand through it (log 6), the values that the
lock, the store, the engine, the settings and the journal have until they are read (log 9) and the port's last message sent
(log 18), that a reset while STARTING finds every slot as the last scan left it (log 54), and that the drive holds no group
period then (log 42), are the model's own choices. Work in flight is cut (R53, R54, R109, R167): a store write or erase leaves each
of its words done or not and the check erased; a metrology write leaves its item's check failing; the slot of a record write is
BLANK, VALID or DAMAGED, the sector of an erase holds anything and its note stands, and every other slot stands. Which of these a
cut leaves is free (logs 12, 13, 14); that the check of a mark cell, a settings cell, the block or the code record fails from the
start of its write on, and in which order a maker write works, is log 15. -/
def Obligations.FullResetKeepsOnlyStoredItems : Prop :=
  ∀ (s : State) (strap pto : Bool), ∃ t, exec (.fullReset strap pto) s = .next t
    ∧ t.pending = s.pending ∧ t.variant = (if strap then .single else .split) ∧ t.links = Links.reset
    ∧ t.lcc = Lcc.reset ∧ t.chans = Six.all Chan.reset ∧ t.shadow = Shadow.reset ∧ t.slotMap = SlotSets.reset
    ∧ t.drive = Drive.reset ∧ t.weigh = Weigh.reset ∧ t.houses = Houses.reset ∧ t.comps = ⟨Comp.reset, Comp.reset⟩
    ∧ t.inter = { Interlocks.reset with pto := pto } ∧ t.pins = s.pins
    ∧ t.settings = { SettingsBlock.reset with cells := s.settings.cells }
    ∧ (s.store.job = none → t.store = { Store.reset with words := s.store.words, check := s.store.check })
    ∧ (s.lock.write = none → t.lock = { Lock.reset with
        block := s.lock.block, codeRecord := s.lock.codeRecord, counterCell := s.lock.counterCell })
    ∧ (s.journal.writing = none → s.journal.erase = none → t.journal = { Journal.reset with
        slots := s.journal.slots, cells := s.journal.cells, note := s.journal.note })
    ∧ t.store = { Store.reset with words := t.store.words, check := s.store.check }
    ∧ (cellsWf erasedWord s.store.words = true →
        (∀ base ws, s.store.job = some (.write base ws) → ∀ a,
          readCell erasedWord t.store.words a = readCell erasedWord s.store.words a
            ∨ ∃ i w, a = base + i ∧ ws[i]? = some w ∧ readCell erasedWord t.store.words a = w)
        ∧ ∀ area, s.store.job = some (.erase area) → ∀ a,
          readCell erasedWord t.store.words a = readCell erasedWord s.store.words a
            ∨ ((∀ r, area = some r → r.base ≤ a ∧ a < r.base + r.size)
                ∧ readCell erasedWord t.store.words a = erasedWord a))
    ∧ t.lock = { Lock.reset with
        block := t.lock.block, codeRecord := t.lock.codeRecord, counterCell := s.lock.counterCell }
    ∧ ((∀ withBlock, s.lock.write ≠ some (.maker withBlock)) →
        t.lock.block = s.lock.block ∧ t.lock.codeRecord = s.lock.codeRecord
          ∧ (s.lock.block.check = none → t.lock.block.good = false))
    ∧ (s.lock.write = some (.maker false) → t.lock.block = s.lock.block ∧ t.lock.codeRecord.checkGood = false)
    ∧ (s.lock.write = some (.maker true) →
        (t.lock.codeRecord.checkGood = false ∧ (t.lock.block = s.lock.block ∨ t.lock.block.good = true))
        ∨ (t.lock.block.good = false
            ∧ (t.lock.codeRecord = s.lock.codeRecord ∨ t.lock.codeRecord = ⟨none, .high, true⟩)))
    ∧ t.journal = { Journal.reset with
        slots := t.journal.slots, cells := s.journal.cells, note := s.journal.note }
    ∧ (cellsWf erasedSlot s.journal.slots = true → ∀ n, (∀ e, s.journal.erase = some e → n / 128 ≠ e.sector) →
        ((∀ r rest, s.journal.writing = some n → s.journal.queue = r :: rest →
            readSlot t.journal.slots n = BitVec.allOnes 512 ∨ readSlot t.journal.slots n = r.bits
              ∨ patternOf (readSlot t.journal.slots n) = .damaged)
          ∧ (s.journal.writing ≠ some n → readSlot t.journal.slots n = readSlot s.journal.slots n)))

/-- SETTINGS_READ_DONE by the cells whose check passes: the higher generation, cell 0 at equal ones, or the defaults with
the alert (R190). -/
def Obligations.SettingsReadChoosesCell : Prop :=
  ∀ s : State, s.settings.reading = true →
    ∃ t, exec .settingsReadDone s = .next t ∧ t.settings.reading = false ∧ t.settings.cells = s.settings.cells
      ∧ (∀ d : Side, (s.settings.cells.side d).checkGood = true →
          ((s.settings.cells.side d.other).checkGood = false
            ∨ (s.settings.cells.side d.other).generation < (s.settings.cells.side d).generation
            ∨ (d = .a ∧ s.settings.cells.b.generation = s.settings.cells.a.generation)) →
          t.settings.inForce = Settings.ofValues (s.settings.cells.side d).values
            ∧ t.settings.generation = (s.settings.cells.side d).generation ∧ t.settings.origin = .stored)
      ∧ (s.settings.cells.a.checkGood = false → s.settings.cells.b.checkGood = false →
          t.settings.inForce = Settings.defaults ∧ t.settings.generation = 0 ∧ t.settings.origin = .defaulted
            ∧ Indicated s t (.alert .settingsDefaulted))
      ∧ t.lcc = s.lcc ∧ t.chans = s.chans ∧ t.store = s.store ∧ t.lock = s.lock ∧ t.journal = s.journal
      ∧ t.houses = s.houses ∧ t.weigh = s.weigh ∧ t.comps = s.comps ∧ t.inter = s.inter

/-- METROLOGY_READ_DONE, after the settings (log 10): the sets, the locked check, the calibration state, the code record and
the CEC read back (R101). That the engine is ENABLED or DISABLED at once and a window hold stands, with a lift in flight too, is
the model's own choice (log 46), and so is a block whose byte 30 has a bit above 1 set, read by bits 0 and 1 alone (log 59). -/
def Obligations.MetrologyReadFromStoredItems : Prop :=
  ∀ s : State, s.lock.reading = true → s.settings.reading = false →
    ∃ t, exec .metrologyReadDone s = .next t ∧ t.lock.reading = false ∧ t.lock.state = .locked ∧ t.lock.failed = 0
      ∧ t.lock.working = t.lock.reference ∧ t.lock.write = none ∧ t.lock.counterCell = t.lock.cec
      ∧ (s.lock.block.good = true → t.lock.reference = blockParams s.lock.block.contents
          ∧ t.lock.lockedCheck = blockLockedCheck s.lock.block.contents ∧ t.lock.cal = blockCal s.lock.block.contents
          ∧ t.lock.cec = max s.lock.counterCell (blockCec s.lock.block.contents) ∧ t.weigh.enabled = true)
      ∧ (s.lock.block.good = false → t.lock.reference = Params.factory ∧ t.lock.lockedCheck = none
          ∧ t.lock.cal = .invalid ∧ t.lock.cec = s.lock.counterCell ∧ t.weigh.enabled = false)
      ∧ (s.lock.codeRecord.checkGood = true → t.lock.code = s.lock.codeRecord.code
          ∧ t.lock.level = s.lock.codeRecord.level)
      ∧ (s.lock.codeRecord.checkGood = false → t.lock.code = none ∧ t.lock.level = .high)
      ∧ t = (s.setLock t.lock).setWeigh { s.weigh with enabled := t.weigh.enabled }

/-- STORE_VERIFY_DONE, after the settings (log 10): VALID and the automatic load, or INVALID and the alert (R51, R59). -/
def Obligations.StoreVerifiedAtStartUp : Prop :=
  ∀ s : State, s.store.verifying = true → s.settings.reading = false →
    ∃ t, exec .storeVerifyDone s = .next t ∧ t.store.words = s.store.words ∧ t.store.check = s.store.check
      ∧ t.store.verifying = false
      ∧ (s.store.check = some (storeCrc s.store.words) → t.store.state = .valid ∧ t.shadow = Shadow.loading
          ∧ t.links = s.links)
      ∧ (s.store.check ≠ some (storeCrc s.store.words) → t.store.state = .invalid ∧ t.shadow = s.shadow
          ∧ Indicated s t (.alert .storeInvalid))
      ∧ t.core = ((s.setStore t.store).setShadow t.shadow).core

/-- JOURNAL_SCAN_DONE, after the settings (log 10), with no pack cycle due: STARTING is left, the mark and the next sequence
follow the newest valid record, each compartment present takes the total that record carries, 0 where it carries none or there
is no record; no reservation, queue or work is left, and JOURNAL_LOW is sent below 256 free slots (R139, R163, R164, R169). The
walk from the newest record voids the torn records that it meets and changes no other slot; the sector of the BLANK slot that
it meets is ACTIVE, every other one BLANK, FULL or RECLAIMABLE by its slots, and free counts the BLANK slots of the ACTIVE and
the BLANK sectors; the sector that the erase note names is erased again, before one whose records are all released (R157, R162,
R168, R169). The model's own choices: a walk in a malformed sector finds no frontier (log 31), a RECLAIMABLE sector without
records comes before those with some (log 32), and which mark cell is the holder where both hold the mark, or none (log 38). -/
def Obligations.ScanEndsStarting : Prop :=
  ∀ s : State, s.journal.starting = true → s.settings.reading = false → s.comps.a.tips = 0 → s.comps.b.tips = 0 →
    1 ≤ s.settings.inForce.packAfter →
    ∃ t, exec .journalScanDone s = .next t ∧ t.journal.starting = false ∧ t.journal.reserved = 0
      ∧ t.journal.queue = [] ∧ t.journal.writing = none ∧ t.journal.release = none
      ∧ t.journal.newest = greatestOf (s.journal.scanned.map fun e => slotSeq e.2)
      ∧ (∀ n, t.journal.newest = some n → t.journal.nextSeq = n + 1 ∧ t.journal.mark = min (markOf s.journal.cells).1 n)
      ∧ (t.journal.newest = none → t.journal.nextSeq = t.journal.mark + 1 ∧ t.journal.mark = (markOf s.journal.cells).1
          ∧ t.comps.a.total = 0 ∧ (s.variant = .split → t.comps.b.total = 0))
      ∧ (∀ bits, s.journal.scan.newestRecord = some bits →
          t.comps.a.total = (if slotTotalA bits = 4294967295 then 0 else slotTotalA bits)
            ∧ (s.variant = .split → t.comps.b.total = if slotTotalB bits = 4294967295 then 0 else slotTotalB bits))
      ∧ (s.variant = .single → t.comps.b = s.comps.b)
      ∧ (s.variant = .split → t.comps.b.shorts = 0 ∧ t.comps.b.status =
          statusOf t.comps.b.total 0 (s.settings.inForce.limitB) s.settings.inForce.fullStrokes)
      ∧ (t.journal.free < 256 → t.journal.low = true ∧ Indicated s t (.alert (.journalLow t.journal.free 0)))
      ∧ (256 ≤ t.journal.free → t.journal.low = false ∧ t.links.body = s.links.body)
      ∧ t.comps.a.shorts = 0
      ∧ t.comps.a.status = statusOf t.comps.a.total 0 (s.settings.inForce.limitA) s.settings.inForce.fullStrokes
      ∧ t.lcc = s.lcc ∧ t.chans = s.chans ∧ t.store = s.store ∧ t.shadow = s.shadow ∧ t.lock = s.lock
      ∧ t.houses = s.houses ∧ t.settings = s.settings ∧ t.weigh = s.weigh
      ∧ ∀ j u : Journal, j = s.journal → u = t.journal → cellsWf erasedSlot j.slots = true →
        u.cells = j.cells ∧ u.OldestStands
        ∧ (∀ d, (j.cells.side d).checkGood = true → (j.cells.side d).value = u.mark →
            (d = .a ∨ (j.cells.side d.other).checkGood = false ∨ (j.cells.side d.other).value ≠ u.mark) → u.holder = some d)
        ∧ ∀ w, j.WalksFrom w →
          (∀ n, (j.Torn w n → readSlot u.slots n = 0#512) ∧ (¬ j.Torn w n → readSlot u.slots n = readSlot j.slots n))
          ∧ (∀ k < 32, (j.FrontierAt w k → u.sector k = ⟨.active, false⟩)
              ∧ (j.note = some k → u.Erases k)
              ∧ (j.note ≠ some k → ¬ j.FrontierAt w k →
                  (j.AllBlank k → u.sector k = ⟨.blank, false⟩)
                  ∧ (¬ j.AllBlank k → ¬ u.Spent k → u.sector k = ⟨.full, false⟩)
                  ∧ (¬ j.AllBlank k → u.Spent k → u.sector k = ⟨.reclaimable, false⟩ ∨ u.Erases k)))
          ∧ (∀ c : Nat → Prop, (∀ k, c k ↔ k < 32 ∧ j.note ≠ some k ∧ ¬ j.FrontierAt w k ∧ ¬ j.AllBlank k ∧ u.Spent k) →
              (∀ k < 32, j.note ≠ some k) →
              (∀ k, u.Lowest c k → u.Erases k) ∧ ((∃ k, c k) → ∃ k, c k ∧ u.Erases k)
                ∧ ((∀ k, ¬ c k) → u.erase = none ∧ u.note = none))
          ∧ ∀ n, n = 128 * (List.range 32).countP (fun k => (u.sector k).state == .blank) →
              (∀ k < 32, j.FrontierAt w k →
                u.free = n + (List.range 128).countP fun i => readSlot u.slots (k * 128 + i) == BitVec.allOnes 512)
              ∧ ((∀ k < 32, ¬ j.FrontierAt w k) → u.free = n)

/-! ## The Link Ports (R182 to R187, R192) -/

/-- FRAME_ARRIVAL. A CAN frame is for the part when its reserved bits are 0, its destination is the part or all and its source
is a master of the link; its fields give the request's header and kind. A frame of the service line is for the part when it is
whole and checked and the part is not sending (log 34). Such a frame is queued, answered BUSY when the queue holds 8 and it is
a request, discarded while OFF_BUS; every other frame is discarded (R182, R183, R184). That a body-link frame with no data bytes
is a request of the part, with the pairing tag 0, is the model's own choice (log 35), and so is a partial frame of the service
line that a frame given whole leaves as it is (log 60). -/
def Obligations.FramesQueueInOrder : Prop :=
  (∀ (p : CanPort) (id : BitVec 29) (data : List Byte) (src dst : Nat), src = (id.extractLsb' 12 6).toNat →
    dst = (id.extractLsb' 6 6).toNat →
    ((canRequest p id data).isSome = true ↔ (id.extractLsb' 0 6).toNat = 0 ∧ (dst = 16 ∨ dst = 0)
        ∧ match p with
          | .body => src = 32 ∨ src = 33
          | .chassis => src = 1)
    ∧ ∀ h r, canRequest p id data = some (h, r) → h.src.number = src ∧ h.prio = id.extractLsb' 26 3
        ∧ match p with
          | .body => h.tag = data.headD 0#8
              ∧ ∀ rest, data = h.tag :: rest → r = decodeRequest .body (id.extractLsb' 18 8) rest
          | .chassis => r = decodeRequest .chassis (id.extractLsb' 18 8) data)
  ∧ (∀ (s : State) (p : CanPort) (id : BitVec 29) (data : List Byte),
    ∃ t, exec (.frameArrival (.can p id data)) s = .next t ∧ t.core = s.core
      ∧ (canRequest p id data = none → t = s)
      ∧ ∀ h r, canRequest p id data = some (h, r) → h.src.port = portOfCan p
          ∧ ((s.port h.src.port).onBus = false → t = s)
          ∧ ((s.port h.src.port).onBus = true → (s.port h.src.port).rx.length < 8 →
              t = s.setPort h.src.port { s.port h.src.port with rx := (s.port h.src.port).rx ++ [⟨h, r⟩] })
          ∧ ((s.port h.src.port).onBus = true → 8 ≤ (s.port h.src.port).rx.length →
              (t.port h.src.port).rx = (s.port h.src.port).rx
                ∧ (Request.answered r = true → p = .body → (s.port .body).tx.length < 16 →
                    (t.port .body).tx = (s.port .body).tx ++ [.answer h r.code .busy 1 1 .empty])))
  ∧ (∀ (s : State) (bytes : List Byte), bytes.length < 6 ∨ bytes.head? ≠ some 0x5A#8 →
      exec (.frameArrival (.line bytes)) s = .next s)
  ∧ ∀ (s : State) (len kind tag hi lo : Byte) (p bytes : List Byte),
      bytes = 0x5A#8 :: len :: kind :: tag :: (p ++ [hi, lo]) →
      ∃ t, exec (.frameArrival (.line bytes)) s = .next t ∧ t.core = s.core
        ∧ ((len.toNat ≠ p.length + 2 ∨ 250 < len.toNat ∨ crc16 (len :: kind :: tag :: p) ≠ hi ++ lo
            ∨ s.links.service.tx ≠ [] ∨ s.links.service.onBus = false) → t = s)
        ∧ (len.toNat = p.length + 2 → len.toNat ≤ 250 → crc16 (len :: kind :: tag :: p) = hi ++ lo →
            s.links.service.tx = [] → s.links.service.onBus = true → s.links.service.rx.length < 8 →
            t = s.setPort .service { s.links.service with
              rx := s.links.service.rx ++ [⟨⟨.calTool, 0#3, tag⟩, decodeRequest .service kind p⟩] })
        ∧ (∀ r, len.toNat = p.length + 2 → len.toNat ≤ 250 → crc16 (len :: kind :: tag :: p) = hi ++ lo →
            s.links.service.tx = [] → s.links.service.onBus = true → 8 ≤ s.links.service.rx.length →
            r = decodeRequest .service kind p → Request.answered r = true →
            t = s.setPort .service { s.links.service with tx := [.answer ⟨.calTool, 0#3, tag⟩ r.code .busy 1 1 .empty] })

/-- LINE_BYTE_ARRIVAL: each byte is one command, and the bytes of a whole frame whose length and check are good come to what
the frame comes to, while the part is not sending on the line: on the service line to the frame's FRAME_ARRIVAL, on the tag
line to the TAG_SEEN of its tag and strength; a tag-line frame of another kind or payload, and a frame of bad length or check,
are discarded. With no frame begun, a byte other than the start byte, and on the service line a start byte while the part is
sending (log 34), are discarded. A frame begun before the part began to send is taken whole all the same, which is the model's own
choice (log 62). A gap or a line break discards the partial frame of its line and nothing else (R184, R185).
That a frame or TAG_SEEN given whole leaves a partial frame as it is, is the model's own choice (log 60). -/
def Obligations.LineBytesAssembleFrames : Prop :=
  (∀ (l : Line) (b : Byte) (s : State), exec (.lineByteArrival l b) s = .next (State.feed l s [b]))
    ∧ (∀ (l : Line) (len : Byte) (body : List Byte) (s : State), s.partialOf l = [] → (l = .service → s.sending = false) →
        lengthOk l len.toNat = true → body.length = len.toNat + 2 → lineCheck (0x5A#8 :: len :: body) = true →
        State.feed l s (0x5A#8 :: len :: body) = s.lineFrame l (0x5A#8 :: len :: body)
          ∧ (l = .service → exec (.frameArrival (.line (0x5A#8 :: len :: body))) s
              = .next (State.feed l s (0x5A#8 :: len :: body))))
    ∧ (∀ (s : State) (kind hi lo : Byte) (p bytes : List Byte), s.links.tagPartial = [] → p.length < 250 →
        bytes = 0x5A#8 :: BitVec.ofNat 8 (p.length + 1) :: kind :: (p ++ [hi, lo]) →
        crc16 (BitVec.ofNat 8 (p.length + 1) :: kind :: p) = hi ++ lo →
        (∀ (tag : TagId) (strength : Byte), kind = 64#8 →
          p = ((List.range 8).map fun i => tag.extractLsb' (8 * i) 8) ++ [strength] →
          exec (.tagSeen tag strength) s = .next (State.feed .tagLine s bytes))
        ∧ (kind ≠ 64#8 ∨ p.length ≠ 9 → State.feed .tagLine s bytes = s))
    ∧ (∀ (l : Line) (len : Byte) (body pre rest : List Byte) (s : State), s.partialOf l = pre → pre ≠ [] → rest ≠ [] →
        pre ++ rest = 0x5A#8 :: len :: body → lengthOk l len.toNat = true → body.length = len.toNat + 2 →
        lineCheck (pre ++ rest) = true → State.feed l s rest = (s.setPartial l []).lineFrame l (pre ++ rest))
    ∧ (∀ (l : Line) (s : State), s.partialOf l = [] →
        (∀ b, b ≠ 0x5A#8 → exec (.lineByteArrival l b) s = .next s)
        ∧ (l = .service → s.sending = true → exec (.lineByteArrival l 0x5A#8) s = .next s)
        ∧ ((l = .service → s.sending = false) → ∀ len : Byte,
            (len.toNat = 0 ∨ 250 < len.toNat ∨ (l = .service ∧ len.toNat = 1) → State.feed l s [0x5A#8, len] = s)
            ∧ ∀ (p : List Byte) (hi lo : Byte), 1 ≤ len.toNat → (l = .service → 2 ≤ len.toNat) → len.toNat ≤ 250 →
                p.length = len.toNat → crc16 (len :: p) ≠ hi ++ lo →
                State.feed l s (0x5A#8 :: len :: (p ++ [hi, lo])) = s))
    ∧ ∀ s : State, exec (.serviceByteGap .service) s = .next (s.setLinks { s.links with servicePartial := [] })
      ∧ exec (.serviceByteGap .tagLine) s = .next (s.setLinks { s.links with tagPartial := [] })
      ∧ exec .tagLineBreak s = .next (s.setLinks { s.links with tagPartial := [] })

/-- MESSAGE_SENT, BUS_OFF and LINK_RESET on a port: the oldest message leaves its queue; OFF_BUS keeps the queues; a link
reset empties them and the pending list and puts the port ON_BUS, the service line's partial frame going with it. No other
port, no other partial frame and no block changes (R182, R187, R192); with nothing to send or OFF_BUS no message is sent
(log 3). The message as it stood on the medium and the count of free values are the model's own (log 18). -/
def Obligations.PortEventsTouchOnePort : Prop :=
  ∀ (s : State) (p : Port),
    (∀ m rest, (s.port p).tx = m :: rest → (s.port p).onBus = true →
      exec (.messageSent p) s = .next ((s.setPort p { s.port p with tx := rest, sent := some (m.wire s.freeIx) }).setFreeIx
        (s.freeIx + 1)))
    ∧ ((s.port p).tx = [] ∨ (s.port p).onBus = false → exec (.messageSent p) s = .next s)
    ∧ (∃ t, exec (.linkReset p) s = .next t ∧ t.core = s.core
        ∧ t.port p = { onBus := true, rx := [], tx := [], deferred := [], sent := (s.port p).sent }
        ∧ (∀ q, q ≠ p → t.port q = s.port q)
        ∧ t.links.servicePartial = (if p = .service then [] else s.links.servicePartial)
        ∧ t.links.tagPartial = s.links.tagPartial ∧ t.freeIx = s.freeIx)
    ∧ ∀ c : CanPort, exec (.busOff c) s = .next
        (s.setPort (portOfCan c) { s.port (portOfCan c) with onBus := false })

/-- A request that stands at the head of its queue and fails test 2 or 3 of R186 reaches no owner: it is answered
NOT_PERMITTED or MALFORMED, a CHASSIS_STATE not at all; a kind that the part does not define is answered UNKNOWN_KIND, one
it only sends NOT_PERMITTED (R174, R186). That nothing is sent either for a CHASSIS_STATE from another master, or for any
request on the chassis link, is log 19. -/
def Obligations.FailedTestsReachNoOwner : Prop :=
  ∀ (c : Instr) (h : Header) (r : Request) (s : State), requestOf c = some (h, r) → AtHead s h r →
    (r.allowed h.src = false ∨ badLength r = true) →
    ∃ t, exec c s = .next t ∧ t.core = (s.seen c).core ∧ OnlyPort s t h
      ∧ ((∃ b, r = .chassisState b) ∨ h.src = .chassis → (t.port h.src.port).tx = (s.port h.src.port).tx)
      ∧ ((∀ b, r ≠ .chassisState b) → h.src ≠ .chassis →
          Answers s t h r.code
            (match r with
              | .other k => if definedOnly k = true then .notPermitted else .unknownKind
              | _ => if r.allowed h.src = true then .malformed else .notPermitted) .empty)

/-- A request command whose port's queue is empty, the port on its bus, is taken as if it stood at the head of the queue; one
that is neither there nor first in an empty queue changes nothing, LOCK_WIRE's level apart (R182, log 2). That the
calibration tool's request at an empty queue is taken while the part is sending too is the model's own choice (log 56). -/
def Obligations.RequestsReachOwnersInOrder : Prop :=
  ∀ (c : Instr) (h : Header) (r : Request) (s : State), requestOf c = some (h, r) →
    ((s.port h.src.port).rx = [] → (s.port h.src.port).onBus = true →
      exec c s = exec c (s.setPort h.src.port { s.port h.src.port with rx := [⟨h, r⟩] }))
    ∧ (((s.port h.src.port).rx = [] ∧ (s.port h.src.port).onBus = false)
        ∨ (∃ f rest, (s.port h.src.port).rx = f :: rest ∧ f ≠ ⟨h, r⟩) → exec c s = .next (s.seen c))

/-! ## The lift cycle (R4 to R6, R18 to R24, R173) -/

/-- LIFT's fields are put into range, and its checks are made in order: the first that fails decides, and a refused request
changes no block (R4, R5). -/
def Obligations.LiftChecksDecideInOrder : Prop :=
  (∀ f : LiftFields, liftOf f =
    if f.stream.toNat ≤ 1 ∧ (f.slot = 255#8 ∨ f.slot.toNat ≤ 3) then
      some (if f.stream.toNat = 0 then .refuse else .recycle, if f.slot = 255#8 then 0 else f.slot.toNat,
        max 64 f.creep.toNat, decide (f.creep.toNat < 64))
    else none)
  ∧ ∀ (s : State) (h : Header) (f : LiftFields), Taken s h (.lift (some f)) →
    ∃ t, exec (.lift h (some f)) s = .next t
      ∧ (liftOf f = none → t.core = s.core ∧ Settled s t h 1#8 .malformed .empty)
      ∧ ∀ st slot creep clamped, liftOf f = some (st, slot, creep, clamped) →
        (s.journal.starting = true → t.core = s.core ∧ Settled s t h 1#8 .busy .empty)
        ∧ ∀ r : LiftRefusal, s.journal.starting = false → ¬ s.liftPasses st slot r →
            (∀ q : LiftRefusal, q.number < r.number → s.liftPasses st slot q) →
            t.core = s.core ∧ Settled s t h 1#8 .refused (.refusal r)

/-- A LIFT that passes every check, the arm channels IDLE and no arm latch set: one reservation, the context, an empty tag
list, APPROACH with every present entry's channel started, PHASE, and OK or CLAMPED (R4, R6, R7, R10, R28, R188). A channel
whose coil latch is set faults at its START: the lift is HALTED in APPROACH with cause FAULT, its other channels paused, PHASE sent
again, and the answer is the same (R18, R28). That the answer follows JOURNAL_LOW and PHASE in the queue (log 20), that every
channel is started before the fault is reported (log 21), and that the cause set of PHASE on entry to APPROACH is empty (log 58),
are the model's own choices. -/
def Obligations.LiftAccepted : Prop :=
  (∀ (s : State) (h : Header) (f : LiftFields) (st : Stream) (slot creep : Nat) (clamped : Bool),
    Taken s h (.lift (some f)) → liftOf f = some (st, slot, creep, clamped) → s.journal.starting = false →
    (∀ r, s.liftPasses st slot r) → s.armFree → (∀ k, k.isArm = true → (s.chans.get k).state = .idle) →
    ∃ t, exec (.lift h (some f)) s = .next t
      ∧ t.lcc.phase = .run .approach
      ∧ t.lcc.ctx = some (LiftCtx.accepted st (s.settings.inForce.map st) slot creep)
      ∧ (∀ k, k ∈ t.lcc.started ↔ k.isArm = true ∧ s.hasChannel k = true
          ∧ (s.setEntry (s.slotMap.get slot) .approach k).isSome = true)
      ∧ (∀ k a, k ∈ t.lcc.started → s.setEntry (s.slotMap.get slot) .approach k = some a →
          t.chans.get k = Chan.started .cycle a creep)
      ∧ (∀ k, k ∉ t.lcc.started → t.chans.get k = s.chans.get k)
      ∧ t.journal.reserved = s.journal.reserved + 1 ∧ t.journal.free = s.journal.free
      ∧ t.journal.queue = s.journal.queue ∧ t.journal.slots = s.journal.slots
      ∧ t.houses = { s.houses with tagList := [], overflow := 0, lastResult := none }
      ∧ t.weigh = s.weigh ∧ t.lock = s.lock ∧ t.comps = s.comps ∧ t.inter = s.inter ∧ SameStores s t
      ∧ Answers s t h 1#8 (if clamped then .clamped else .ok) (if clamped then .creep creep else .empty)
      ∧ Tells s t (s.lowTold ++ [phaseTold (.run .approach),
          .answer h 1#8 (if clamped then .clamped else .ok) 1 1 (if clamped then .creep creep else .empty)]))
  ∧ ∀ (s : State) (h : Header) (f : LiftFields) (st : Stream) (slot creep : Nat) (clamped : Bool) (c : Channel) (a : Nat)
      (faults : Six (Option FaultKind)),
    Taken s h (.lift (some f)) → liftOf f = some (st, slot, creep, clamped) → s.journal.starting = false →
    (∀ r, s.liftPasses st slot r) → (∀ k, k.isArm = true → (s.chans.get k).state = .idle) →
    c.isArm = true → s.hasChannel c = true → s.setEntry (s.slotMap.get slot) .approach c = some a →
    (s.drive.latches.get c).isSome = true → (∀ k, k.isArm = true → k ≠ c → s.drive.latches.get k = none) →
    faults = (Six.all none).put c (some .coil) →
    ∃ t, exec (.lift h (some f)) s = .next t
      ∧ t.lcc.phase = .halted ∧ t.lcc.haltedPhase = some .approach ∧ t.lcc.causes = ⟨false, false, false, true⟩
      ∧ t.lcc.faults = faults
      ∧ t.lcc.ctx = some { LiftCtx.accepted st (s.settings.inForce.map st) slot creep with
          halted := true, haltedInWindow := s.weigh.billedWindowOpen }
      ∧ (∀ k, k ∈ t.lcc.started ↔ k.isArm = true ∧ s.hasChannel k = true
          ∧ (s.setEntry (s.slotMap.get slot) .approach k).isSome = true)
      ∧ t.chans.get c = { Chan.started .cycle a creep with state := .fault, fault := some ⟨.coil, a⟩ }
      ∧ (∀ k b, k ∈ t.lcc.started → k ≠ c → s.setEntry (s.slotMap.get slot) .approach k = some b →
          t.chans.get k = (Chan.started .cycle b creep).pause)
      ∧ (∀ k, k ∉ t.lcc.started → t.chans.get k = s.chans.get k)
      ∧ t.journal.reserved = s.journal.reserved + 1 ∧ t.journal.queue = s.journal.queue
      ∧ t.weigh.window = s.weigh.window ∧ t.weigh.hold = true
      ∧ t.lock = s.lock ∧ t.comps = s.comps ∧ t.inter = s.inter ∧ SameStores s t
      ∧ Answers s t h 1#8 (if clamped then .clamped else .ok) (if clamped then .creep creep else .empty)
      ∧ Tells s t (s.lowTold ++ [phaseTold (.run .approach),
          haltTold (some .approach) ⟨false, false, false, true⟩ faults,
          .answer h 1#8 (if clamped then .clamped else .ok) 1 1 (if clamped then .creep creep else .empty)])

/-- PERMIT renews the lease by the period in force and is answered OK; from EXPIRED it takes PERMIT from the cause set, which sends
PHASE, and un-pauses an ejection (R10, R19, R145, R173, R188). That the answer follows PHASE is the model's own choice (log 20). -/
def Obligations.PermitRenewsTheLease : Prop :=
  ∀ (s : State) (h : Header), Taken s h (.permit (some ())) →
    ∃ t, exec (.permit h (some ())) s = .next t
      ∧ t.inter = { s.inter with permitHeld := true, permitTimer := some s.settings.inForce.permitPeriod }
      ∧ Answers s t h 2#8 .ok .empty
      ∧ (s.inter.permitHeld = true → t.core = (s.setInter t.inter).core)
      ∧ t.lcc = (if s.inter.permitHeld = false ∧ s.lcc.phase = .halted ∧ s.lcc.causes.permit = true then
          { s.lcc with causes := { s.lcc.causes with permit := false } } else s.lcc)
      ∧ Tells s t ((if s.inter.permitHeld = false ∧ s.lcc.phase = .halted ∧ s.lcc.causes.permit = true then
            [haltTold s.lcc.haltedPhase { s.lcc.causes with permit := false } s.lcc.faults] else [])
          ++ [.answer h 2#8 .ok 1 1 .empty])
      ∧ (∀ c, t.chans.get c = if s.inter.permitHeld = false ∧ c.isArm = false ∧ (s.chans.get c).origin = some .eject
          ∧ s.inter.pto = true then (s.chans.get c).unpause else s.chans.get c)
      ∧ t.weigh = s.weigh ∧ t.lock = s.lock ∧ t.comps = s.comps ∧ t.journal = s.journal ∧ t.houses = s.houses
      ∧ SameStores s t

/-- PERMIT_EXPIRY makes the permit EXPIRED: a lift in a profile phase halts with cause PERMIT, its channels paused and the
weigh window held; in HALTED PERMIT joins the cause set; in IDLE and STUCK the cycle is as it was. PHASE is sent at the halt and
where PERMIT was not yet in the set (R10, R18, R19, R86, R145, R173, R188). -/
def Obligations.PermitExpiryHalts : Prop :=
  ∀ s : State, s.inter.permitTimer.isSome = true →
    ∃ t, exec .permitExpiry s = .next t
      ∧ t.inter = { s.inter with permitHeld := false, permitTimer := none }
      ∧ (∀ p, s.lcc.phase = .run p →
          t.lcc = { s.lcc with phase := .halted, haltedPhase := some p, causes := ⟨true, false, false, false⟩,
                               faults := Six.all none, ctx := t.lcc.ctx }
            ∧ t.lcc.ctx = s.lcc.ctx.map (fun x => { x with
                halted := true, haltedInWindow := x.haltedInWindow || s.weigh.billedWindowOpen })
            ∧ (∀ c ∈ s.lcc.started, t.chans.get c = (s.chans.get c).pause)
            ∧ t.weigh.window = s.weigh.window ∧ t.weigh.hold = true
            ∧ (s.weigh.hold = false → t.weigh.settle = [] ∧ t.weigh.acc = Accumulator.cleared)
            ∧ Tells s t [haltTold (some p) ⟨true, false, false, false⟩ (Six.all none)])
      ∧ (s.lcc.phase = .halted → t.lcc = { s.lcc with causes := { s.lcc.causes with permit := true } }
          ∧ t.weigh = s.weigh ∧ (∀ c, c.isArm = true → t.chans.get c = s.chans.get c)
          ∧ (s.lcc.causes.permit = true → t.links = s.links)
          ∧ (s.lcc.causes.permit = false →
              Tells s t [haltTold s.lcc.haltedPhase { s.lcc.causes with permit := true } s.lcc.faults]))
      ∧ (s.lcc.phase = .idle ∨ s.lcc.phase = .stuck → t.lcc = s.lcc ∧ t.weigh = s.weigh ∧ t.links = s.links)
      ∧ (∀ c, c.isArm = false → (s.chans.get c).origin = some .eject → t.chans.get c = (s.chans.get c).pause)
      ∧ (∀ c, c ∉ s.lcc.started → (c.isArm = true ∨ (s.chans.get c).origin ≠ some .eject) →
          t.chans.get c = s.chans.get c)
      ∧ t.lock = s.lock ∧ t.comps = s.comps ∧ t.journal = s.journal ∧ t.houses = s.houses ∧ SameStores s t

/-- RESUME: WRONG_STATE when the cycle is not HALTED; FAULT_PERSISTS while a cause remains that it does not lift; otherwise
the phase goes on, its channels un-paused, those with a timeout rearmed, the settle list empty; a RECOVER that was waited for
starts, and where it has no entry ends at once with the ABORTED record staged; PHASE is sent at each change of the phase (R9, R10,
R14, R20, R22, R46, R47, R86, R188). That the answer follows PHASE (log 20), and that the cause set of a PHASE other than HALTED is
empty (log 58), are the model's own choices. -/
def Obligations.ResumeContinuesTheLift : Prop :=
  ∀ (s : State) (h : Header), Taken s h (.resume (some ())) →
    ∃ t, exec (.resume h (some ())) s = .next t
      ∧ (s.lcc.phase ≠ .halted → t.core = s.core ∧ Settled s t h 3#8 .wrongState .empty)
      ∧ ∀ p, s.lcc.phase = .halted → s.lcc.haltedPhase = some p →
        ((s.lcc.causes.permit = true ∨ s.lcc.causes.pto = true ∨ s.lcc.causes.speed = true
            ∨ (s.lcc.causes.fault = true ∧ ∃ c k, s.lcc.faults.get c = some k ∧ k ≠ .awaitTimeout)) →
          t.core = s.core ∧ Settled s t h 3#8 .faultPersists (.causes s.lcc.causes))
        ∧ (s.lcc.causes.permit = false → s.lcc.causes.pto = false → s.lcc.causes.speed = false →
            (s.lcc.causes.fault = true → ∀ c k, s.lcc.faults.get c = some k → k = .awaitTimeout) →
            ((p ≠ .recover ∨ s.lcc.started ≠ []) →
              t.lcc = { s.lcc with phase := .run p, haltedPhase := none, causes := Causes.none, faults := Six.all none }
                ∧ (∀ c, t.chans.get c = if c ∈ s.lcc.started then
                    (if (s.lcc.faults.get c).isSome then (s.chans.get c).unpause.rearm else (s.chans.get c).unpause)
                    else s.chans.get c)
                ∧ t.weigh = { s.weigh with settle := [], acc := Accumulator.cleared, hold := false }
                ∧ t.inter = s.inter ∧ t.lock = s.lock ∧ t.comps = s.comps ∧ t.journal = s.journal
                ∧ t.houses = s.houses ∧ SameStores s t ∧ Answers s t h 3#8 .ok .empty
                ∧ Tells s t [phaseTold (.run p), .answer h 3#8 .ok 1 1 .empty])
            ∧ (∀ y, p = .recover → s.lcc.started = [] → s.lcc.ctx = some y → y.path = .aborted → s.weigh.window = none →
                s.emptyPhase y .recover → t.lcc = Lcc.reset ∧ t.chans = s.chans ∧ StagesAborted s t
                  ∧ t.lock = s.lock ∧ t.comps = s.comps ∧ SameStores s t ∧ Answers s t h 3#8 .ok .empty
                  ∧ (s.staysQuiet → Tells s t [phaseTold (.run .recover), recordTold s.journal.nextSeq .aborted,
                      phaseTold .idle, .answer h 3#8 .ok 1 1 .empty]))
            ∧ ∀ y k, p = .recover → s.lcc.started = [] → s.lcc.ctx = some y → y.path = .aborted → s.armFree →
              (∀ c, c.isArm = true → (s.chans.get c).state = .idle) → k.isArm = true → s.hasChannel k = true →
              (s.phaseEntry y .recover k).isSome = true →
              StartsPhase s t y .recover ∧ t.lcc.haltedPhase = none ∧ t.lcc.causes = Causes.none ∧ t.lcc.ctx = some y
                ∧ (∀ j, j ∉ t.lcc.started → t.chans.get j = s.chans.get j)
                ∧ t.weigh = { s.weigh with settle := [], acc := Accumulator.cleared, hold := false }
                ∧ t.inter = s.inter ∧ t.lock = s.lock ∧ t.comps = s.comps ∧ t.journal = s.journal
                ∧ t.houses = s.houses ∧ SameStores s t ∧ Answers s t h 3#8 .ok .empty
                ∧ Tells s t [phaseTold (.run .recover), .answer h 3#8 .ok 1 1 .empty])

/-- ABORT: WRONG_STATE in IDLE and STUCK; from RECOVER the cycle is STUCK; in HALTED with an interlock cause left the lift
waits to recover; in a lift-path phase or in HALTED with no such cause, with a RECOVER entry and a free arm, RECOVER plays, and
where the active slot's set has no RECOVER entry the ABORTED record is staged at once and the cycle is IDLE. PHASE is sent at each
change of the phase, and in HALTED where FAULT leaves the cause set (R9, R10, R14, R21, R22, R23, R188). That the answer follows
PHASE on entry to STUCK and comes before it otherwise (log 20), that a change of the halted phase alone sends no PHASE (log 22),
that the cause set of a PHASE other than HALTED is empty (log 58), and that the hold and the settle list are cleared where no window
is open (log 23) are the model's own choices. -/
def Obligations.AbortGivesUpTheLift : Prop :=
  ∀ (s : State) (h : Header), Taken s h (.abort (some ())) →
    ∃ t, exec (.abort h (some ())) s = .next t
      ∧ (s.lcc.phase = .idle ∨ s.lcc.phase = .stuck → t.core = s.core ∧ Settled s t h 4#8 .wrongState .empty)
      ∧ (s.lcc.phase = .run .recover ∨ (s.lcc.phase = .halted ∧ s.lcc.haltedPhase = some .recover) →
          t.lcc = { Lcc.reset with phase := .stuck, ctx := s.lcc.ctx } ∧ t.weigh = s.weigh.closed
            ∧ (∀ c ∈ s.lcc.started, t.chans.get c = (s.chans.get c).stop)
            ∧ t.journal = s.journal ∧ SameStores s t ∧ Answers s t h 4#8 .ok .empty
            ∧ Tells s t [phaseTold .stuck, .answer h 4#8 .ok 1 1 .empty])
      ∧ (∀ p, s.lcc.phase = .halted → s.lcc.haltedPhase = some p → p ≠ .recover →
          (s.lcc.causes.permit = true ∨ s.lcc.causes.pto = true ∨ s.lcc.causes.speed = true) →
          t.lcc = { phase := .halted, haltedPhase := some .recover, causes := { s.lcc.causes with fault := false },
                    faults := Six.all none, started := [], ctx := s.lcc.ctx.map fun x => { x with path := .aborted } }
            ∧ (∀ c ∈ s.lcc.started, t.chans.get c = (s.chans.get c).stop)
            ∧ t.weigh = s.weigh.closed ∧ t.houses = { s.houses with windowOpen := false }
            ∧ t.journal = s.journal ∧ SameStores s t
            ∧ (s.room h.src.port = true → .answer h 4#8 .ok 1 1 .empty ∈ (t.port h.src.port).tx)
            ∧ Tells s t (.answer h 4#8 .ok 1 1 .empty :: if s.lcc.causes.fault = true then
                [haltTold (some .recover) { s.lcc.causes with fault := false } (Six.all none)] else []))
      ∧ (∀ p x, ((s.lcc.phase = .run p ∧ s.lcc.causes.fault = false)
            ∨ (s.lcc.phase = .halted ∧ s.lcc.haltedPhase = some p)) → p ≠ .recover →
          s.lcc.causes.permit = false → s.lcc.causes.pto = false → s.lcc.causes.speed = false →
          s.lcc.ctx = some x → s.emptyPhase x .recover →
          t.lcc = Lcc.reset ∧ StagesAborted s t
            ∧ (∀ c, t.chans.get c = if c ∈ s.lcc.started then (s.chans.get c).stop else s.chans.get c)
            ∧ t.lock = s.lock ∧ t.comps = s.comps ∧ SameStores s t
            ∧ (s.staysQuiet → Tells s t [.answer h 4#8 .ok 1 1 .empty, phaseTold (.run .recover),
                recordTold s.journal.nextSeq .aborted, phaseTold .idle]))
      ∧ (∀ p x k, ((s.lcc.phase = .run p ∧ s.lcc.causes.fault = false)
            ∨ (s.lcc.phase = .halted ∧ s.lcc.haltedPhase = some p)) → p ≠ .recover →
          s.lcc.causes.permit = false → s.lcc.causes.pto = false → s.lcc.causes.speed = false →
          s.lcc.ctx = some x → s.armFree →
          (∀ c, c.isArm = true → c ∉ s.lcc.started → (s.chans.get c).state = .idle) →
          k.isArm = true → s.hasChannel k = true → (s.phaseEntry x .recover k).isSome = true →
          StartsPhase s t x .recover ∧ t.lcc.haltedPhase = none ∧ t.lcc.causes = Causes.none
            ∧ t.lcc.ctx = some { x with path := .aborted } ∧ k ∈ t.lcc.started
            ∧ t.weigh = s.weigh.closed ∧ t.houses = { s.houses with windowOpen := false }
            ∧ t.journal = s.journal ∧ SameStores s t
            ∧ (s.room h.src.port = true → .answer h 4#8 .ok 1 1 .empty ∈ (t.port h.src.port).tx)
            ∧ Tells s t [.answer h 4#8 .ok 1 1 .empty, phaseTold (.run .recover)])

/-- CYCLE_CLEAR: WRONG_STATE but in STUCK; there it stages the lift as an ABORTED record flagged MANUAL_RECOVERY against its
reservation, sends RECORD with its number and kind, releases the pin, returns the cycle to IDLE and sends PHASE (R10, R14, R17, R24,
R129, R159, R188). That the answer follows RECORD and PHASE (log 20), and that the cause set of this PHASE is empty (log 58), are
the model's own choices. -/
def Obligations.CycleClearStagesTheLift : Prop :=
  ∀ (s : State) (h : Header), Taken s h (.cycleClear (some ())) →
    ∃ t, exec (.cycleClear h (some ())) s = .next t
      ∧ (s.lcc.phase ≠ .stuck → t.core = s.core ∧ Settled s t h 5#8 .wrongState .empty)
      ∧ ∀ x, s.lcc.phase = .stuck → s.lcc.ctx = some x →
        t.lcc = Lcc.reset ∧ Answers s t h 5#8 .ok .empty
          ∧ (s.staysQuiet → Tells s t [recordTold s.journal.nextSeq .aborted, phaseTold .idle, .answer h 5#8 .ok 1 1 .empty])
          ∧ t.journal.reserved = s.journal.reserved - 1 ∧ t.journal.nextSeq = s.journal.nextSeq + 1
          ∧ t.journal.free = s.journal.free - 1 ∧ t.journal.slots = s.journal.slots
          ∧ (∃ r, t.journal.queue = s.journal.queue ++ [r] ∧ r.kind = .aborted ∧ r.seq = s.journal.nextSeq
              ∧ r.flags.getLsbD 3 = true ∧ r.flags.getLsbD 15 = !s.inter.timeValid ∧ r.net = none ∧ r.covered = none
              ∧ r.gross = x.gross.map (fun g => roundTo s.lock.working.d g.g) ∧ r.cec = s.lock.cec
              ∧ r.totalA = s.comps.a.total)
          ∧ (∀ tag e, x.pin = some tag → e ∈ t.houses.table → e.tag = tag → e.pinned = false)
          ∧ t.comps = s.comps ∧ t.lock = s.lock ∧ t.chans = s.chans ∧ SameStores s t

/-! ## Packing and unloading (R141 to R150) -/

/-- PACK refuses in the order of its checks, and from REST with the channel IDLE, or from FAULT, whose channel it stops and whose
fault it clears, it starts the pack cycle, paused at once while PTO is off. A channel whose coil latch is set faults at START: the
stage is FAULT and PACK_FAULT is sent (R28, R29, R142, R145, R146). That the OK follows PACK_FAULT is the model's own choice (log 20).
-/
def Obligations.PackStartsTheCycle : Prop :=
  ∀ (s : State) (h : Header) (b : Byte), Taken s h (.pack (some b)) →
    ∃ t, exec (.pack h (some b)) s = .next t
      ∧ (s.journal.starting = true → t.core = s.core ∧ Settled s t h 6#8 .busy .empty)
      ∧ (s.journal.starting = false → s.compNamed b = none → t.core = s.core ∧ Settled s t h 6#8 .noSuch .empty)
      ∧ ∀ c, s.journal.starting = false → s.compNamed b = some c →
        (s.shadow.state ≠ .ready → t.core = s.core ∧ Settled s t h 6#8 .shadowNotReady .empty)
        ∧ (s.shadow.state = .ready → (s.comps.comp c).stage ≠ .rest → (s.comps.comp c).stage ≠ .fault →
            t.core = s.core ∧ Settled s t h 6#8 .busy .empty)
        ∧ (s.shadow.state = .ready → (s.comps.comp c).stage = .rest ∨ (s.comps.comp c).stage = .fault →
            s.packEntry c = none → t.core = s.core ∧ Settled s t h 6#8 .noSuch .empty)
        ∧ ∀ a u, s.shadow.state = .ready → s.packEntry c = some a →
            ((s.comps.comp c).stage = .rest ∧ (s.chans.get c.packer).state = .idle ∧ u = s.comps.comp c
              ∨ (s.comps.comp c).stage = .fault ∧ u = { s.comps.comp c with fault := none }) →
            t.lcc = s.lcc ∧ t.journal = s.journal ∧ t.inter = s.inter ∧ t.weigh = s.weigh ∧ t.lock = s.lock
              ∧ t.houses = s.houses ∧ SameStores s t
              ∧ (s.drive.latches.get c.packer = none →
                t.comps = s.comps.putComp c { u with stage := .sweep, stroke := none }
                  ∧ t.chans = s.chans.put c.packer (if s.inter.pto = true then Chan.started .pack a 255
                      else (Chan.started .pack a 255).pause)
                  ∧ Settled s t h 6#8 .ok .empty)
              ∧ ((s.drive.latches.get c.packer).isSome = true →
                t.comps = s.comps.putComp c { u with stage := .fault, stroke := none, fault := some ⟨.coil, a⟩ }
                  ∧ t.chans = s.chans.put c.packer
                      { Chan.started .pack a 255 with state := .fault, fault := some ⟨.coil, a⟩ }
                  ∧ Answers s t h 6#8 .ok .empty
                  ∧ Tells s t [alertTold (.packFault c ⟨.coil, a⟩), .answer h 6#8 .ok 1 1 .empty])

/-- UNLOAD makes its checks in order, and refuses with no effect; on a truck that stands still with the brake on and the permit
HELD it takes one reservation and starts the ejection, paused at once while PTO is off. A channel whose coil latch is set faults
at START: the stage is FAULT, the outcome FAULT, the reservation returned, and PACK_FAULT is sent (R28, R145, R146, R148, R149,
R150). That the answer follows JOURNAL_LOW (log 20), and comes before that PACK_FAULT (log 61), is the model's own choice. -/
def Obligations.UnloadStartsTheEjection : Prop :=
  ∀ (s : State) (h : Header) (b : Byte), Taken s h (.unload (some b)) →
    ∃ t, exec (.unload h (some b)) s = .next t
      ∧ (s.journal.starting = true → t.core = s.core ∧ Settled s t h 7#8 .busy .empty)
      ∧ (s.journal.starting = false → s.compNamed b = none → t.core = s.core ∧ Settled s t h 7#8 .noSuch .empty)
      ∧ ∀ c, s.journal.starting = false → s.compNamed b = some c →
        (s.shadow.state ≠ .ready → t.core = s.core ∧ Settled s t h 7#8 .shadowNotReady .empty)
        ∧ (s.shadow.state = .ready → (s.lcc.phase ≠ .idle ∨ (s.comps.comp c).stage ≠ .rest) →
            t.core = s.core ∧ Settled s t h 7#8 .busy .empty)
        ∧ (s.shadow.state = .ready → s.lcc.phase = .idle → (s.comps.comp c).stage = .rest →
          (s.inter.present = false ∨ s.inter.report.speed ≠ some 0 →
            t.core = s.core ∧ Settled s t h 7#8 .speed .empty)
          ∧ (s.inter.present = true → s.inter.report.speed = some 0 → s.inter.report.brakeOn ≠ some true →
              t.core = s.core ∧ Settled s t h 7#8 .wrongState .parkingBrake)
          ∧ (s.inter.present = true → s.inter.report.speed = some 0 → s.inter.report.brakeOn = some true →
              s.inter.permitHeld = false → t.core = s.core ∧ Settled s t h 7#8 .wrongState .noPermit)
          ∧ (s.inter.present = true → s.inter.report.speed = some 0 → s.inter.report.brakeOn = some true →
              s.inter.permitHeld = true →
            (s.ejectEntry c = none → t.core = s.core ∧ Settled s t h 7#8 .noSuch .empty)
            ∧ ∀ a, s.ejectEntry c = some a →
              (s.journal.canGrant = false → t.core = s.core ∧ Settled s t h 7#8 .journalFull .empty)
              ∧ (s.journal.canGrant = true → (s.chans.get c.packer).state = .idle →
                  t.journal.queue = s.journal.queue ∧ t.journal.free = s.journal.free
                    ∧ t.lcc = s.lcc ∧ t.inter = s.inter ∧ t.weigh = s.weigh ∧ t.lock = s.lock ∧ t.houses = s.houses
                    ∧ SameStores s t
                    ∧ (s.drive.latches.get c.packer = none →
                      t.comps = s.comps.putComp c { s.comps.comp c with stage := .ejecting, ejectDone := some false }
                        ∧ t.chans = s.chans.put c.packer (if s.inter.pto = true then Chan.started .eject a 255
                            else (Chan.started .eject a 255).pause)
                        ∧ t.journal.reserved = s.journal.reserved + 1
                        ∧ Answers s t h 7#8 .ok .empty ∧ Tells s t (s.lowTold ++ [.answer h 7#8 .ok 1 1 .empty]))
                    ∧ ((s.drive.latches.get c.packer).isSome = true →
                      t.comps = s.comps.putComp c { s.comps.comp c with
                          stage := .fault, stroke := none, ejectDone := none, lastEject := some .fault
                          fault := some ⟨.coil, a⟩ }
                        ∧ t.chans = s.chans.put c.packer
                            { Chan.started .eject a 255 with state := .fault, fault := some ⟨.coil, a⟩ }
                        ∧ t.journal.reserved = s.journal.reserved
                        ∧ Tells s t (s.lowTold ++ [.answer h 7#8 .ok 1 1 .empty,
                            alertTold (.packFault c ⟨.coil, a⟩)])))))

/-- ABORT_UNLOAD: WRONG_STATE outside EJECTING; before EJECT_DONE, with no pack cycle due, the channel is stopped, the
reservation returned and no record made; after it the UNLOAD record is staged, RECORD sent with its number and kind, and the
compartment is empty; NO_SUCH for a compartment that is not there (R149, R150, R159, R188). That the answer follows RECORD is the
model's own choice (log 20). -/
def Obligations.AbortUnloadSettlesTheEjection : Prop :=
  (∀ (s : State) (h : Header) (b : Byte), Taken s h (.abortUnload (some b)) → s.compNamed b = none →
    ∃ t, exec (.abortUnload h (some b)) s = .next t ∧ t.core = s.core ∧ Settled s t h 8#8 .noSuch .empty)
  ∧ ∀ (s : State) (h : Header) (b : Byte) (c : Compartment), Taken s h (.abortUnload (some b)) → s.compNamed b = some c →
    1 ≤ s.settings.inForce.packAfter →
    ∃ t, exec (.abortUnload h (some b)) s = .next t
      ∧ ((s.comps.comp c).stage ≠ .ejecting → t.core = s.core ∧ Settled s t h 8#8 .wrongState .empty)
      ∧ ((s.comps.comp c).stage = .ejecting → (s.comps.comp c).ejectDone = some false →
          (s.comps.comp c).tips < s.settings.inForce.packAfter →
          t.comps = s.comps.putComp c { s.comps.comp c with
              stage := .rest, ejectDone := none, lastEject := some .aborted }
            ∧ t.chans = s.chans.put c.packer (s.chans.get c.packer).stop
            ∧ t.journal.reserved = s.journal.reserved - 1 ∧ t.journal.queue = s.journal.queue
            ∧ t.journal.free = s.journal.free ∧ t.lcc = s.lcc ∧ SameStores s t ∧ Answers s t h 8#8 .ok .empty)
      ∧ ((s.comps.comp c).stage = .ejecting → (s.comps.comp c).ejectDone = some true →
          (t.comps.comp c).total = 0 ∧ (t.comps.comp c).shorts = 0 ∧ (t.comps.comp c).tips = 0
            ∧ (t.comps.comp c).stage = .rest ∧ (t.comps.comp c).lastEject = some .done
            ∧ t.chans = s.chans.put c.packer (s.chans.get c.packer).stop
            ∧ (∃ r, t.journal.queue = s.journal.queue ++ [r] ∧ r.kind = .unload ∧ r.comp = some c
                ∧ r.seq = s.journal.nextSeq
                ∧ r.gross = some ((((s.comps.comp c).total + 500) / 1000 : Nat) : Int))
            ∧ t.journal.reserved = s.journal.reserved - 1 ∧ t.lcc = s.lcc ∧ SameStores s t
            ∧ Answers s t h 8#8 .ok .empty
            ∧ Tells s t [recordTold s.journal.nextSeq .unload, .answer h 8#8 .ok 1 1 .empty])

/-- FAULT_CLEAR: NO_SUCH for a channel that is not there, WRONG_STATE for one that is PLAYING; otherwise the latch, if set,
is answered and cleared (R72). -/
def Obligations.FaultClearClearsTheLatch : Prop :=
  ∀ (s : State) (h : Header) (b : Byte), Taken s h (.faultClear (some b)) →
    ∃ t, exec (.faultClear h (some b)) s = .next t
      ∧ (s.chanNamed b = none → t.core = s.core ∧ Settled s t h 9#8 .noSuch .empty)
      ∧ ∀ c, s.chanNamed b = some c → c.number = b.toNat
        ∧ ((s.chans.get c).state = .run .playing → t.core = s.core ∧ Settled s t h 9#8 .wrongState .empty)
        ∧ ((s.chans.get c).state ≠ .run .playing → s.drive.latches.get c = none →
            t.core = s.core ∧ Settled s t h 9#8 .ok (.latch none))
        ∧ ∀ l, (s.chans.get c).state ≠ .run .playing → s.drive.latches.get c = some l →
            t.drive.latches = s.drive.latches.put c none ∧ t.core = (s.setDrive t.drive).core
              ∧ Settled s t h 9#8 .ok (.latch (some l))

/-- STATUS_GET: MALFORMED for a section outside the table; otherwise it changes nothing but its port and the count of free
values. The section is answered in its parts where the transmit queue has room for all of them, and by BUSY where parts do not
fit; a section of one part goes as any answer does (R187, R189). The number of parts is the model's own (log 17). Each section
gives its items from the part's registers, a port in LINKS with the request taken from its queue (log 57), the cause set outside
HALTED as empty (log 58) (R10, R49, R63, R74, R82,
R99, R118, R135, R152, R171, R181, R189); which items are absent before a start-up reading is the model's own choice where the
rules do not say (logs 42, 43, 44), and so is a next sequence past the last number, given as it stands (log 53); the time left to
the permit's deadline is free (log 4). -/
def Obligations.StatusGetOnlyReads : Prop :=
  (∀ (s : State) (h : Header) (b : Byte), Taken s h (.statusGet (some b)) →
    ∃ t, exec (.statusGet h (some b)) s = .next t ∧ t.core = s.core ∧ OnlyPort s t h
      ∧ (s.statusSection b = none ↔ 11 ≤ b.toNat)
      ∧ (11 ≤ b.toNat → Answers s t h 10#8 .malformed .empty ∧ t.freeIx = s.freeIx)
      ∧ ∀ d n, (s.popped h).statusSection b = some d → n = partCount (s.freeIx + 1) (.status d) →
          (s.port h.src.port).onBus = true → 1 ≤ n
            ∧ ((s.port h.src.port).tx.length + n ≤ 16 → (t.port h.src.port).tx = (s.port h.src.port).tx
                ++ (List.range n).map fun i => .answer h 10#8 .ok (i + 1) n (.status d))
            ∧ (16 < (s.port h.src.port).tx.length + n → 2 ≤ n → Answers s t h 10#8 .busy .empty)
            ∧ (n = 1 → Answers s t h 10#8 .ok (.status d)))
  ∧ (∀ (s : State) (x : Lcc), x = s.lcc → s.statusSection 0#8 = some (.cycle
      { phase := if x.phase = .halted then
            ⟨.halted, x.haltedPhase, x.causes, if x.causes.fault then x.faults else Six.all none⟩
          else ⟨x.phase, none, ⟨false, false, false, false⟩, Six.all none⟩
        stream := x.ctx.map LiftCtx.stream, target := x.ctx.map LiftCtx.target
        activeSlot := x.ctx.map LiftCtx.activeSlot, path := x.ctx.map LiftCtx.path
        decision := x.ctx.bind LiftCtx.decision, gross := x.ctx.bind LiftCtx.gross, tare := x.ctx.bind LiftCtx.tare }))
  ∧ (∀ s : State, ∃ x, s.statusSection 1#8 = some (.channels x) ∧ ∀ c : Channel, ∀ r, r = s.chans.get c →
      (s.hasChannel c = false → x.get c = none)
      ∧ (s.hasChannel c = true → ∃ y, x.get c = some y ∧ y.state = r.state ∧ y.origin = r.origin ∧ y.pointer = r.pointer
        ∧ y.interval = r.interval ∧ y.u = r.u ∧ y.uEnv = (r.u * r.envelope).tdiv 255
        ∧ y.fault = (if r.state = .fault then r.fault else none)
        ∧ y.resume = (if r.state = .paused then r.resume else none)
        ∧ y.deadline = (if r.state = .run .awaiting then r.deadline else none)
        ∧ (r.state ≠ .run .awaiting → y.condition = none)
        ∧ ∀ n timeout, r.state = .run .awaiting → decodeElement (s.elementWord r.pointer) = .await n timeout →
            y.condition = some n))
  ∧ (∀ s : State, ∃ x, s.statusSection 2#8 = some (.drive x) ∧ x.qa = s.drive.qa ∧ x.rpm = s.drive.rpm
      ∧ x.usingIdle = s.drive.usingIdle ∧ x.budget = s.drive.sharing.budget ∧ x.total = s.drive.sharing.total
      ∧ x.scale = s.drive.sharing.scale ∧ x.timer0 = s.drive.timer0 ∧ x.timer1 = s.drive.timer1
      ∧ x.period0 = s.drive.period0 ∧ x.period1 = s.drive.period1 ∧ x.latches = s.drive.latches
      ∧ ∀ c, x.chans.get c = (if s.hasChannel c then some (s.drive.sharing.chans.get c) else none)
          ∧ x.coils.get c = (if s.hasChannel c then some (s.drive.coils.get c) else none))
  ∧ (∀ s : State, s.statusSection 3#8 = some (.store
      { state := if s.store.verifying then none else some s.store.state, job := s.store.job
        check := if s.store.verifying then none else s.store.check, shadow := s.shadow.state
        shadowCheck := s.shadow.check, loading := decide (s.shadow.state = .loading), slots := s.slotMap }))
  ∧ (∀ (s : State) (x : Weigh), x = s.weigh → s.statusSection 4#8 = some (.weigh
      ⟨x.enabled, x.window, x.settle.length, x.settle, x.hold, x.zt, x.residual⟩))
  ∧ (∀ (s : State) (x : Lock), x = s.lock → ∃ y, s.statusSection 5#8 = some (.lock y) ∧ y.state = x.state
      ∧ y.failed = x.failed ∧ (y.trial = true ↔ x.working ≠ x.reference) ∧ y.zeroCrossed = x.zero.crossed
      ∧ (y.unstableCrossed = true ↔ 8 ≤ (x.outcomes.filter (· == .unstable)).length)
      ∧ (y.balanceCrossed = true ↔ ∃ v, x.balance = some v ∧ 60 ≤ v)
      ∧ y.write = x.write.map MetroWrite.kind
      ∧ (x.reading = true → y.cal = none ∧ y.cec = none ∧ y.working = none ∧ y.lockedCheck = none ∧ y.level = none
          ∧ y.codePresent = none ∧ y.legal = none)
      ∧ (x.reading = false → y.cal = some x.cal ∧ y.cec = some x.cec ∧ y.working = some x.working
          ∧ y.lockedCheck = x.lockedCheck ∧ y.level = some x.level ∧ y.codePresent = some x.code.isSome
          ∧ y.legal = some s.legal))
  ∧ (∀ (s : State) (x : Houses), x = s.houses → ∃ y, s.statusSection 6#8 = some (.households y) ∧ y.loaded = x.loaded
      ∧ y.entries = x.table.length ∧ y.windowOpen = x.windowOpen ∧ y.tagList = x.tagList ∧ y.overflow = x.overflow
      ∧ y.lastResult = x.lastResult ∧ ((∀ e ∈ x.table, e.pinned = false) → y.pinned = none)
      ∧ ∀ l e r, x.table = l ++ e :: r → (∀ f ∈ l, f.pinned = false) → e.pinned = true → y.pinned = some e.tag)
  ∧ (∀ s : State, ∃ a b, s.statusSection 7#8 = some (.compartments a b)
      ∧ (b = none ↔ s.variant = .single)
      ∧ ∀ c y, (c = .a ∧ y = a ∨ c = .b ∧ b = some y) →
          y.total = (if s.journal.starting then none else some (s.comps.comp c).total)
          ∧ y.status = (s.comps.comp c).status ∧ y.tips = (s.comps.comp c).tips ∧ y.shorts = (s.comps.comp c).shorts
          ∧ y.stage = (s.comps.comp c).stage ∧ y.stroke = (s.comps.comp c).stroke
          ∧ y.lastStroke = (s.comps.comp c).lastStroke ∧ y.lastEject = (s.comps.comp c).lastEject
          ∧ y.fault = (if (s.comps.comp c).stage = .fault then (s.comps.comp c).fault else none)
          ∧ y.ejectDone = (if (s.comps.comp c).stage = .ejecting then (s.comps.comp c).ejectDone else none))
  ∧ (∀ (s : State) (j : Journal), j = s.journal →
      (j.starting = true → s.statusSection 8#8 = some (.journal true none))
      ∧ (j.starting = false → s.statusSection 8#8 = some (.journal false (some
        { newest := j.newest, oldest := j.oldest, nextSeq := j.nextSeq, mark := j.mark
          unreleased := (match j.newest with
            | none => 0
            | some n => n - j.mark)
          free := j.free, reserved := j.reserved, queued := j.queue.length, low := j.low
          writing := if j.writing = none then none else j.queue.head?.map Record.seq
          releasing := j.release.isSome, erase := j.erase, sectors := j.sectors.map Sector.state }))))
  ∧ (∀ (s : State) (x : Interlocks), x = s.inter → ∃ y, s.statusSection 9#8 = some (.interlocks y)
      ∧ y = ⟨x.permitHeld, y.timeLeft, x.present, x.report.speed, x.report.rpm, x.report.brakeOn, x.speedOver, x.pto,
          x.snapshot, x.alarm, x.seconds, x.timeValid⟩
      ∧ y.timeLeft.isSome = (x.permitHeld && x.permitTimer.isSome)
      ∧ ∀ n p, y.timeLeft = some n → x.permitTimer = some p → n ≤ p)
  ∧ ∀ (s : State) (p : PortState → PortStatus),
      (∀ x, p x = ⟨x.onBus, x.rx.length, x.tx.length, x.deferred.map Deferred.kind⟩) →
      s.statusSection 10#8 = some (.links (p s.links.body) (p s.links.chassis) (p s.links.service)
        (if s.settings.reading then none else some s.settings.origin))

/-! ## The route terminal's requests (R62, R123 to R128, R165, R166, R180, R190, R191) -/

/-- ENTRY_PUT, ENTRY_DROP, ENTRY_GET, TABLE_CLEAR and TABLE_READY on an ordered table: a put's fields in range give the entry
that they name and no others give one; a pinned entry is not touched; an accepted put gives its tag exactly the entry asked
for and no other tag another one; a drop takes one tag out; a read changes nothing (R123, R125 to R129, R197). That a lift limit
byte of 255 is absent (log 28), that a streams byte above 3 is MALFORMED (log 51) and that an ENTRY_GET form of 3 or more is
(log 27) are the model's readings. -/
def Obligations.HouseholdEdits : Prop :=
  (∀ f : EntryFields, entryOf f =
    if f.tag ≠ 0xFFFFFFFFFFFFFFFF#64 ∧ f.account ≠ 0xFFFFFFFF#32 ∧ f.status.toNat ≤ 1 ∧ 1 ≤ f.streams.toNat
        ∧ f.streams.toNat ≤ 3 ∧ f.slot.toNat ≤ 3 ∧ f.tariff.toNat ≤ 1 ∧ f.excessPolicy.toNat ≤ 1 ∧ f.liftLimit ≠ 0#8
        ∧ (f.allowance = 0xFFFFFF#24 ∨ f.tariff = 0#8) then
      some
        { tag := f.tag, account := f.account.toNat, status := if f.status = 0#8 then .active else .suspended
          takesRefuse := decide (f.streams.toNat % 2 = 1), takesRecycle := decide (2 ≤ f.streams.toNat)
          slot := f.slot.toNat, tariff := if f.tariff = 0#8 then .byWeight else .byLift
          allowance := if f.allowance = 0xFFFFFF#24 then none else some f.allowance.toNat
          excess := if f.excessPolicy = 0#8 then .charge else .refuse
          liftLimit := if f.liftLimit = 255#8 then none else some f.liftLimit.toNat, liftsToday := 0, lastTime := none
          pinned := false }
    else none)
  ∧ ∀ (s : State) (h : Header), TableOrdered s →
    (∀ f, Taken s h (.entryPut (some f)) → ∃ t, exec (.entryPut h (some f)) s = .next t
      ∧ (entryOf f = none → t.core = s.core ∧ Settled s t h 16#8 .malformed .empty)
      ∧ ∀ e, entryOf f = some e →
        (∀ o, s.houses.find f.tag = some o → o.pinned = true →
          t.core = s.core ∧ Settled s t h 16#8 .entryPinned .empty)
        ∧ (s.houses.find f.tag = none → s.houses.table.length = 4096 →
          t.core = s.core ∧ Settled s t h 16#8 .tableFull .empty)
        ∧ (∀ o, s.houses.find f.tag = some o → o.pinned = false →
          Settled s t h 16#8 .ok (.replaced s.houses.table.length))
        ∧ (s.houses.find f.tag = none → s.houses.table.length < 4096 →
          Settled s t h 16#8 .ok (.inserted (s.houses.table.length + 1)))
        ∧ ((∃ o, s.houses.find f.tag = some o ∧ o.pinned = false)
            ∨ (s.houses.find f.tag = none ∧ s.houses.table.length < 4096) →
          t.houses.find f.tag = some e ∧ e.liftsToday = 0 ∧ e.lastTime = none ∧ e.pinned = false
            ∧ (∀ tag, tag ≠ f.tag → t.houses.find tag = s.houses.find tag)
            ∧ t.core = (s.setHouses { s.houses with table := t.houses.table }).core))
    ∧ (∀ tag, Taken s h (.entryDrop (some tag)) → ∃ t, exec (.entryDrop h (some tag)) s = .next t
      ∧ (s.houses.find tag = none → t.core = s.core ∧ Settled s t h 17#8 .notFound .empty)
      ∧ ∀ e, s.houses.find tag = some e →
        (e.pinned = true → t.core = s.core ∧ Settled s t h 17#8 .entryPinned .empty)
        ∧ (e.pinned = false → t.houses.find tag = none ∧ (∀ g, g ≠ tag → t.houses.find g = s.houses.find g)
            ∧ t.core = (s.setHouses { s.houses with table := t.houses.table }).core
            ∧ Settled s t h 17#8 .ok (.count (s.houses.table.length - 1))))
    ∧ (∀ f, Taken s h (.entryGet (some f)) → ∃ t, exec (.entryGet h (some f)) s = .next t ∧ t.core = s.core
      ∧ (f.form = 0#8 → ∀ e, s.houses.find f.tag = some e → Settled s t h 18#8 .ok (.entry e))
      ∧ (f.form = 0#8 → s.houses.find f.tag = none → Settled s t h 18#8 .notFound .empty)
      ∧ (f.form = 1#8 → ∀ e r, s.houses.table = e :: r → Settled s t h 18#8 .ok (.entry e))
      ∧ (f.form = 2#8 → ∀ e ∈ s.houses.table, f.tag.toNat < e.tag.toNat →
          (∀ g ∈ s.houses.table, f.tag.toNat < g.tag.toNat → e.tag.toNat ≤ g.tag.toNat) →
          Settled s t h 18#8 .ok (.entry e))
      ∧ (f.form = 1#8 → s.houses.table = [] → Settled s t h 18#8 .notFound .empty)
      ∧ (f.form = 2#8 → (∀ e ∈ s.houses.table, e.tag.toNat ≤ f.tag.toNat) → Settled s t h 18#8 .notFound .empty)
      ∧ (3 ≤ f.form.toNat → Settled s t h 18#8 .malformed .empty))
    ∧ (Taken s h (.tableClear (some ())) → ∃ t, exec (.tableClear h (some ())) s = .next t
      ∧ ((∃ e ∈ s.houses.table, e.pinned = true) → t.core = s.core ∧ Settled s t h 19#8 .entryPinned .empty)
      ∧ ((∀ e ∈ s.houses.table, e.pinned = false) →
          t.core = (s.setHouses { s.houses with table := [], loaded := false }).core ∧ Settled s t h 19#8 .ok .empty))
    ∧ (Taken s h (.tableReady (some ())) → ∃ t, exec (.tableReady h (some ())) s = .next t
      ∧ t.core = (s.setHouses { s.houses with loaded := true }).core
      ∧ Settled s t h 20#8 .ok (.count s.houses.table.length))

/-- JOURNAL_READ, by number or of the next unreleased record, answers the written record in two parts (log 17), NOT_YET above
the newest, GONE below the oldest, and changes nothing; JOURNAL_RELEASE starts a release write to at most the newest written
number, answers at once where it has nothing to raise, and RELEASE_WRITE_DONE raises the mark and answers it. The mark goes to
the cell that does not hold the present one, the other standing; FULL sectors whose records are all released become
RECLAIMABLE, and where no erase is in flight that of the lowest numbers begins (R162, R164, R165, R166). The cell written while
none is known to hold the mark is log 38, the order of sectors without records log 32, and the check of the cell being written
is log 15. What is answered with no record written is log 33; that a form of 2 or more is MALFORMED is log 27, and that it too is
answered BUSY while STARTING is log 29; a completion with no release write in flight changes nothing (log 3). -/
def Obligations.JournalReadAndRelease : Prop :=
  ∀ (s : State) (h : Header),
    (∀ f, Taken s h (.journalRead (some f)) → ∃ t, exec (.journalRead h (some f)) s = .next t ∧ t.core = s.core
      ∧ (s.journal.starting = true → Settled s t h 21#8 .busy .empty)
      ∧ (s.journal.starting = false → (f.form = 0#8 ∧ f.seq = 0xFFFFFFFF#32 ∨ 2 ≤ f.form.toNat) →
          Settled s t h 21#8 .malformed .empty)
      ∧ ∀ n, s.journal.starting = false →
        (f.form = 0#8 ∧ f.seq ≠ 0xFFFFFFFF#32 ∧ n = f.seq.toNat ∨ f.form = 1#8 ∧ n = s.journal.mark + 1) →
        (s.journal.newest = none → Settled s t h 21#8 .notYet (.seq none))
        ∧ ∀ new old, s.journal.newest = some new → s.journal.oldest = some old →
          (new < n → Settled s t h 21#8 .notYet (.seq (some new)))
          ∧ (n ≤ new → n < old → Settled s t h 21#8 .gone (.seq (some old)))
          ∧ ∀ e, n ≤ new → old ≤ n → s.journal.find n = some e →
              OnlyPort s t h ∧ ((s.port h.src.port).onBus = true → (s.port h.src.port).tx.length + 2 ≤ 16 →
                (t.port h.src.port).tx = (s.port h.src.port).tx
                  ++ [.answer h 21#8 .ok 1 2 (.record e.2 new s.journal.mark),
                      .answer h 21#8 .ok 2 2 (.record e.2 new s.journal.mark)])
              ∧ (14 < (s.port h.src.port).tx.length → Answers s t h 21#8 .busy .empty))
    ∧ (∀ w, Taken s h (.journalRelease (some w)) → ∃ t, exec (.journalRelease h (some w)) s = .next t
      ∧ (s.journal.starting = true → t.core = s.core ∧ Settled s t h 22#8 .busy .empty)
      ∧ (s.journal.starting = false → w = 0xFFFFFFFF#32 → t.core = s.core ∧ Settled s t h 22#8 .malformed .empty)
      ∧ (s.journal.starting = false → w ≠ 0xFFFFFFFF#32 → s.journal.release.isSome = true →
          t.core = s.core ∧ Settled s t h 22#8 .busy .empty)
      ∧ (s.journal.starting = false → w ≠ 0xFFFFFFFF#32 → s.journal.release = none → w.toNat ≤ s.journal.mark →
          t.core = s.core ∧ Settled s t h 22#8 .ok (.count s.journal.unreleased))
      ∧ (s.journal.starting = false → w ≠ 0xFFFFFFFF#32 → s.journal.release = none → s.journal.mark < w.toNat →
          s.journal.newest = none → t.core = s.core ∧ Settled s t h 22#8 .clamped (.count 0))
      ∧ ∀ new, s.journal.starting = false → w ≠ 0xFFFFFFFF#32 → s.journal.release = none → s.journal.newest = some new →
          s.journal.mark < w.toNat →
          (s.journal.mark < new → t.journal.release = some ⟨min w.toNat new, decide (new < w.toNat)⟩
            ∧ t.journal.mark = s.journal.mark ∧ t.journal.slots = s.journal.slots ∧ Held s t h 22#8
            ∧ ∀ d, s.journal.holder = some d → t.journal.cells.side d = s.journal.cells.side d)
          ∧ (new = s.journal.mark → t.core = s.core ∧ Settled s t h 22#8 .clamped (.count s.journal.unreleased)))
    ∧ (s.journal.release = none → exec .releaseWriteDone s = .next s)
    ∧ ∀ w, s.journal.release = some w → ∃ t, exec .releaseWriteDone s = .next t
      ∧ t.journal.mark = w.value ∧ t.journal.release = none ∧ t.journal.slots = s.journal.slots
      ∧ t.journal.queue = s.journal.queue ∧ t.journal.reserved = s.journal.reserved
      ∧ t.core = (s.setJournal t.journal).core
      ∧ AnswersHeld s t .body 22#8 (if w.clamped then .clamped else .ok) (.count t.journal.unreleased)
      ∧ ∀ j u : Journal, j = s.journal → u = t.journal →
        (∀ d, j.holder = some d → u.cells.side d = j.cells.side d ∧ u.cells.side d.other = ⟨w.value, true⟩
            ∧ u.holder = some d.other)
        ∧ (j.holder = none → u.cells = ⟨⟨w.value, true⟩, j.cells.b⟩ ∧ u.holder = some .a)
        ∧ (∀ k < 32, (j.sector k).state = .full → u.Spent k → u.sector k = ⟨.reclaimable, false⟩ ∨ u.Erases k)
        ∧ (j.erase ≠ none → u.erase = j.erase ∧ u.note = j.note ∧ u.oldest = j.oldest)
        ∧ ∀ c : Nat → Prop, j.NewestOnce → (∀ k, c k ↔ k < 32 ∧
              ((j.sector k).state = .reclaimable ∨ ((j.sector k).state = .full ∧ u.Spent k))) →
            (∀ k, ¬ c k → u.sector k = j.sector k)
            ∧ (∀ k, c k → j.erase ≠ none → (u.sector k).state = .reclaimable)
            ∧ ((∀ k, ¬ c k) → u.erase = j.erase ∧ u.note = j.note ∧ u.oldest = j.oldest)
            ∧ (j.erase = none → (∃ k, c k) → u.OldestStands ∧ ∃ k, c k ∧ u.Erases k
                ∧ ∀ m, c m → m ≠ k → (u.sector m).state = .reclaimable)
            ∧ (∀ k < 32, j.erase = none → j.sector k = ⟨.reclaimable, true⟩ →
                (∀ m < k, j.sector m ≠ ⟨.reclaimable, true⟩) → u.Erases k)
            ∧ (∀ k, j.erase = none → (∀ m, (j.sector m).disregarded = false) → u.Lowest c k → u.Erases k)

/-- TIME_SET sets the counter, all ones being MALFORMED; SECOND_TICK raises it by 1 and stops at 4,294,967,294; SLOT_MAP
applies every pair of a list in range together, or none (R62, R180). That a list of no pairs or of more than four is MALFORMED
is the model's reading (log 27). -/
def Obligations.ClockAndSlotMap : Prop :=
  ∀ (s : State) (h : Header),
    (∀ w, Taken s h (.timeSet (some w)) → ∃ t, exec (.timeSet h (some w)) s = .next t
      ∧ (w = allOnes32 → t.core = s.core ∧ Settled s t h 23#8 .malformed .empty)
      ∧ (w ≠ allOnes32 → t.core = (s.setInter { s.inter with seconds := w.toNat, timeValid := true }).core
          ∧ Settled s t h 23#8 .ok .empty))
    ∧ exec .secondTick s = .next (s.setInter { s.inter with
        seconds := if s.inter.seconds < 4294967294 then s.inter.seconds + 1 else s.inter.seconds })
    ∧ ∀ l, Taken s h (.slotMap (some l)) → ∃ t, exec (.slotMap h (some l)) s = .next t
      ∧ (1 ≤ l.length → l.length ≤ 4 → (∀ e ∈ l, e.1.toNat ≤ 3 ∧ e.2.toNat ≤ 15) → (l.map Prod.fst).Nodup →
          (∀ e ∈ l, t.slotMap.get e.1.toNat = e.2.toNat)
            ∧ (∀ k, k ≤ 3 → (∀ e ∈ l, e.1.toNat ≠ k) → t.slotMap.get k = s.slotMap.get k)
            ∧ t.core = (s.setSlotMap t.slotMap).core ∧ Settled s t h 24#8 .ok (.slots t.slotMap))
      ∧ (l.length = 0 ∨ 4 < l.length ∨ (∃ e ∈ l, 3 < e.1.toNat ∨ 15 < e.2.toNat) ∨ ¬ (l.map Prod.fst).Nodup →
          t.core = s.core ∧ Settled s t h 24#8 .malformed .empty)

/-- SETTING_PUT takes a list of 1 to 8 settings, none twice, an enumerated one with a code of its list; it applies every pair
at once, each numeric value at its nearer bound, makes the block dirty and starts a write where none runs; a malformed list
applies none. SETTING_GET reads one setting or all. SETTINGS_WRITE_DONE makes the written generation the one in force (R190,
R191); with no write in flight it changes nothing (log 3). The bounds of the list (log 27), BUSY during the reading for every list
and name (log 29) and the answer after the messages of a due pack cycle (log 20) are the model's own. The put takes effect at
once: a new limit_A, limit_B or full_strokes gives each compartment its status, a change of which sends PAYLOAD (R137, R179); a new
pack_after starts a pack cycle that is due (R141); a new idle_rpm or displacement gives Qa (R66). That a put which changes both
statuses sends two PAYLOADs (log 47), and that statuses are recomputed while STARTING from the totals held (log 52), are the model's
own choices. -/
def Obligations.SettingsPutGetAndWritten : Prop :=
  (∀ l : List (Byte × BitVec 16), ((settingPairs l).isSome = true ↔ 1 ≤ l.length ∧ l.length ≤ 8
      ∧ (∀ e ∈ l, e.1.toNat < 13) ∧ (l.map Prod.fst).Nodup
      ∧ ∀ e ∈ l, (e.1.toNat = 5 ∨ 11 ≤ e.1.toNat) → e.2.toNat ≤ 1)
    ∧ ∀ pairs, settingPairs l = some pairs →
        l.map (fun e => (allSettings[e.1.toNat]?, e.2.toNat)) = pairs.map fun e => (some e.1, e.2))
  ∧ ∀ (s : State) (h : Header),
    (∀ l, Taken s h (.settingPut (some l)) → ∃ t, exec (.settingPut h (some l)) s = .next t
      ∧ (s.settings.reading = true → t.core = s.core ∧ Settled s t h 25#8 .busy .empty)
      ∧ (s.settings.reading = false → settingPairs l = none → t.core = s.core ∧ Settled s t h 25#8 .malformed .empty)
      ∧ ∀ pairs, s.settings.reading = false → settingPairs l = some pairs →
          (∀ k v, (k, v) ∈ pairs → t.settings.inForce.value k = k.clamp v)
          ∧ (∀ k, (∀ v, (k, v) ∉ pairs) → t.settings.inForce.value k = s.settings.inForce.value k)
          ∧ (s.settings.write = none → s.settings.generation < 4294967294 →
              t.settings.write = some ⟨t.settings.inForce, s.settings.generation + 1⟩ ∧ t.settings.dirty = false)
          ∧ (s.settings.write ≠ none ∨ 4294967294 ≤ s.settings.generation →
              t.settings.write = s.settings.write ∧ t.settings.dirty = true)
          ∧ t.store = s.store ∧ t.shadow = s.shadow ∧ t.lock = s.lock ∧ t.houses = s.houses ∧ t.inter.report = s.inter.report
          ∧ t.lcc = s.lcc ∧ t.weigh = s.weigh ∧ t.journal = s.journal
          ∧ (∀ m, (t.comps.comp m).total = (s.comps.comp m).total ∧ (t.comps.comp m).shorts = (s.comps.comp m).shorts
              ∧ (t.comps.comp m).tips = (s.comps.comp m).tips)
          ∧ ((∃ k ∈ [Setting.limitA, .limitB, .fullStrokes], ∃ v, (k, v) ∈ pairs) → ∀ m, s.hasComp m = true →
              (t.comps.comp m).status = statusOf (s.comps.comp m).total (s.comps.comp m).shorts
                (t.settings.inForce.limit m) t.settings.inForce.fullStrokes)
          ∧ ((∀ k ∈ [Setting.limitA, .limitB, .fullStrokes], ∀ v, (k, v) ∉ pairs) →
              ∀ m, (t.comps.comp m).status = (s.comps.comp m).status)
          ∧ ((∀ m, (t.comps.comp m).status = (s.comps.comp m).status) →
              t.links.chassis = s.links.chassis ∧ t.inter = s.inter)
          ∧ (∀ m, (t.comps.comp m).status ≠ (s.comps.comp m).status →
              t.inter = { s.inter with payloadTimer := 500 }
                ∧ ((∀ k, k ≠ m → (t.comps.comp k).status = (s.comps.comp k).status) → SendsPayload s t t.payloadMsg))
          ∧ ((∀ m, (t.comps.comp m).status ≠ (s.comps.comp m).status) → s.links.chassis.onBus = true →
              s.links.chassis.tx.length + 2 ≤ 16 → t.links.chassis.tx = s.links.chassis.tx
                ++ [.payload { t.payloadMsg with statusB := s.payloadMsg.statusB }, .payload t.payloadMsg])
          ∧ ((∃ v, (Setting.packAfter, v) ∈ pairs) → ∀ m a, s.hasComp m = true →
              t.settings.inForce.packAfter ≤ (s.comps.comp m).tips → (s.comps.comp m).stage = .rest → s.inter.pto = true →
              s.shadow.state = .ready → s.journal.starting = false → s.packEntry m = some a →
              (s.chans.get m.packer).state = .idle → s.drive.latches.get m.packer = none →
              t.chans.get m.packer = Chan.started .pack a 255 ∧ (t.comps.comp m).stage = .sweep
                ∧ (t.comps.comp m).stroke = none)
          ∧ (∀ m, ((∀ v, (Setting.packAfter, v) ∉ pairs) ∨ (s.comps.comp m).tips < t.settings.inForce.packAfter
                ∨ (s.comps.comp m).stage ≠ .rest ∨ s.inter.pto = false) →
              t.chans.get m.packer = s.chans.get m.packer ∧ (t.comps.comp m).stage = (s.comps.comp m).stage
                ∧ (t.comps.comp m).stroke = (s.comps.comp m).stroke)
          ∧ (∀ k, k.isArm = true → t.chans.get k = s.chans.get k)
          ∧ ((∃ k ∈ [Setting.idleRpm, .displacement], ∃ v, (k, v) ∈ pairs) →
              (∀ n, s.inter.present = true → s.inter.report.rpm = some n →
                t.drive.qa = n * t.settings.inForce.displacement / 100 ∧ t.drive.usingIdle = false)
              ∧ (s.inter.present = false ∨ s.inter.report.rpm = none →
                t.drive.qa = t.settings.inForce.idleRpm * t.settings.inForce.displacement / 100
                  ∧ t.drive.usingIdle = true))
          ∧ ((∀ k ∈ [Setting.idleRpm, .displacement], ∀ v, (k, v) ∉ pairs) →
              t.drive.qa = s.drive.qa ∧ t.drive.usingIdle = s.drive.usingIdle)
          ∧ Answers s t h 25#8 (if pairs.all (fun e => e.1.clamp e.2 == e.2) then .ok else .clamped)
              (.settings (pairs.map fun e => (e.1, e.1.clamp e.2))))
    ∧ (∀ b, Taken s h (.settingGet (some b)) → ∃ t, exec (.settingGet h (some b)) s = .next t ∧ t.core = s.core
      ∧ (s.settings.reading = true → Settled s t h 26#8 .busy .empty)
      ∧ (s.settings.reading = false → b.toNat < 13 → ∃ k, allSettings[b.toNat]? = some k ∧ Settled s t h 26#8 .ok
          (.settingsAll [(k, s.settings.inForce.value k)] s.settings.origin s.settings.write.isSome))
      ∧ (s.settings.reading = false → b = 255#8 → Settled s t h 26#8 .ok
          (.settingsAll (allSettings.map fun k => (k, s.settings.inForce.value k)) s.settings.origin
            s.settings.write.isSome))
      ∧ (s.settings.reading = false → 13 ≤ b.toNat → b ≠ 255#8 → Settled s t h 26#8 .malformed .empty))
    ∧ (s.settings.write = none → exec .settingsWriteDone s = .next s)
    ∧ ∀ w, s.settings.write = some w → ∃ t, exec .settingsWriteDone s = .next t
      ∧ t.settings.generation = w.generation ∧ t.settings.inForce = s.settings.inForce
      ∧ (s.settings.dirty = false → t.settings.write = none
          ∧ (t.settings.cells.side s.settings.target) = ⟨w.settings.values, w.generation, true⟩
          ∧ (t.settings.cells.side s.settings.target.other) = s.settings.cells.side s.settings.target.other)
      ∧ (s.settings.dirty = true → w.generation < 4294967294 →
          t.settings.write = some ⟨s.settings.inForce, w.generation + 1⟩)
      ∧ t = s.setSettings t.settings

/-! ## The Metrology Lock (R100 to R118) -/

/-- FREEZE_LOCK freezes a lock that is not OPEN; OPEN_LOCK makes its checks in order, counts a wrong code, freezes at the
fifth, opens on the right one, and is MALFORMED for an identity that is neither value, in every lock state (R102, R103, R104). TRIAL_SET, TRIAL_DISCARD, COMMIT and SERVICE_ZERO are answered LOCKED or
FROZEN but by an OPEN lock (R102), the first three BUSY during a metrology write (R110); any request to the lock is answered
BUSY until its items are read (R101; log 29). -/
def Obligations.LockOpensAndFreezes : Prop :=
  (∀ (c : Instr) (h : Header) (r : Request) (s : State), requestOf c = some (h, r) → toLock c = true → Taken s h r →
    ∃ t, exec c s = .next t
      ∧ (s.lock.reading = true → t.core = (s.seen c).core ∧ Settled s t h r.code .busy .empty)
      ∧ (s.lock.reading = false → onlyOpen c = true →
        (s.lock.state = .locked → t.core = s.core ∧ Settled s t h r.code .locked .empty)
        ∧ (s.lock.state = .frozen → t.core = s.core ∧ Settled s t h r.code .frozen .empty)
        ∧ (s.lock.state = .opened → s.lock.write ≠ none → onlyUnwritten c = true →
            t.core = s.core ∧ Settled s t h r.code .busy .empty)))
  ∧ ∀ (s : State) (h : Header), s.lock.reading = false →
    (Taken s h (.freezeLock (some ())) → ∃ t, exec (.freezeLock h (some ())) s = .next t
      ∧ (s.lock.state = .opened → t.core = s.core ∧ Settled s t h 27#8 .wrongState .empty)
      ∧ (s.lock.state ≠ .opened → t.core = (s.setLock { s.lock with state := .frozen }).core
          ∧ Settled s t h 27#8 .ok .empty))
    ∧ (∀ (f : OpenLockFields) (wire : Bool), Taken s h (.openLock (some f)) → 1 < f.identity.toNat →
      ∃ t, exec (.openLock h (some f) wire) s = .next t
        ∧ t.core = (s.setPins { s.pins with lockWireOpen := wire }).core ∧ Settled s t h 32#8 .malformed .empty)
    ∧ ∀ (f : OpenLockFields) (wire : Bool) (u : State), Taken s h (.openLock (some f)) → f.identity.toNat ≤ 1 →
      u = s.setPins { s.pins with lockWireOpen := wire } →
      ∃ t, exec (.openLock h (some f) wire) s = .next t
        ∧ (s.lock.state = .frozen → t.core = u.core ∧ Settled s t h 32#8 .frozen .empty)
        ∧ (s.lock.state = .opened → t.core = u.core ∧ Settled s t h 32#8 .wrongState .empty)
        ∧ (s.lock.state = .locked → wire = false → t.core = u.core ∧ Settled s t h 32#8 .wireIntact .empty)
        ∧ (s.lock.state = .locked → wire = true → s.lcc.phase ≠ .idle →
            t.core = u.core ∧ Settled s t h 32#8 .busy .empty)
        ∧ (s.lock.state = .locked → wire = true → s.lcc.phase = .idle →
            (s.inter.present = false ∨ s.inter.report.speed ≠ some 0) →
            t.core = u.core ∧ Settled s t h 32#8 .speed .empty)
        ∧ ∀ own : Option LockCode, own = (if f.identity = 0#8 then s.lock.code else some Config.makerCode) →
          s.lock.state = .locked → wire = true → s.lcc.phase = .idle → s.inter.present = true →
          s.inter.report.speed = some 0 →
          (own ≠ some f.code →
            t.core = (u.setLock { s.lock with
                failed := s.lock.failed + 1, state := if 5 ≤ s.lock.failed + 1 then .frozen else .locked }).core
              ∧ Settled s t h 32#8 .codeMismatch .empty)
          ∧ (own = some f.code → t.lock.state = .opened ∧ t.lock.failed = 0 ∧ Settled s t h 32#8 .ok .empty
              ∧ t.core = (u.setLock t.lock).core
              ∧ (f.identity = 0#8 ∨ s.lock.level = .high → t.lock = { s.lock with failed := 0, state := .opened })
              ∧ (f.identity = 1#8 → s.lock.level = .maximum → t.lock.code = none ∧ t.lock.level = .high
                  ∧ t.lock.cal = (if s.lock.cal = .valid then .unverified else s.lock.cal)
                  ∧ t.lock.write = some (.maker (s.lock.cal == .valid))))

/-- CLOSE_LOCK closes an OPEN lock with no write in flight and the trial flag clear, by a verify write from UNVERIFIED;
SET_CODE is MALFORMED for a code of all ones or a level outside the two, in every lock state, which is the model's own order
(log 50), and starts a code write; the completions of the verify, maker and code writes (R105, R109, R111), each of which
changes nothing where no such write is in flight (log 3). -/
def Obligations.LockClosesAndCodesAreSet : Prop :=
  ∀ (s : State) (h : Header), s.lock.reading = false →
    (Taken s h (.closeLock (some ())) → ∃ t, exec (.closeLock h (some ())) s = .next t
      ∧ (s.lock.state ≠ .opened → t.core = s.core ∧ Settled s t h 33#8 .wrongState .empty)
      ∧ (s.lock.state = .opened → s.lock.write ≠ none → t.core = s.core ∧ Settled s t h 33#8 .busy .empty)
      ∧ (s.lock.state = .opened → s.lock.write = none → s.lock.working ≠ s.lock.reference →
          t.core = s.core ∧ Settled s t h 33#8 .trialPending .empty)
      ∧ (s.lock.state = .opened → s.lock.write = none → s.lock.working = s.lock.reference → s.lock.cal ≠ .unverified →
          t.core = (s.setLock { s.lock with state := .locked }).core ∧ Settled s t h 33#8 .ok .empty)
      ∧ (s.lock.state = .opened → s.lock.write = none → s.lock.working = s.lock.reference → s.lock.cal = .unverified →
          t.core = (s.setLock { s.lock with
              write := some .verify, block := { s.lock.block with check := none } }).core ∧ Held s t h 33#8))
    ∧ (∀ f, Taken s h (.setCode (some f)) → f.level.toNat ≤ 1 → f.code ≠ BitVec.allOnes 256 →
      ∃ t, exec (.setCode h (some f)) s = .next t
        ∧ (s.lock.state = .locked → t.core = s.core ∧ Settled s t h 34#8 .locked .empty)
        ∧ (s.lock.state = .frozen → t.core = s.core ∧ Settled s t h 34#8 .frozen .empty)
        ∧ (s.lock.state = .opened → s.lock.write ≠ none → t.core = s.core ∧ Settled s t h 34#8 .busy .empty)
        ∧ (s.lock.state = .opened → s.lock.write = none →
            t.core = (s.setLock { s.lock with
                write := some (.code f.code (if f.level = 0#8 then .high else .maximum)),
                codeRecord := { s.lock.codeRecord with checkGood := false } }).core ∧ Held s t h 34#8))
    ∧ (∀ f, Taken s h (.setCode (some f)) → 1 < f.level.toNat ∨ f.code = BitVec.allOnes 256 →
      ∃ t, exec (.setCode h (some f)) s = .next t ∧ t.core = s.core ∧ Settled s t h 34#8 .malformed .empty)
    ∧ (s.lock.write ≠ some .verify → exec .verifyWriteDone s = .next s)
    ∧ ((∀ withBlock, s.lock.write ≠ some (.maker withBlock)) → exec .makerWriteDone s = .next s)
    ∧ ((∀ c level, s.lock.write ≠ some (.code c level)) → exec .codeWriteDone s = .next s)
    ∧ (s.lock.write = some .verify → ∃ t, exec .verifyWriteDone s = .next t ∧ t.lock.state = .locked
      ∧ t.lock.cal = .valid ∧ t.lock.write = none ∧ t.lock.block.good = true ∧ t.lock.working = s.lock.working
      ∧ t.lock.reference = s.lock.reference ∧ t.lock.cec = s.lock.cec ∧ t.core = (s.setLock t.lock).core
      ∧ AnswersHeld s t .service 33#8 .ok .empty)
    ∧ (∀ withBlock, s.lock.write = some (.maker withBlock) → ∃ t, exec .makerWriteDone s = .next t
      ∧ t = s.setLock t.lock ∧ t.lock = { s.lock with
          write := none, codeRecord := ⟨none, .high, true⟩, block := t.lock.block }
      ∧ (withBlock = false → t.lock.block = s.lock.block) ∧ (withBlock = true → t.lock.block.good = true))
    ∧ ∀ c level, s.lock.write = some (.code c level) → ∃ t, exec .codeWriteDone s = .next t
      ∧ t.core = (s.setLock { s.lock with
          write := none, code := some c, level := level, codeRecord := ⟨some c, level, true⟩ }).core
      ∧ AnswersHeld s t .service 34#8 .ok .empty

/-- TRIAL_SET takes a list of 1 to 9 pairs, each of a parameter by its number and its value, none twice, puts every pair of one
that leaves a well-formed working set, and refuses any other; TRIAL_DISCARD puts the reference set back; either bounds the
tracked zero to 4 % of a new Max and leaves it where Max is the same (R88, R106, R107, R197). That a list of no pairs or of more
than nine is MALFORMED is the model's reading (log 27). -/
def Obligations.TrialValues : Prop :=
  (∀ l : List (Byte × Word32), ((trialPairs l).isSome = true ↔ 1 ≤ l.length ∧ l.length ≤ 9 ∧ (∀ e ∈ l, e.1.toNat < 9)
      ∧ (l.map Prod.fst).Nodup)
    ∧ ∀ pairs, trialPairs l = some pairs →
        l.map (fun e => ([Param.zA, .zB, .kA, .kB, .d, .max, .min, .band, .tilt][e.1.toNat]?, e.2.toInt))
          = pairs.map fun e => (some e.1, e.2))
  ∧ ∀ (s : State) (h : Header), s.lock.reading = false → s.lock.state = .opened → s.lock.write = none →
    (∀ l, Taken s h (.trialSet (some l)) → ∃ t, exec (.trialSet h (some l)) s = .next t
      ∧ (trialPairs l = none → t.core = s.core ∧ Settled s t h 35#8 .malformed .empty)
      ∧ ∀ pairs, trialPairs l = some pairs →
        ((s.lock.working.apply pairs).inRange = false → t.core = s.core ∧ Settled s t h 35#8 .malformed .empty)
        ∧ ((s.lock.working.apply pairs).inRange = true →
            (∀ k v, (k, v) ∈ pairs → t.lock.working.value k = v)
            ∧ (∀ k, (∀ v, (k, v) ∉ pairs) → t.lock.working.value k = s.lock.working.value k)
            ∧ t.weigh.zt = (if t.lock.working.max = s.lock.working.max then s.weigh.zt
                else max (-(t.lock.working.max * 4 / 100)) (min (t.lock.working.max * 4 / 100) s.weigh.zt))
            ∧ t.core = ((s.setLock { s.lock with working := t.lock.working }).setWeigh
                { s.weigh with zt := t.weigh.zt }).core
            ∧ Settled s t h 35#8 .ok (.params t.lock.working)))
    ∧ (Taken s h (.trialDiscard (some ())) → 0 ≤ s.lock.reference.max → ∃ t, exec (.trialDiscard h (some ())) s = .next t
      ∧ t.weigh.zt = (if s.lock.reference.max = s.lock.working.max then s.weigh.zt
          else max (-(s.lock.reference.max * 4 / 100)) (min (s.lock.reference.max * 4 / 100) s.weigh.zt))
      ∧ t.core = ((s.setLock { s.lock with working := s.lock.reference }).setWeigh
          { s.weigh with zt := t.weigh.zt }).core
      ∧ Settled s t h 36#8 .ok .empty)

/-- COMMIT on an OPEN lock with a READY shadow and space in the journal takes one reservation and starts the commit write;
its completion raises the CEC, makes the committed set the reference set and stages a CALIBRATION record, which sends RECORD with
its number and kind; the counter cell follows (R108, R159, R188). The grant that takes free − reserved below 256 sends JOURNAL_LOW (R163). -/
def Obligations.CommitRaisesTheCec : Prop :=
  ∀ (s : State) (h : Header), s.lock.reading = false →
    (Taken s h (.commit (some ())) → s.lock.state = .opened → s.lock.write = none →
      ∃ t, exec (.commit h (some ())) s = .next t
        ∧ (65535 ≤ s.lock.cec → t.core = s.core ∧ Settled s t h 37#8 .counterExhausted .empty)
        ∧ (s.lock.cec < 65535 → s.shadow.state ≠ .ready →
            t.core = s.core ∧ Settled s t h 37#8 .shadowNotReady .empty)
        ∧ ∀ check, s.lock.cec < 65535 → s.shadow.state = .ready → s.shadow.check = some check →
          (s.journal.starting = true → t.core = s.core ∧ Settled s t h 37#8 .busy .empty)
          ∧ (s.journal.starting = false → s.journal.canGrant = false →
              t.core = s.core ∧ Settled s t h 37#8 .journalFull .empty)
          ∧ (s.journal.starting = false → s.journal.canGrant = true →
              t.lock.write = some (.commit s.lock.working check (changedMask s.lock (some check)))
                ∧ t.lock.block = { s.lock.block with check := none } ∧ t.lock.cec = s.lock.cec
                ∧ t.journal.reserved = s.journal.reserved + 1 ∧ t.journal.queue = s.journal.queue
                ∧ (t.port h.src.port).deferred = (s.port h.src.port).deferred ++ [⟨h, 37#8⟩]
                ∧ (s.journal.low = false → s.journal.free < s.journal.reserved + 1 + 256 → t.journal.low = true
                    ∧ Indicated s t (.alert (.journalLow s.journal.free (s.journal.reserved + 1))))
                ∧ (s.journal.low = true ∨ s.journal.reserved + 1 + 256 ≤ s.journal.free →
                    t.journal.low = s.journal.low ∧ t.links.body = s.links.body)
                ∧ t.weigh = s.weigh ∧ t.lcc = s.lcc ∧ SameStores s t))
    ∧ (∀ p check mask, s.lock.write = some (.commit p check mask) → ∃ t, exec .commitWriteDone s = .next t
      ∧ t.lock.cec = s.lock.cec + 1 ∧ t.lock.cal = .unverified ∧ t.lock.reference = p
      ∧ t.lock.lockedCheck = some check ∧ t.lock.working = s.lock.working ∧ t.lock.write = some .counter
      ∧ t.lock.block.good = true
      ∧ (∃ r, t.journal.queue = s.journal.queue ++ [r] ∧ r.kind = .calibration ∧ r.flags = mask
          ∧ r.cec = s.lock.cec + 1 ∧ r.seq = s.journal.nextSeq
          ∧ r.time = (if s.inter.timeValid then some s.inter.seconds else none))
      ∧ t.journal.reserved = s.journal.reserved - 1 ∧ (s.lcc.phase = .idle → t.weigh.enabled = true)
      ∧ ((∀ d ∈ s.links.service.deferred, d.header.src.port = .service) →
          Tells s t [recordTold s.journal.nextSeq .calibration])
      ∧ t.comps = s.comps ∧ SameStores s t ∧ AnswersHeld s t .service 37#8 .ok (.cec (s.lock.cec + 1)))
    ∧ (s.lock.write = some .counter →
        exec .counterWriteDone s = .next (s.setLock { s.lock with write := none, counterCell := s.lock.cec }))

/-- SERVICE_ZERO on an OPEN lock sets the tracked zero to the zero point within 4 % of Max and clears ZERO_HEALTH;
LIVE_WEIGHT and ATTR_READ are answered at once with their items and change nothing (R98, R114, R115, R116, R117, R118). Which
items of LIVE_WEIGHT are absent while DISABLED is the model's own choice (log 45). -/
def Obligations.ServiceZeroAndReadings : Prop :=
  ∀ (s : State) (h : Header),
    (Taken s h (.serviceZero (some ())) → s.lock.reading = false → s.lock.state = .opened → 0 ≤ s.lock.working.max →
      ∃ t, exec (.serviceZero h (some ())) s = .next t
        ∧ (s.lock.zero.point = none → t.core = s.core ∧ Settled s t h 38#8 .wrongState .empty)
        ∧ ∀ point, s.lock.zero.point = some point →
            t.weigh.zt = max (-(s.lock.working.max * 4 / 100)) (min (s.lock.working.max * 4 / 100) point)
            ∧ t.core = ((s.setWeigh { s.weigh with zt := t.weigh.zt }).setLock
                { s.lock with zero := ⟨0, false, some t.weigh.zt⟩ }).core
            ∧ Settled s t h 38#8 .ok (.grams t.weigh.zt))
    ∧ (Taken s h (.liveWeight (some ())) → ∃ t y, exec (.liveWeight h (some ())) s = .next t ∧ t.core = s.core
      ∧ Settled s t h 39#8 .ok (.live y) ∧ ∀ x, x = s.weigh →
        y.enabled = x.enabled ∧ y.reading = x.reading ∧ y.hold = x.hold
        ∧ (y.beyondTilt = true ↔ s.lock.working.tilt < x.reading.pitch.natAbs ∨ s.lock.working.tilt < x.reading.roll.natAbs)
        ∧ (x.enabled = true → y.pair = x.latestPair ∧ y.blockV = x.latestBlock.map Block.v ∧ y.zt = some x.zt
          ∧ y.residual = x.residual ∧ y.entries = some x.settle.length
          ∧ y.window = x.window.map (fun w => (w.kind, w.capture.isSome, w.overrange, w.tilt))
          ∧ (x.settle.length ≠ 16 → y.spread = none)
          ∧ (x.settle.length = 16 → ∃ hi ∈ x.settle, ∃ lo ∈ x.settle, y.spread = some (hi.v - lo.v)
              ∧ ∀ e ∈ x.settle, lo.v ≤ e.v ∧ e.v ≤ hi.v))
        ∧ (x.enabled = false → y.pair = none ∧ y.blockV = none ∧ y.zt = none ∧ y.residual = none ∧ y.entries = none
          ∧ y.window = none ∧ y.spread = none))
    ∧ (Taken s h (.attrRead (some ())) → s.lock.reading = false →
      ∃ t y, exec (.attrRead h (some ())) s = .next t ∧ t.core = s.core
      ∧ Settled s t h 40#8 .ok (.attrs y) ∧ ∀ x, x = s.lock →
        y.zero = x.zero ∧ y.unstableRate = (x.outcomes.filter (· == .unstable)).length ∧ y.outcomes = x.outcomes
        ∧ y.balance = x.balance ∧ (y.balanceCrossed = true ↔ ∃ v, x.balance = some v ∧ 60 ≤ v)
        ∧ (y.parts.lockClosed = true ↔ x.state ≠ .opened) ∧ (y.parts.calValid = true ↔ x.cal = .valid)
        ∧ (y.parts.shadowMatches = true ↔ s.shadow.state = .ready ∧ ∃ w, s.shadow.check = some w ∧ x.lockedCheck = some w)
        ∧ (y.parts.zeroUncrossed = true ↔ x.zero.crossed = false)
        ∧ (y.legal = .legal ↔ y.parts = ⟨true, true, true, true⟩))

/-! ## The profile store and the shadow (R52 to R57) -/

/-- A PROFILE_WRITE names 1 to 12 permitted entries within one of the eight areas, at their offset in it, a PROFILE_ERASE one of
the areas or all; any other is MALFORMED (R50, R52, R54, R195, R197). Both, on an OPEN lock, make the store BUSY with its check
erased and change no word; their completions put the words in place, each at its address and no other, with a check that matches
(R50, R52, R53, R54). Both are answered LOCKED but by an OPEN lock, FROZEN too (R102), BUSY while the store works or a load runs
(R52) and until the store is verified (R51; log 29); a completion with no such work in flight changes nothing (log 3). -/
def Obligations.StoreWritesAndErases : Prop :=
  (∀ f : ProfileWriteFields,
    (∀ a code base size, (a, code, base, size) ∈ areaTable → f.area.toNat = code →
      (1 ≤ f.words.length ∧ f.words.length ≤ 12 ∧ f.offset.toNat + f.words.length ≤ size
          ∧ (∀ w ∈ f.words, PermittedEntry code w) → writeOf f = some (.write (base + f.offset.toNat) f.words))
      ∧ (f.words = [] ∨ 12 < f.words.length ∨ size < f.offset.toNat + f.words.length
          ∨ (∃ w ∈ f.words, ¬ PermittedEntry code w) → writeOf f = none))
    ∧ (8 ≤ f.area.toNat → writeOf f = none))
  ∧ (∀ b : Byte, (b = 255#8 → eraseOf b = some (.erase none))
    ∧ (∀ a code base size, (a, code, base, size) ∈ areaTable → b.toNat = code →
        eraseOf b = some (.erase (some a)) ∧ a.base = base ∧ a.size = size)
    ∧ (8 ≤ b.toNat → b ≠ 255#8 → eraseOf b = none))
  ∧ ∀ (s : State) (h : Header),
    (∀ f, Taken s h (.profileWrite (some f)) → s.store.verifying = false → ∃ t, exec (.profileWrite h (some f)) s = .next t
      ∧ (writeOf f = none → t.core = s.core ∧ Settled s t h 41#8 .malformed .empty)
      ∧ ∀ j, writeOf f = some j →
        (s.lock.state ≠ .opened → t.core = s.core ∧ Settled s t h 41#8 .locked .empty)
        ∧ (s.lock.state = .opened → (s.store.state = .busy ∨ s.shadow.state = .loading) →
            t.core = s.core ∧ Settled s t h 41#8 .busy .empty)
        ∧ (s.lock.state = .opened → s.store.state ≠ .busy → s.shadow.state ≠ .loading →
            t.core = (s.setStore { s.store with state := .busy, check := none, job := some j }).core ∧ Held s t h 41#8))
    ∧ (∀ f, Taken s h (.profileWrite (some f)) → s.store.verifying = true → ∃ t, exec (.profileWrite h (some f)) s = .next t
      ∧ t.core = s.core ∧ Settled s t h 41#8 .busy .empty)
    ∧ (∀ b, Taken s h (.profileErase (some b)) → ∃ t, exec (.profileErase h (some b)) s = .next t
      ∧ (s.store.verifying = true → t.core = s.core ∧ Settled s t h 42#8 .busy .empty)
      ∧ (s.store.verifying = false → 8 ≤ b.toNat → b ≠ 255#8 → t.core = s.core ∧ Settled s t h 42#8 .malformed .empty)
      ∧ (s.store.verifying = false → b.toNat < 8 ∨ b = 255#8 → ∃ j, eraseOf b = some j
        ∧ (s.lock.state ≠ .opened → t.core = s.core ∧ Settled s t h 42#8 .locked .empty)
        ∧ (s.lock.state = .opened → (s.store.state = .busy ∨ s.shadow.state = .loading) →
            t.core = s.core ∧ Settled s t h 42#8 .busy .empty)
        ∧ (s.lock.state = .opened → s.store.state ≠ .busy → s.shadow.state ≠ .loading →
            t.core = (s.setStore { s.store with state := .busy, check := none, job := some j }).core ∧ Held s t h 42#8)))
    ∧ ((∀ base ws, s.store.job ≠ some (.write base ws)) → exec .profileWriteDone s = .next s)
    ∧ ((∀ area, s.store.job ≠ some (.erase area)) → exec .profileEraseDone s = .next s)
    ∧ (∀ base ws, s.store.job = some (.write base ws) → cellsWf erasedWord s.store.words = true →
      ∃ t, exec .profileWriteDone s = .next t
      ∧ t.store.state = .valid ∧ t.store.job = none ∧ t.store.check = some (storeCrc t.store.words)
      ∧ (∀ i, (hi : i < ws.length) → readCell erasedWord t.store.words (base + i) = ws[i])
      ∧ (∀ a, (a < base ∨ base + ws.length ≤ a) →
          readCell erasedWord t.store.words a = readCell erasedWord s.store.words a)
      ∧ t.core = (s.setStore t.store).core ∧ AnswersHeld s t .service 41#8 .ok (.check (storeCrc t.store.words)))
    ∧ ∀ area, s.store.job = some (.erase area) → ∃ t, exec .profileEraseDone s = .next t
      ∧ t.store.state = .valid ∧ t.store.job = none ∧ t.store.check = some (storeCrc t.store.words)
      ∧ (area = none → ∀ a, readCell erasedWord t.store.words a = erasedWord a)
      ∧ (∀ r, area = some r →
          (∀ a, r.base ≤ a → a < r.base + r.size → readCell erasedWord t.store.words a = erasedWord a)
          ∧ ∀ a, (a < r.base ∨ r.base + r.size ≤ a) →
              readCell erasedWord t.store.words a = readCell erasedWord s.store.words a)
      ∧ t.core = (s.setStore t.store).core ∧ AnswersHeld s t .service 42#8 .ok (.check (storeCrc t.store.words))

/-- SHADOW_LOAD in rest discards the shadow and loads it; its completion, with no pack cycle due, gives the store's words, the
check of each element and the check of the store where the stored check matches, and INVALID with the alert where it does not
(R56, R57, R58). Either completion stops both group timers, the channels being IDLE (R55, R65); the periods are those loaded,
and after a mismatch the model's own choice is that there are none (log 42). With no load in flight a completion changes
nothing (log 3). -/
def Obligations.ShadowLoads : Prop :=
  ∀ (s : State) (h : Header),
    (Taken s h (.shadowLoad (some ())) → s.store.verifying = false → ∃ t, exec (.shadowLoad h (some ())) s = .next t
      ∧ (s.lcc.phase ≠ .idle ∨ s.store.state = .busy ∨ s.shadow.state = .loading
          ∨ (∃ c, s.hasChannel c = true ∧ (s.chans.get c).state ≠ .idle)
          ∨ (∃ c, s.hasComp c = true ∧ (s.comps.comp c).stage ≠ .rest) →
          t.core = s.core ∧ Settled s t h 43#8 .busy .empty)
      ∧ (s.lcc.phase = .idle → s.store.state ≠ .busy → s.shadow.state ≠ .loading →
          (∀ c, s.hasChannel c = true → (s.chans.get c).state = .idle) →
          (∀ c, s.hasComp c = true → (s.comps.comp c).stage = .rest) →
          (s.store.state = .invalid → t.core = s.core ∧ Settled s t h 43#8 .storeInvalid .empty)
          ∧ (s.store.state = .valid → t.core = (s.setShadow ⟨.loading, none, none⟩).core ∧ Held s t h 43#8)))
    ∧ (s.shadow.state = .loading → (∀ d ∈ s.links.service.deferred, d.header.src.port = .service) → s.comps.a.tips < s.settings.inForce.packAfter →
      s.comps.b.tips < s.settings.inForce.packAfter → ∃ t, exec .shadowLoadDone s = .next t
        ∧ (s.store.check = some (storeCrc s.store.words) → t.shadow.state = .ready ∧ t.shadow.check = s.store.check
            ∧ t.tables = s.store.words ∧ t.store = s.store
            ∧ t.drive.period0 = some ((readWord s.store.words .periods 0).extractLsb' 0 16).toNat
            ∧ t.drive.period1 = some ((readWord s.store.words .periods 1).extractLsb' 0 16).toNat
            ∧ (cellsWf erasedWord s.store.words = true → ∀ a w, a < 16384 → w = readWord s.store.words .elements a →
                t.elementStored a = ~~~(w.extractLsb' 0 4 ^^^ w.extractLsb' 4 4 ^^^ w.extractLsb' 8 4
                  ^^^ w.extractLsb' 12 4 ^^^ w.extractLsb' 16 4 ^^^ w.extractLsb' 20 4 ^^^ w.extractLsb' 24 4
                  ^^^ w.extractLsb' 28 4))
            ∧ AnswersHeld s t .service 43#8 .ok (.check (storeCrc s.store.words)))
        ∧ (s.store.check ≠ some (storeCrc s.store.words) → t.shadow = ⟨.invalid, none, none⟩
            ∧ t.store = { s.store with state := .invalid } ∧ t.drive.period0 = none ∧ t.drive.period1 = none ∧ Indicated s t (.alert .storeInvalid)
            ∧ AnswersHeld s t .service 43#8 .storeInvalid .empty)
        ∧ ((∀ c, (s.chans.get c).state = .idle) → t.drive.timer0 = false ∧ t.drive.timer1 = false
            ∧ ∀ c, t.drive.coils.get c = ⟨Coil.reset, Coil.reset⟩)
        ∧ t.lcc = s.lcc ∧ t.chans = s.chans ∧ t.comps = s.comps ∧ t.journal = s.journal ∧ t.lock = s.lock
        ∧ t.weigh = s.weigh ∧ t.houses = s.houses ∧ t.inter = s.inter)
    ∧ (s.shadow.state ≠ .loading → exec .shadowLoadDone s = .next s)
    ∧ (Taken s h (.shadowLoad (some ())) → s.store.verifying = true → ∃ t, exec (.shadowLoad h (some ())) s = .next t
      ∧ t.core = s.core ∧ Settled s t h 43#8 .busy .empty)

/-! ## The Profile Player (R30 to R44) -/

/-- SET, RAMP, DELTA4 and HOLD: the command of each step, and the pointer's advance after the last one, one element's work
at each expiry and nothing else changed but the drive (R33 to R36). -/
def Obligations.ElementsTakeTheirSteps : Prop :=
  ∀ (s : State) (c : Channel) (x : Sensors) (r : Chan), r = s.chans.get c → r.pointer < 16383 →
    (∀ v : Int, s.reaches c (.set v) → -1000 ≤ v → v ≤ 1000 →
      exec (.stepExpiry c x) s = .next (s.moved c x (r.nextElement v)))
    ∧ (∀ (target : Int) (n : Nat), s.reaches c (.ramp target n) → -1000 ≤ target → target ≤ 1000 → 1 ≤ n →
      exec (.stepExpiry c x) s = .next (s.moved c x (if n = 1 then r.nextElement target else
        { r with state := .run .playing, u := r.u + (target - r.u).tdiv n, progress := .ramp r.u 1 })))
    ∧ (∀ (target u0 : Int) (n k : Nat), s.inside c (.ramp target n) (.ramp u0 k) → k < n →
      exec (.stepExpiry c x) s = .next (s.moved c x (if k + 1 = n then r.nextElement target else
        { r with state := .run .playing, u := u0 + ((target - u0) * (k + 1)).tdiv n, progress := .ramp u0 (k + 1) })))
    ∧ (∀ (d1 d2 d3 d4 : Int) (scale : Nat) (u : Int → Int),
      (∀ d, u d = max (-1000) (min 1000 (r.u + d * 4 ^ scale))) →
        (s.reaches c (.delta4 d1 d2 d3 d4 scale) → exec (.stepExpiry c x) s = .next (s.moved c x
            { r with state := .run .playing, u := u d1, progress := .delta4 1 }))
        ∧ (s.inside c (.delta4 d1 d2 d3 d4 scale) (.delta4 1) → exec (.stepExpiry c x) s = .next (s.moved c x
            { r with state := .run .playing, u := u d2, progress := .delta4 2 }))
        ∧ (s.inside c (.delta4 d1 d2 d3 d4 scale) (.delta4 2) → exec (.stepExpiry c x) s = .next (s.moved c x
            { r with state := .run .playing, u := u d3, progress := .delta4 3 }))
        ∧ (s.inside c (.delta4 d1 d2 d3 d4 scale) (.delta4 3) →
            exec (.stepExpiry c x) s = .next (s.moved c x (r.nextElement (u d4)))))
    ∧ (∀ n : Nat, s.reaches c (.hold n) → 1 ≤ n →
      exec (.stepExpiry c x) s = .next (s.moved c x (if n = 1 then r.nextElement r.u else
        { r with state := .run .holding, progress := .hold (n - 1) })))
    ∧ ∀ (e : Element) (n : Nat), s.inside c e (.hold n) → 1 ≤ n →
      exec (.stepExpiry c x) s = .next (s.moved c x (if n = 1 then r.nextElement r.u else
        { r with state := .run .holding, progress := .hold (n - 1) }))

/-- STEP, MARK and an AWAIT that holds take no step: the element after them, here a SET, is performed at the same expiry. A
mark's owner acts on it: a weigh window opens and closes, or the context learns that the engine is DISABLED; a tip is counted,
and the pack cycle that it makes due starts; a packer's stage follows its marks, and its stroke is judged at PACK_RETRACT
(R31, R37, R39 to R41, R81, R85, R95, R140, R141, R143, R144, R149). -/
def Obligations.ZeroStepElementsGoOn : Prop :=
  ∀ (s : State) (c : Channel) (x : Sensors) (r r2 : Chan) (v : Int), r = s.chans.get c → r.pointer < 16382 →
    -1000 ≤ v → v ≤ 1000 → s.elementAt (r.pointer + 1) (.set v) →
    r2 = { r.nextElement v with pointer := r.pointer + 2 } →
    (∀ i : Nat, s.reaches c (.step i) → 1 ≤ i →
      exec (.stepExpiry c x) s = .next (s.moved c x { r2 with interval := i }))
    ∧ (r.origin = some .cycle →
      (s.reaches c (.mark 0) → s.houses.windowOpen = false → exec (.stepExpiry c x) s =
          .next ((s.setHouses { s.houses with windowOpen := true }).moved c x r2))
      ∧ (∀ (code : Nat) (kind : WindowKind), s.reaches c (.mark code) →
          (code = 2 ∧ kind = .gross ∨ code = 4 ∧ kind = .tare ∨ code = 6 ∧ kind = .zero) →
        (s.weigh.enabled = true → s.weigh.window = none → exec (.stepExpiry c x) s =
          .next ((s.setWeigh { s.weigh with
            window := some ⟨kind, false, false, none⟩, settle := [], acc := ⟨0, 0, 0, 0⟩, hold := false }).moved c x r2))
        ∧ (s.weigh.enabled = false → exec (.stepExpiry c x) s = .next ((s.setLcc
            { s.lcc with ctx := s.lcc.ctx.map fun y => { y with
                grossDisabled := y.grossDisabled || decide (kind = .gross)
                tareDisabled := y.tareDisabled || decide (kind = .tare) } }).moved c x r2)))
      ∧ (∀ (code : Nat) (kind : WindowKind), s.reaches c (.mark code) →
          (code = 3 ∧ kind = .gross ∨ code = 5 ∧ kind = .tare ∨ code = 7 ∧ kind = .zero) →
        (∀ w, s.weigh.enabled = true → s.weigh.window = some w → w.kind = kind →
          exec (.stepExpiry c x) s = .next ((((s.setWeigh { s.weigh with window := none, settle := [], hold := false }).setLcc
            { s.lcc with ctx := s.lcc.ctx.map fun y => y.windowEnds (some w) }).setLock
            { s.lock with outcomes := endOutcomes s.lock.outcomes (some w) }).moved c x r2))
        ∧ (s.weigh.enabled = false → exec (.stepExpiry c x) s = .next (s.moved c x r2)))
      ∧ (∀ y, s.reaches c (.mark 8) → s.lcc.phase = .run .tip → s.lcc.ctx = some y → (s.comps.comp y.target).tips < 255 →
          ((s.comps.comp y.target).tips + 1 < s.settings.inForce.packAfter →
            exec (.stepExpiry c x) s = .next ((s.setComp y.target { s.comps.comp y.target with
              tips := (s.comps.comp y.target).tips + 1 }).moved c x r2))
          ∧ ∀ addr, s.settings.inForce.packAfter ≤ (s.comps.comp y.target).tips + 1 → s.hasComp y.target = true →
            (s.comps.comp y.target).stage = .rest → s.inter.pto = true → s.shadow.state = .ready →
            s.journal.starting = false → s.packEntry y.target = some addr →
            (s.chans.get y.target.packer).state = .idle → s.drive.latches.get y.target.packer = none →
            exec (.stepExpiry c x) s = .next (((s.setComp y.target { s.comps.comp y.target with
              tips := (s.comps.comp y.target).tips + 1, stage := .sweep, stroke := none }).setChan y.target.packer
                (Chan.started .pack addr 255)).moved c x r2)))
    ∧ (∀ m, c.packed = some m →
      (s.reaches c (.mark 9) → r.origin = some .pack → exec (.stepExpiry c x) s = .next ((s.setComp m
          { s.comps.comp m with stage := .sweep }).moved c x r2))
      ∧ (s.reaches c (.mark 10) → r.origin = some .pack → exec (.stepExpiry c x) s = .next ((s.setComp m
          { s.comps.comp m with stage := .compress, stroke := some ⟨false, 0⟩ }).moved c x r2))
      ∧ (s.reaches c (.mark 11) → r.origin = some .pack → (s.comps.comp m).shorts ≤ 4 →
          ∃ t z, exec (.stepExpiry c x) s = .next t ∧ t.comps = s.comps.putComp m z ∧ t.chans.get c = r2
            ∧ (∀ k, k ≠ c → t.chans.get k = s.chans.get k)
            ∧ z = { s.comps.comp m with
                stage := .retract, stroke := none, shorts := z.shorts, lastStroke := z.lastStroke, status := z.status }
            ∧ z.status = statusOf z.total z.shorts (s.settings.inForce.limit m) s.settings.inForce.fullStrokes
            ∧ ((s.comps.comp m).stroke = none → z.shorts = (s.comps.comp m).shorts
                ∧ z.lastStroke = (s.comps.comp m).lastStroke)
            ∧ (∀ k, (s.comps.comp m).stroke = some k → z.lastStroke = some k
                ∧ z.shorts = if k.short then min 4 ((s.comps.comp m).shorts + 1) else 0)
            ∧ (z.status = (s.comps.comp m).status → t.links = s.links ∧ t.inter = s.inter)
            ∧ (z.status ≠ (s.comps.comp m).status → SendsPayload s t t.payloadMsg
                ∧ t.inter = { s.inter with payloadTimer := 500 })
            ∧ t.lcc = s.lcc ∧ t.weigh = s.weigh ∧ t.lock = s.lock ∧ t.journal = s.journal ∧ t.houses = s.houses)
      ∧ (s.reaches c (.mark 12) → r.origin = some .eject → exec (.stepExpiry c x) s = .next ((s.setComp m
          { s.comps.comp m with ejectDone := some true }).moved c x r2)))
    ∧ ∀ (n timeout : Nat) (saved : Int), (s.sensed x).holds c r.origin n = true →
      (s.reaches c (.await n timeout) ∨ s.inside c (.await n timeout) (.await saved)) →
      exec (.stepExpiry c x) s = .next (s.moved c x { r2 with deadline := none })

/-- An AWAIT that does not hold waits with its command and counts its deadline down. END makes its channel IDLE at the END
element, and its envelope stands there, which is log 37: a pack cycle's END puts the packer at REST with its tip count 0; an
ejection's END stages the UNLOAD record once EJECT_DONE was taken and returns the reservation otherwise, and a pack cycle that is
due then starts; a cycle channel's END waits for the others of its phase, and the last one of GRIP, RAISE, TIP, LOWER or RELEASE
closes a weigh window still open and enters the next phase, RAISE on a split body with the diverter, with PHASE sent at each change.
A phase with no entry starts no channel and ends at its entry; where this is so up to RETRACT, the lift is staged (R7, R8, R9, R10,
R14, R38, R41, R85, R141, R143, R149, R150, R159, R188). That a tag window still open stands through the end of these phases is
log 39; that the cause set of a PHASE other than HALTED is empty is log 58. -/
def Obligations.ChannelsWaitAndEnd : Prop :=
  (∀ (s : State) (c : Channel) (x : Sensors) (r : Chan) (n timeout : Nat), r = s.chans.get c →
    (s.sensed x).holds c r.origin n = false →
    (s.reaches c (.await n timeout) → exec (.stepExpiry c x) s = .next (s.moved c x { r with
        state := .run .awaiting, progress := .await r.u, deadline := if timeout = 0 then none else some timeout }))
    ∧ ∀ saved, s.inside c (.await n timeout) (.await saved) →
      (r.deadline = none → exec (.stepExpiry c x) s = .next (s.moved c x r))
      ∧ ∀ d, r.deadline = some d → 2 ≤ d →
        exec (.stepExpiry c x) s = .next (s.moved c x { r with deadline := some (d - 1) }))
  ∧ ∀ (s : State) (c : Channel) (x : Sensors) (r : Chan), r = s.chans.get c → s.reaches c .fin →
    (∀ m, c.packed = some m → r.origin = some .pack → exec (.stepExpiry c x) s = .next ((s.setComp m
        { s.comps.comp m with stage := .rest, tips := 0, stroke := none }).moved c x r.ended))
    ∧ (∀ k ∈ s.lcc.started, k ≠ c → (s.chans.get k).state ≠ .idle → r.origin = some .cycle →
        exec (.stepExpiry c x) s = .next (s.moved c x r.ended))
    ∧ (∀ m a, c.packed = some m → r.origin = some .eject → (s.comps.comp m).ejectDone = some false →
        s.settings.inForce.packAfter ≤ (s.comps.comp m).tips → s.inter.pto = true → s.shadow.state = .ready →
        s.journal.starting = false → s.packEntry m = some a → s.drive.latches.get c = none →
        ∃ t, exec (.stepExpiry c x) s = .next t ∧ t.chans = s.chans.put c (Chan.started .pack a 255) ∧ t.lcc = s.lcc
          ∧ t.journal.reserved = s.journal.reserved - 1 ∧ t.journal.queue = s.journal.queue
          ∧ t.comps = s.comps.putComp m { s.comps.comp m with
              stage := .sweep, stroke := none, ejectDone := none, lastEject := some .incomplete }
          ∧ t.links = s.links ∧ t.weigh = s.weigh ∧ t.lock = s.lock ∧ t.houses = s.houses)
    ∧ (∀ m, c.packed = some m → r.origin = some .eject → (s.comps.comp m).tips < s.settings.inForce.packAfter →
        1 ≤ s.settings.inForce.packAfter →
        ∃ t, exec (.stepExpiry c x) s = .next t ∧ t.chans = s.chans.put c r.ended ∧ t.lcc = s.lcc
          ∧ t.journal.reserved = s.journal.reserved - 1
          ∧ ((s.comps.comp m).ejectDone = some false → t.comps = s.comps.putComp m { s.comps.comp m with
                stage := .rest, ejectDone := none, lastEject := some .incomplete }
              ∧ t.journal.queue = s.journal.queue ∧ t.journal.free = s.journal.free ∧ t.links = s.links)
          ∧ ((s.comps.comp m).ejectDone = some true →
              t.comps = s.comps.putComp m { s.comps.comp m with
                stage := .rest, ejectDone := none, lastEject := some .done, total := 0, shorts := 0, tips := 0
                status := statusOf 0 0 (s.settings.inForce.limit m) s.settings.inForce.fullStrokes }
              ∧ ∃ u, t.journal.queue = s.journal.queue ++ [u] ∧ u.kind = .unload ∧ u.comp = some m
                ∧ u.seq = s.journal.nextSeq
                ∧ u.gross = some ((((s.comps.comp m).total + 500) / 1000 : Nat) : Int)
                ∧ Tells s t [recordTold s.journal.nextSeq .unload])
          ∧ t.weigh = s.weigh ∧ t.lock = s.lock ∧ t.houses = s.houses)
    ∧ (∀ y p (l m : List ProfilePhase), s.lastToEnd c → s.lcc.phase = .run p → s.lcc.ctx = some y →
        s.weigh.window = none → l ++ p :: m = [.grip, .raise, .tip, .lower, .release, .retract] →
        (∀ e ∈ m, s.emptyPhase y e) →
        ∃ t v, exec (.stepExpiry c x) s = .next t ∧ t.lcc = Lcc.reset ∧ t.journal.queue = s.journal.queue ++ [v]
          ∧ v.seq = s.journal.nextSeq ∧ (y.path, v.kind) ∈ [(.lift, .lift), (.refused, .refused), (.aborted, .aborted)]
          ∧ t.journal.reserved = s.journal.reserved - 1
          ∧ (∀ k, k ≠ c → t.chans.get k = s.chans.get k) ∧ t.chans.get c = r.ended
          ∧ (s.staysQuiet → Tells s t (m.map (fun e => phaseTold (.run e))
              ++ [recordTold s.journal.nextSeq v.kind, phaseTold .idle])))
    ∧ ∀ y k p q (l m n : List ProfilePhase), s.lastToEnd c → s.armReady c → s.lcc.phase = .run p → s.lcc.ctx = some y →
        l ++ p :: (m ++ q :: n) = [.grip, .raise, .tip, .lower, .release, .retract] → (∀ e ∈ m, s.emptyPhase y e) →
        k.isArm = true → s.hasChannel k = true → (s.phaseEntry y q k).isSome = true →
        ∃ t, exec (.stepExpiry c x) s = .next t ∧ StartsPhase s t y q ∧ k ∈ t.lcc.started
          ∧ Tells s t (m.map (fun e => phaseTold (.run e)) ++ [phaseTold (.run q)])
          ∧ t.lcc.ctx = some (if y.path = .aborted then y.windowEnds s.weigh.window
              else { y.windowEnds s.weigh.window with lastPhase := q })
          ∧ t.weigh = (if s.weigh.window = none then s.weigh
              else { s.weigh with window := none, settle := [], hold := false })
          ∧ t.lock = { s.lock with outcomes := endOutcomes s.lock.outcomes s.weigh.window }
          ∧ t.comps = s.comps ∧ t.journal = s.journal ∧ t.houses = s.houses ∧ t.inter = s.inter

/-- A fault at an expiry: the channel in FAULT with its kind and the element's address, the lift halted with cause FAULT and
the kind in the fault record; in RECOVER the cycle is STUCK; PHASE is sent at either (R10, R18, R22, R23, R31, R32, R40, R41, R44,
R188). In STUCK the hold and the settle list are cleared with or without a window open, which is log 23, and the cause set of PHASE
is empty, which is log 58. The element at 16,383 that ends faults so with BAD_ELEMENT
(R31); a mark there is delivered first and stands, here TAG_OPEN. A packer's fault puts its compartment in FAULT with its stroke
closed and sends PACK_FAULT; it ends an ejection, with its record once EJECT_DONE was taken and with the reservation returned
before (R146, R150). -/
def Obligations.FaultsStopTheLift : Prop :=
  (∀ (s : State) (c : Channel) (x : Sensors) (r : Chan) (kind : FaultKind) (p : ProfilePhase), r = s.chans.get c →
    s.stepping c → c.isArm = true → r.origin = some .cycle → c ∈ s.lcc.started → s.lcc.phase = .run p →
    (s.sensed x).faultsAs c kind →
    ∃ t, exec (.stepExpiry c x) s = .next t
      ∧ (p ≠ .recover → HaltsLift s t p ⟨false, false, false, true⟩ ((Six.all none).put c (some kind))
          ∧ (t.chans.get c).state = .fault ∧ (t.chans.get c).fault = some ⟨kind, r.pointer⟩ ∧ (t.chans.get c).u = 0
          ∧ (t.chans.get c).pointer = r.pointer
          ∧ (∀ k ∈ s.lcc.started, k ≠ c → t.chans.get k = (s.chans.get k).pause) ∧ t.houses = s.houses
          ∧ Tells s t [haltTold (some p) ⟨false, false, false, true⟩ ((Six.all none).put c (some kind))])
      ∧ (p = .recover → Tells s t [phaseTold .stuck] ∧ t.lcc = { Lcc.reset with phase := .stuck, ctx := s.lcc.ctx }
          ∧ t.weigh = { s.weigh with window := none, settle := [], hold := false }
          ∧ (∀ k ∈ s.lcc.started, (t.chans.get k).state = .idle)
          ∧ t.houses = { s.houses with windowOpen := false })
      ∧ (∀ k, k ∉ s.lcc.started → t.chans.get k = s.chans.get k)
      ∧ t.lock = s.lock ∧ t.comps = s.comps ∧ t.journal = s.journal ∧ t.inter = s.inter
      ∧ t.store = s.store ∧ t.shadow = s.shadow ∧ t.settings = s.settings ∧ t.slotMap = s.slotMap)
  ∧ (∀ (s : State) (c : Channel) (x : Sensors) (r : Chan) (p : ProfilePhase), r = s.chans.get c → c.isArm = true →
    r.origin = some .cycle → c ∈ s.lcc.started → s.lcc.phase = .run p → p ≠ .recover → s.reaches c (.mark 0) →
    s.houses.windowOpen = false → r.pointer = 16383 →
    ∃ t, exec (.stepExpiry c x) s = .next t ∧ t.houses = { s.houses with windowOpen := true }
      ∧ HaltsLift s t p ⟨false, false, false, true⟩ ((Six.all none).put c (some .badElement))
      ∧ Tells s t [haltTold (some p) ⟨false, false, false, true⟩ ((Six.all none).put c (some .badElement))]
      ∧ (t.chans.get c).state = .fault ∧ (t.chans.get c).fault = some ⟨.badElement, 16383⟩ ∧ (t.chans.get c).u = 0
      ∧ (∀ k ∈ s.lcc.started, k ≠ c → t.chans.get k = (s.chans.get k).pause)
      ∧ t.lock = s.lock ∧ t.comps = s.comps ∧ t.journal = s.journal ∧ t.inter = s.inter)
  ∧ ∀ (s : State) (c : Channel) (m : Compartment) (x : Sensors) (r : Chan) (kind : FaultKind) (o : Origin) (u : Comp),
    r = s.chans.get c → s.stepping c → c.packed = some m → r.origin = some o → (s.sensed x).packerFaultsAs c kind →
    u = { s.comps.comp m with stage := .fault, stroke := none, fault := some ⟨kind, r.pointer⟩ } →
    (o = .pack ∧ (s.comps.comp m).stage ≠ .ejecting ∨ o = .eject ∧ (s.comps.comp m).stage = .ejecting) →
    ∃ t, exec (.stepExpiry c x) s = .next t
      ∧ (t.chans.get c).state = .fault ∧ (t.chans.get c).fault = some ⟨kind, r.pointer⟩ ∧ (t.chans.get c).u = 0
      ∧ (∀ k, k ≠ c → t.chans.get k = s.chans.get k)
      ∧ (o = .pack → t.comps = s.comps.putComp m u ∧ t.journal = s.journal
          ∧ Indicated s t (.alert (.packFault m ⟨kind, r.pointer⟩)))
      ∧ (o = .eject → (s.comps.comp m).ejectDone = some false →
          t.comps = s.comps.putComp m { u with ejectDone := none, lastEject := some .fault }
            ∧ t.journal.reserved = s.journal.reserved - 1 ∧ t.journal.queue = s.journal.queue
            ∧ Indicated s t (.alert (.packFault m ⟨kind, r.pointer⟩)))
      ∧ (o = .eject → (s.comps.comp m).ejectDone = some true →
          t.comps = s.comps.putComp m { u with
              ejectDone := none, lastEject := some .done, total := 0, shorts := 0, tips := 0
              status := statusOf 0 0 (s.settings.inForce.limit m) s.settings.inForce.fullStrokes }
            ∧ t.journal.reserved = s.journal.reserved - 1
            ∧ Tells s t [alertTold (.packFault m ⟨kind, r.pointer⟩), recordTold s.journal.nextSeq .unload]
            ∧ ∃ v, t.journal.queue = s.journal.queue ++ [v] ∧ v.kind = .unload ∧ v.comp = some m
              ∧ v.seq = s.journal.nextSeq
              ∧ v.gross = some ((((s.comps.comp m).total + 500) / 1000 : Nat) : Int))
      ∧ t.lcc = s.lcc ∧ t.weigh = s.weigh ∧ t.lock = s.lock ∧ t.houses = s.houses

/-! ## The Valve Drive (R65 to R71) -/

/-- The sharing computation: demand, budget, GRIP exempt, no shortage, and at a shortage the greatest scale from the first
one down at which the scaled demands meet the budget; each channel's duties follow its shared command (R68, R69). -/
def Obligations.SharingKeepsTheBudget : Prop :=
  (∀ (qa : Nat) (q : Channel → Nat) (g : Channel → Int) (need : (Channel → Int) → Nat) (r : Sharing),
    (∀ u : Channel → Int, need u = (u .reach).natAbs * q .reach / 1000 + (u .lift).natAbs * q .lift / 1000
      + (u .divert).natAbs * q .divert / 1000 + (u .packA).natAbs * q .packA / 1000
      + (u .packB).natAbs * q .packB / 1000) → r = shareFlow qa q g →
    (∀ c, (r.chans.get c).gated = g c ∧ (r.chans.get c).demand = (g c).natAbs * q c / 1000)
      ∧ r.budget = qa - (g .grip).natAbs * q .grip / 1000 ∧ r.total = need g
      ∧ (r.chans.get .grip).shared = g .grip
      ∧ (need g ≤ r.budget → r.scale = none ∧ ∀ c, (r.chans.get c).shared = g c)
      ∧ (r.budget < need g → ∃ k, r.scale = some k ∧ k ≤ r.budget * 1024 / need g ∧ k < 1024
          ∧ (∀ c, c ≠ .grip → (r.chans.get c).shared = (g c * k).tdiv 1024)
          ∧ ∀ j, k < j → j ≤ r.budget * 1024 / need g → r.budget < need fun c => (g c * j).tdiv 1024)
      ∧ need (fun c => (r.chans.get c).shared) ≤ r.budget)
  ∧ ∀ (s : State) (c : Channel) (d : Side) (u : Int) (w : Word32) (dmin dmax duty : Nat),
      u = (s.refresh.drive.sharing.chans.get c).shared → w = readWord s.tables .coils (coilNumber c d) →
      dmin = (w.extractLsb' 0 16).toNat → dmax = (w.extractLsb' 16 16).toNat →
      duty = ((s.refresh.drive.coils.get c).side d).computed →
      s.refresh.drive.sharing = shareFlow s.drive.qa (qmax s.tables) s.gated ∧ s.refresh = s.setDrive s.refresh.drive
        ∧ (¬((d = .a ∧ 0 < u) ∨ (d = .b ∧ u < 0)) → duty = 0)
        ∧ ((d = .a ∧ 0 < u) ∨ (d = .b ∧ u < 0) → dmin ≤ dmax →
            duty = dmin + (dmax - dmin) * u.natAbs / 1000 ∧ dmin ≤ duty ∧ (u.natAbs = 1000 → duty = dmax))

/-- COIL_PERIOD_START takes up the duty computed, COIL_ON_TIME_END ends the output, each of its own coil alone; an OPEN or
SHORT fault sets a clear latch, puts both coils of the channel off and faults its channel, PLAYING, HOLDING, AWAITING or PAUSED, and
its lift or its packer with it: a lift in a phase of its path halts, RECOVER goes to STUCK, in HALTED FAULT joins the cause set and
the channel the fault record, or the cycle is STUCK where the halted phase is RECOVER; PHASE is sent at each (R10, R18, R19, R22, R23,
R45, R65, R70, R71, R146, R150, R188). A channel in IDLE or FAULT stands, and so does a set latch. That the events of an absent
channel or a stopped timer change nothing (log 3), that PHASE or PACK_FAULT comes before COIL_FAULT (log 20), that the cause set of
PHASE in STUCK is empty (log 58), and that STUCK clears the hold with no window open (log 23), are the model's own choices. -/
def Obligations.CoilPeriodsAndFaults : Prop :=
  ∀ (s : State) (c : Channel) (d : Side) (current : Nat) (k : Coil), k = (s.drive.coils.get c).side d →
    (s.hasChannel c = true → s.drive.timerOf c = true → (k.inForce < 100 ∨ 3000 * k.inForce / 1000 / 10 ≤ current) →
      exec (.coilPeriodStart c d current) s = .next (s.setCoil c d ⟨k.computed, k.computed, decide (0 < k.computed)⟩))
    ∧ (s.hasChannel c = true → s.drive.timerOf c = true →
      exec (.coilOnTimeEnd c d) s = .next (s.setCoil c d { k with driven := false }))
    ∧ (s.hasChannel c = false ∨ s.drive.timerOf c = false → exec (.coilPeriodStart c d current) s = .next s
        ∧ exec (.coilOnTimeEnd c d) s = .next s)
    ∧ (s.hasChannel c = false ∨ current ≤ 4500 → exec (.coilShort c d current) s = .next s)
    ∧ ∀ (i : Instr) (kind : CoilFault), s.hasChannel c = true →
      (i = .coilShort c d current ∧ kind = .shortCircuit ∧ 4500 < current)
        ∨ (i = .coilPeriodStart c d current ∧ kind = .openCircuit ∧ s.drive.timerOf c = true ∧ 100 ≤ k.inForce
            ∧ current < 3000 * k.inForce / 1000 / 10) →
      ((s.drive.latches.get c).isSome = true → exec i s = .next s)
      ∧ (s.drive.latches.get c = none → ∃ t, exec i s = .next t
        ∧ t.drive.latches = s.drive.latches.put c (some ⟨d, kind⟩)
        ∧ t.drive.coils.get c = ⟨Coil.reset, Coil.reset⟩
        ∧ ((s.chans.get c).state = .idle ∨ (s.chans.get c).state = .fault →
            t.core = (s.setDrive t.drive).core ∧ Indicated s t (.alert (.coilFault c ⟨d, kind⟩)))
        ∧ (∀ p f, ((∃ v, (s.chans.get c).state = .run v) ∨ (s.chans.get c).state = .paused) →
            (s.chans.get c).origin = some .cycle → f = (Six.all none).put c (some .coil) →
            (s.lcc.phase = .run p → p ≠ .recover → HaltsLift s t p ⟨false, false, false, true⟩ f
              ∧ (t.chans.get c).fault = some ⟨.coil, (s.chans.get c).pointer⟩ ∧ (t.chans.get c).state = .fault
              ∧ (t.chans.get c).u = 0
              ∧ (∀ k ∈ s.lcc.started, k ≠ c → t.chans.get k = (s.chans.get k).pause)
              ∧ Tells s t [haltTold (some p) ⟨false, false, false, true⟩ f, alertTold (.coilFault c ⟨d, kind⟩)])
            ∧ (s.lcc.phase = .halted → s.lcc.haltedPhase = some p → p ≠ .recover →
              t.lcc = { s.lcc with causes := { s.lcc.causes with fault := true }, faults := s.lcc.faults.put c (some .coil) }
              ∧ t.weigh = s.weigh
              ∧ (t.chans.get c).fault = some ⟨.coil, (s.chans.get c).pointer⟩ ∧ (t.chans.get c).state = .fault
              ∧ (t.chans.get c).u = 0 ∧ (∀ k, k ≠ c → t.chans.get k = s.chans.get k)
              ∧ Tells s t [haltTold (some p) { s.lcc.causes with fault := true } (s.lcc.faults.put c (some .coil)),
                  alertTold (.coilFault c ⟨d, kind⟩)])
            ∧ (s.lcc.phase = .run .recover ∨ (s.lcc.phase = .halted ∧ s.lcc.haltedPhase = some .recover) →
              t.lcc = { Lcc.reset with phase := .stuck, ctx := s.lcc.ctx }
              ∧ t.weigh = { s.weigh with window := none, settle := [], hold := false }
              ∧ (∀ k ∈ s.lcc.started, (t.chans.get k).state = .idle)
              ∧ (∀ k, k ∉ s.lcc.started → k ≠ c → t.chans.get k = s.chans.get k)
              ∧ t.houses = { s.houses with windowOpen := false } ∧ t.journal = s.journal
              ∧ Tells s t [phaseTold .stuck, alertTold (.coilFault c ⟨d, kind⟩)]))
        ∧ (∀ m u, ((∃ v, (s.chans.get c).state = .run v) ∨ (s.chans.get c).state = .paused) → c.packed = some m →
            u = { s.comps.comp m with
                stage := .fault, stroke := none, fault := some ⟨.coil, (s.chans.get c).pointer⟩ } →
            ((s.chans.get c).origin = some .pack ∧ (s.comps.comp m).stage ≠ .ejecting
              ∨ (s.chans.get c).origin = some .eject ∧ (s.comps.comp m).stage = .ejecting) →
            (t.chans.get c).fault = some ⟨.coil, (s.chans.get c).pointer⟩ ∧ (t.chans.get c).state = .fault
              ∧ (t.chans.get c).u = 0 ∧ (∀ k, k ≠ c → t.chans.get k = s.chans.get k) ∧ t.lcc = s.lcc
              ∧ ((s.chans.get c).origin = some .pack → t.comps = s.comps.putComp m u ∧ t.journal = s.journal
                ∧ Tells s t [alertTold (.packFault m ⟨.coil, (s.chans.get c).pointer⟩),
                    alertTold (.coilFault c ⟨d, kind⟩)])
              ∧ ((s.chans.get c).origin = some .eject → (s.comps.comp m).ejectDone = some false →
                t.comps = s.comps.putComp m { u with ejectDone := none, lastEject := some .fault }
                  ∧ t.journal.reserved = s.journal.reserved - 1 ∧ t.journal.queue = s.journal.queue)
              ∧ ((s.chans.get c).origin = some .eject → (s.comps.comp m).ejectDone = some true →
                (t.comps.comp m).stage = .fault ∧ (t.comps.comp m).lastEject = some .done
                  ∧ (t.comps.comp m).total = 0 ∧ t.journal.reserved = s.journal.reserved - 1
                  ∧ ∃ v, t.journal.queue = s.journal.queue ++ [v] ∧ v.kind = .unload ∧ v.comp = some m
                    ∧ v.seq = s.journal.nextSeq))
        ∧ t.lock = s.lock ∧ t.store = s.store ∧ t.shadow = s.shadow ∧ t.settings = s.settings ∧ t.slotMap = s.slotMap
        ∧ t.pins = s.pins)

/-! ## Weighing (R76 to R84, R87, R113, R115, R144) -/

/-- SAMPLE_PAIR: the cell masses, the tilt correction and Zt give v; eight pairs make a block; sixteen settled blocks fix the
window's capture, which goes to the context, to CELL_BALANCE or to zero tracking. The inclinometer's commands set the
reading; a pressure reading goes into an open stroke (R76 to R84, R87, R113, R115, R144). That a pair out of range sets TILT by
the reading in force, as a weighed pair does, is the model's reading (log 24). -/
def Obligations.SamplePairsAreWeighed : Prop :=
  (∀ (s : State) (cA cB : BitVec 24) (p : Params) (x : Weigh) (tilt : Bool), p = s.lock.working → x = s.weigh →
    tilt = (!x.reading.fresh || decide (p.tilt < x.reading.pitch.natAbs) || decide (p.tilt < x.reading.roll.natAbs)) →
    (x.enabled = false → exec (.samplePair cA cB) s = .next s)
    ∧ (x.enabled = true → (cA.toInt = 8388607 ∨ cA.toInt = -8388608 ∨ cB.toInt = 8388607 ∨ cB.toInt = -8388608) →
      exec (.samplePair cA cB) s = .next (s.setWeigh { x with
        acc := ⟨0, 0, 0, 0⟩, settle := [], latestPair := some .overrange,
        window := x.window.map fun w => if w.capture.isNone then
          { w with overrange := true, tilt := w.tilt || tilt } else w }))
    ∧ ∀ (mA mB v : Int) (y : Weigh), x.enabled = true →
      -8388608 < cA.toInt → cA.toInt < 8388607 → -8388608 < cB.toInt → cB.toInt < 8388607 →
      mA = roundDiv ((cA.toInt - p.zA) * p.kA) 65536 → mB = roundDiv ((cB.toInt - p.zB) * p.kB) 65536 →
      v = roundDiv ((mA + mB) * tiltOf x.reading) 65536 - x.zt →
      y = { x with latestPair := some (.weighed mA mB v),
                   window := x.window.map fun w => if w.capture.isNone then { w with tilt := w.tilt || tilt } else w } →
      (x.acc.count < 7 → exec (.samplePair cA cB) s = .next (s.setWeigh { y with
          acc := ⟨x.acc.count + 1, x.acc.sumV + v, x.acc.sumA + mA, x.acc.sumB + mB⟩ }))
      ∧ ∀ (b : Block) (z : Weigh), x.acc.count = 7 →
        b = ⟨roundDiv (x.acc.sumV + v) 8, roundDiv (x.acc.sumA + mA) 8, roundDiv (x.acc.sumB + mB) 8⟩ →
        z = { y with acc := ⟨0, 0, 0, 0⟩, latestBlock := some b } →
        ((x.window = none ∨ x.hold = true ∨ ∃ w, x.window = some w ∧ w.capture.isSome = true) →
          exec (.samplePair cA cB) s = .next (s.setWeigh z))
        ∧ ∀ (w : Window) (l : List Block), y.window = some w → w.capture = none → x.hold = false → x.settle.length ≤ 16 →
          l = (x.settle ++ [b]).drop (x.settle.length - 15) →
          ((l.length < 16 ∨ ∃ e ∈ l, ∃ f ∈ l, p.band * p.d < e.v - f.v) →
            exec (.samplePair cA cB) s = .next (s.setWeigh { z with settle := l }))
          ∧ ∀ (f : Capture), l.length = 16 → (∀ e ∈ l, ∀ f ∈ l, e.v - f.v ≤ p.band * p.d) →
            f = { value := roundDiv (l.map Block.v).sum 16,
                  angles := if x.reading.fresh then some (x.reading.pitch, x.reading.roll) else none,
                  legal := s.legal, mA := roundDiv (l.map Block.mA).sum 16, mB := roundDiv (l.map Block.mB).sum 16 } →
            (w.kind = .gross → exec (.samplePair cA cB) s = .next (((s.setWeigh { z with
                settle := l, window := some { w with capture := some f } }).setLcc
                { s.lcc with ctx := s.lcc.ctx.map fun u => if u.path = .aborted ∨ u.gross.isSome then u else
                    { u with gross := some ⟨f.value, f.angles, f.legal⟩ } }).setLock
                { s.lock with balance := some (if 0 < f.mA + f.mB then
                    100 * (f.mA - f.mB).natAbs / (f.mA + f.mB).toNat else 100) }))
            ∧ (w.kind = .tare → exec (.samplePair cA cB) s = .next ((s.setWeigh { z with
                settle := l, window := some { w with capture := some f } }).setLcc
                { s.lcc with ctx := s.lcc.ctx.map fun u => if u.path = .aborted ∨ u.tare.isSome then u else
                    { u with tare := some ⟨f.value, f.legal⟩ } }))
            ∧ (w.kind = .zero → (w.overrange = true ∨ w.tilt = true) → exec (.samplePair cA cB) s = .next
                (s.setWeigh { z with settle := l, window := some { w with capture := some f } }))
            ∧ (w.kind = .zero → w.overrange = false → w.tilt = false → 0 < p.d → 0 ≤ p.max → s.lock.zero.count ≤ 255 →
              ∃ t, exec (.samplePair cA cB) s = .next t ∧ t = (s.setWeigh t.weigh).setLock { s.lock with zero := t.lock.zero }
                ∧ t.weigh.residual = some f.value
                ∧ ((f.value.natAbs : Int) ≤ p.d / 2 → ((x.zt + f.value).natAbs : Int) ≤ p.max * 4 / 100 →
                    t.weigh.zt = x.zt + f.value
                      ∧ t.lock.zero = { s.lock.zero with count := 0, point := some (x.zt + f.value) })
                ∧ ((f.value.natAbs : Int) ≤ p.d / 2 → p.max * 4 / 100 < ((x.zt + f.value).natAbs : Int) →
                    t.weigh.zt = x.zt
                      ∧ t.lock.zero = { s.lock.zero with crossed := true, point := some (x.zt + f.value) })
                ∧ (p.d / 2 < (f.value.natAbs : Int) → t.weigh.zt = x.zt
                      ∧ t.lock.zero.count = min 255 (s.lock.zero.count + 1)
                      ∧ t.lock.zero.crossed = (s.lock.zero.crossed || decide (3 ≤ min 255 (s.lock.zero.count + 1)))
                      ∧ t.lock.zero.point = some (x.zt + f.value))))
  ∧ (∀ (s : State) (pitch roll : Int),
      exec (.inclinometerReading pitch roll) s = .next (s.setWeigh { s.weigh with reading := ⟨pitch, roll, true⟩ })
        ∧ exec .inclinometerStale s = .next (s.setWeigh { s.weigh with
            reading := ⟨s.weigh.reading.pitch, s.weigh.reading.roll, false⟩ }))
  ∧ ∀ (s u : State) (c : Compartment) (pressure : Nat), s.hasComp c = true →
      u = s.setPins (match c with
        | .a => { s.pins with packAPressure := pressure }
        | .b => { s.pins with packBPressure := pressure }) →
      ((s.comps.comp c).stroke = none ∨ (s.comps.comp c).stage ≠ .compress
          ∨ (s.chans.get c.packer).state = .paused → exec (.pressureReading c pressure) s = .next u)
      ∧ ∀ k, (s.comps.comp c).stroke = some k → (s.comps.comp c).stage = .compress →
          (s.chans.get c.packer).state ≠ .paused → exec (.pressureReading c pressure) s = .next (u.setComp c
            { s.comps.comp c with
              stroke := some ⟨k.short || decide (s.settings.inForce.packFullPressure ≤ pressure), max k.peak pressure⟩ })

/-! ## The Interlocks' events (R66, R174 to R179) -/

/-- CHASSIS_STATE sets the report, the silence timer and the speed state; a change of the speed state halts the lift or joins
the causes of a halted one, takes SPEED from its causes, and takes or clears the snapshot. SILENCE_EXPIRY makes the speed
unknown and OVER, and from WITHIN in IDLE takes the snapshot. Neither is answered: nothing but PAYLOAD goes to the chassis link
and nothing but an indication to the body link, PHASE at the halt and at a change of the cause set (R10, R18, R19, R66, R174, R175,
R176, R178, R188). An expiry with the timer stopped changes nothing (log 3); that PHASE comes before CHASSIS_SILENT is the model's
own choice (log 20). -/
def Obligations.ChassisReportsAndSilence : Prop :=
  ∀ (s : State) (h : Header),
    (∀ f, Taken s h (.chassisState (some f)) → ∃ t, exec (.chassisState h (some f)) s = .next t
      ∧ t.inter.report = ⟨if f.speed = 0xFFFF#16 then none else some f.speed.toNat,
          if f.rpm = 0xFFFF#16 then none else some f.rpm.toNat,
          if f.brake = 0#8 then some false else if f.brake = 1#8 then some true else none,
          some s.settings.inForce.liftSpeedLimit⟩
      ∧ t.inter.present = true ∧ t.inter.silenceTimer = some 1000 ∧ t.inter.reported = true
      ∧ (t.inter.speedOver = true ↔ f.speed = 0xFFFF#16 ∨ s.settings.inForce.liftSpeedLimit < f.speed.toNat)
      ∧ t.drive.qa = (if f.rpm = 0xFFFF#16 then s.settings.inForce.idleRpm else f.rpm.toNat)
          * s.settings.inForce.displacement / 100
      ∧ (∀ p, s.inter.speedOver = false → t.inter.speedOver = true → s.lcc.phase = .run p →
          HaltsLift s t p ⟨false, false, true, false⟩ (Six.all none)
            ∧ (∀ k ∈ s.lcc.started, t.chans.get k = (s.chans.get k).pause)
            ∧ Tells s t [haltTold (some p) ⟨false, false, true, false⟩ (Six.all none)])
      ∧ (s.inter.speedOver = t.inter.speedOver → t.lcc = s.lcc ∧ t.chans = s.chans ∧ t.weigh = s.weigh)
      ∧ (s.inter.speedOver = true → t.inter.speedOver = false → t.chans = s.chans ∧ t.weigh = s.weigh
          ∧ t.lcc = (if s.lcc.phase = .halted then
              { s.lcc with causes := { s.lcc.causes with speed := false } } else s.lcc)
          ∧ (s.lcc.phase = .halted → s.lcc.causes.speed = true →
              Tells s t [haltTold s.lcc.haltedPhase { s.lcc.causes with speed := false } s.lcc.faults])
          ∧ t.inter.snapshot = none ∧ t.inter.alarm = false)
      ∧ (s.lcc.phase = .idle → s.inter.snapshot = none → t.inter.speedOver = true →
          (s.inter.speedOver = false ∨ s.inter.reported = false) →
          t.inter.snapshot = some s.watchedLevels ∧ t.inter.alarm = (s.inter.alarm || !s.pins.levels.armStowed))
      ∧ t.inter.permitHeld = s.inter.permitHeld ∧ t.inter.pto = s.inter.pto ∧ t.inter.seconds = s.inter.seconds
      ∧ t.lock = s.lock ∧ t.comps = s.comps ∧ t.journal = s.journal ∧ t.houses = s.houses ∧ SameStores s t
      ∧ (s.lcc.phase = .halted → s.inter.speedOver = false → t.inter.speedOver = true → t.chans = s.chans
          ∧ t.weigh = s.weigh ∧ t.lcc = { s.lcc with causes := { s.lcc.causes with speed := true } }
          ∧ (s.lcc.causes.speed = false →
              Tells s t [haltTold s.lcc.haltedPhase { s.lcc.causes with speed := true } s.lcc.faults]))
      ∧ (∀ m ∈ t.links.chassis.tx, m ∈ s.links.chassis.tx ∨ ∃ n, m = .payload n)
      ∧ (∀ m ∈ t.links.body.tx, m ∈ s.links.body.tx ∨ ∃ i, m = .indication i)
      ∧ (t.port h.src.port).rx = (s.port h.src.port).rx.tail ∧ t.links.service = s.links.service)
    ∧ (s.inter.silenceTimer = none → exec .silenceExpiry s = .next s)
    ∧ (s.inter.silenceTimer.isSome = true → ∃ t, exec .silenceExpiry s = .next t
      ∧ t.inter.report = { s.inter.report with speed := none } ∧ t.inter.present = false
      ∧ t.inter.silenceTimer = none ∧ t.inter.speedOver = true
      ∧ t.drive.qa = s.settings.inForce.idleRpm * s.settings.inForce.displacement / 100 ∧ t.drive.usingIdle = true
      ∧ (∀ p, s.inter.speedOver = false → s.lcc.phase = .run p →
          HaltsLift s t p ⟨false, false, true, false⟩ (Six.all none)
            ∧ (∀ k ∈ s.lcc.started, t.chans.get k = (s.chans.get k).pause)
            ∧ Tells s t [haltTold (some p) ⟨false, false, true, false⟩ (Six.all none), alertTold .chassisSilent])
      ∧ (s.inter.speedOver = true → t.lcc = s.lcc ∧ t.chans = s.chans ∧ t.weigh = s.weigh
          ∧ t.inter.snapshot = s.inter.snapshot ∧ Indicated s t (.alert .chassisSilent))
      ∧ (s.lcc.phase = .halted → s.inter.speedOver = false → t.chans = s.chans ∧ t.weigh = s.weigh
          ∧ t.lcc = { s.lcc with causes := { s.lcc.causes with speed := true } }
          ∧ (s.lcc.causes.speed = false →
              Tells s t [haltTold s.lcc.haltedPhase { s.lcc.causes with speed := true } s.lcc.faults,
                alertTold .chassisSilent]))
      ∧ (s.lcc.phase = .idle → s.inter.speedOver = false → t.lcc = s.lcc ∧ (s.inter.snapshot = none →
          t.inter.snapshot = some s.watchedLevels ∧ t.inter.alarm = (s.inter.alarm || !s.pins.levels.armStowed)))
      ∧ (∀ m ∈ t.links.chassis.tx, m ∈ s.links.chassis.tx ∨ ∃ n, m = .payload n)
      ∧ (∀ m ∈ t.links.body.tx, m ∈ s.links.body.tx ∨ ∃ i, m = .indication i) ∧ t.links.service = s.links.service
      ∧ t.lock = s.lock ∧ t.comps = s.comps ∧ t.journal = s.journal ∧ t.houses = s.houses ∧ SameStores s t)

/-- PTO_CHANGE: off, every coil goes off, the lift halts with cause PTO, the packers are paused; on, PTO leaves the cause set
and the packers are un-paused, an ejection only while the permit is HELD; a pack cycle that is due then starts. PHASE is sent at the
halt and at a change of the cause set (R10, R18, R19, R67, R141, R145, R177, R188). A level that is not new changes nothing (log 3). -/
def Obligations.PtoChangesAreHandedOn : Prop :=
  ∀ s : State, (∀ on, s.inter.pto = on → exec (.ptoChange on) s = .next s)
    ∧ (s.inter.pto = true → ∃ t, exec (.ptoChange false) s = .next t ∧ t.inter = { s.inter with pto := false }
      ∧ (∀ c, t.drive.coils.get c = ⟨Coil.reset, Coil.reset⟩)
      ∧ (∀ p, s.lcc.phase = .run p → HaltsLift s t p ⟨false, true, false, false⟩ (Six.all none)
          ∧ (∀ k ∈ s.lcc.started, t.chans.get k = (s.chans.get k).pause)
          ∧ Tells s t [haltTold (some p) ⟨false, true, false, false⟩ (Six.all none)])
      ∧ (s.lcc.phase = .halted → t.lcc = { s.lcc with causes := { s.lcc.causes with pto := true } }
          ∧ t.weigh = s.weigh
          ∧ (s.lcc.causes.pto = false →
              Tells s t [haltTold s.lcc.haltedPhase { s.lcc.causes with pto := true } s.lcc.faults]))
      ∧ (s.lcc.phase = .idle ∨ s.lcc.phase = .stuck → t.lcc = s.lcc ∧ t.weigh = s.weigh)
      ∧ (∀ c, c.isArm = false → ((s.chans.get c).origin = some .pack ∨ (s.chans.get c).origin = some .eject) →
          t.chans.get c = (s.chans.get c).pause)
      ∧ (∀ c, c.isArm = true → c ∉ s.lcc.started → t.chans.get c = s.chans.get c)
      ∧ t.lock = s.lock ∧ t.comps = s.comps ∧ t.journal = s.journal ∧ t.houses = s.houses ∧ SameStores s t)
    ∧ (s.inter.pto = false → s.comps.a.tips < s.settings.inForce.packAfter →
      s.comps.b.tips < s.settings.inForce.packAfter → ∃ t, exec (.ptoChange true) s = .next t
        ∧ t.inter = { s.inter with pto := true }
        ∧ t.lcc = (if s.lcc.phase = .halted then { s.lcc with causes := { s.lcc.causes with pto := false } } else s.lcc)
        ∧ (s.lcc.phase = .halted → s.lcc.causes.pto = true →
            Tells s t [haltTold s.lcc.haltedPhase { s.lcc.causes with pto := false } s.lcc.faults])
        ∧ (∀ c, t.chans.get c = if c.isArm = false ∧ ((s.chans.get c).origin = some .pack
            ∨ ((s.chans.get c).origin = some .eject ∧ s.inter.permitHeld = true)) then (s.chans.get c).unpause
            else s.chans.get c)
        ∧ t.weigh = s.weigh ∧ t.lock = s.lock ∧ t.comps = s.comps ∧ t.journal = s.journal ∧ t.houses = s.houses
        ∧ SameStores s t)
    ∧ ∀ c a, s.inter.pto = false → s.hasComp c = true → s.settings.inForce.packAfter ≤ (s.comps.comp c).tips →
        (∀ k, k ≠ c → (s.comps.comp k).tips < s.settings.inForce.packAfter) → (s.comps.comp c).stage = .rest →
        s.shadow.state = .ready → s.journal.starting = false → s.packEntry c = some a →
        (s.chans.get c.packer).state = .idle → s.drive.latches.get c.packer = none →
        ∃ t, exec (.ptoChange true) s = .next t ∧ t.inter = { s.inter with pto := true }
          ∧ t.comps = s.comps.putComp c { s.comps.comp c with stage := .sweep, stroke := none }
          ∧ t.chans.get c.packer = Chan.started .pack a 255
          ∧ (∀ k, k.isArm = true → t.chans.get k = s.chans.get k)
          ∧ t.weigh = s.weigh ∧ t.lock = s.lock ∧ t.journal = s.journal ∧ t.houses = s.houses ∧ SameStores s t

/-- A watched input that leaves its latched level raises a CLEAR stow alarm, with the alert and PAYLOAD; any other change of
one sets its level alone. PAYLOAD_TIMER_EXPIRY sends the totals, the statuses and the alarm as they stand (R178, R179). -/
def Obligations.WatchedInputsAndPayload : Prop :=
  (∀ (s u : State) (w : WatchedInput) (level : Bool),
    u = s.setPins { s.pins with levels := s.pins.levels.putLevel w level } →
    (s.inter.snapshot = none → exec (.watchedInputChange w level) s = .next u)
    ∧ ∀ l, s.inter.snapshot = some l →
      ((level = l.level w ∨ s.inter.alarm = true ∨ ((w = .flapAtA ∨ w = .flapAtB) ∧ s.variant = .single)) →
        exec (.watchedInputChange w level) s = .next u)
      ∧ (level ≠ l.level w → s.inter.alarm = false → (w = .armStowed ∨ w = .gripOpen ∨ s.variant = .split) →
        ∃ t, exec (.watchedInputChange w level) s = .next t
          ∧ t.core = (u.setInter { s.inter with alarm := true, payloadTimer := 500 }).core
          ∧ Indicated s t (.alert (.stowAlarm l u.watchedLevels)) ∧ SendsPayload s t t.payloadMsg
          ∧ t.payloadMsg.alarm = true))
  ∧ ∀ s : State, ∃ t, exec .payloadTimerExpiry s = .next t
      ∧ t.core = (s.setInter { s.inter with payloadTimer := 500 }).core
      ∧ (s.journal.starting = false → SendsPayload s t ⟨some s.comps.a.total,
          if s.variant = .split then some s.comps.b.total else none, some s.comps.a.status,
          if s.variant = .split then some s.comps.b.status else none, s.inter.alarm⟩)
      ∧ (s.journal.starting = true → SendsPayload s t ⟨none, none, none, none, s.inter.alarm⟩)
      ∧ t.links.body = s.links.body ∧ t.links.service = s.links.service

/-! ## Tags, decision, billing (R9, R12, R119 to R122, R129 to R133) -/

/-- TAG_SEEN counts a tag in an OPEN window, appends a new one while fewer than 4 are listed and counts the overflow beyond;
TAG_CLOSE forms the result, which the context takes before its decision (R120, R121). That TAG_SEEN leaves a partial frame of the
tag line as it is, which this statement rests on, is the model's own choice (log 60). -/
def Obligations.TagsAreCountedAndTheResultFormed : Prop :=
  (∀ (s : State) (tag : TagId) (strength : Byte), ∃ y, exec (.tagSeen tag strength) s = .next (s.setHouses y)
    ∧ y.windowOpen = s.houses.windowOpen ∧ y.lastResult = s.houses.lastResult ∧ y.table = s.houses.table
    ∧ y.loaded = s.houses.loaded
    ∧ (s.houses.windowOpen = false ∨ tag = 0xFFFFFFFFFFFFFFFF#64 → y = s.houses)
    ∧ (s.houses.windowOpen = true → tag ≠ 0xFFFFFFFFFFFFFFFF#64 →
      ((∃ e ∈ s.houses.tagList, e.tag = tag) → (∀ e ∈ s.houses.tagList, e.count ≤ 255) →
        y.overflow = s.houses.overflow ∧ y.tagList = s.houses.tagList.map fun e => if e.tag = tag then
          ⟨tag, min 255 (e.count + 1), max e.strength strength.toNat⟩ else e)
      ∧ ((∀ e ∈ s.houses.tagList, e.tag ≠ tag) → s.houses.tagList.length < 4 →
        y.overflow = s.houses.overflow ∧ y.tagList = s.houses.tagList ++ [⟨tag, 1, strength.toNat⟩])
      ∧ ((∀ e ∈ s.houses.tagList, e.tag ≠ tag) → 4 ≤ s.houses.tagList.length → s.houses.overflow ≤ 255 →
        y.overflow = min 255 (s.houses.overflow + 1) ∧ y.tagList = s.houses.tagList)))
  ∧ (tagResult [] = .noTag
    ∧ (∀ (l r : List TagEntry) (e : TagEntry), (∀ f ∈ l ++ r, f.count < e.count) →
        tagResult (l ++ e :: r) = .winner e.tag)
    ∧ ∀ (l m r : List TagEntry) (e f : TagEntry), e.count = f.count →
        (∀ g ∈ l ++ m ++ r, g.count ≤ e.count) → tagResult (l ++ e :: (m ++ f :: r)) = .ambiguous)
  ∧ ∀ (s : State) (c : Channel) (x : Sensors) (r : Chan) (v : Int), r = s.chans.get c → r.pointer < 16382 →
      r.origin = some .cycle → s.reaches c (.mark 1) → s.houses.windowOpen = true → -1000 ≤ v → v ≤ 1000 →
      s.elementAt (r.pointer + 1) (.set v) →
      exec (.stepExpiry c x) s = .next (((s.setHouses { s.houses with
          windowOpen := false, lastResult := some (tagResult s.houses.tagList, s.houses.overflow) }).setLcc
        { s.lcc with ctx := s.lcc.ctx.map fun y => if y.decision = none ∧ y.path = .lift then
            { y with tagResult := some (tagResult s.houses.tagList), overflow := s.houses.overflow } else y }).moved c x
        { r.nextElement v with pointer := r.pointer + 2 })

/-- The checks of the decision in their order; at the end of APPROACH a tag window still open is closed and its result taken,
and the lift goes on to GRIP with the household's slot and the pin, or to RETRACT with nothing pinned, and PHASE is sent (R9, R10,
R12, R13, R122, R129, R130, R131, R188). That the cause set of this PHASE is empty is the model's own choice (log 58). -/
def Obligations.DecisionAtTheEndOfApproach : Prop :=
  (∀ (x : Houses) (policy : UntaggedPolicy) (r : TagResult) (stream : Stream) (v : Verdict),
    v = decideLift x policy r stream →
    (v.ambiguous = true ↔ r = .ambiguous) ∧ (v.notLoaded = true ↔ x.loaded = false)
    ∧ ((x.loaded = false ∨ r = .noTag ∨ r = .ambiguous ∨ ∃ tag, r = .winner tag ∧ x.find tag = none) →
      v.entry = none
        ∧ (policy = .liftUnbilled → v.decision = .accept)
        ∧ (policy = .refuse → (r = .noTag ∨ r = .ambiguous) → v.decision = .refuse .untagged)
        ∧ (policy = .refuse → (∃ tag, r = .winner tag) → v.decision = .refuse .unknownTag))
    ∧ ∀ tag e, x.loaded = true → r = .winner tag → x.find tag = some e → v.entry = some e
      ∧ (e.status = .suspended → v.decision = .refuse .suspended)
      ∧ (e.status = .active → e.takes stream = false → v.decision = .refuse .stream)
      ∧ (e.status = .active → e.takes stream = true →
          (∀ l, e.liftLimit = some l → l ≤ e.liftsToday → v.decision = .refuse .liftLimit)
          ∧ ((∀ l, e.liftLimit = some l → e.liftsToday < l) →
            (e.allowance = some 0 ∧ e.excess = .refuse → v.decision = .refuse .allowanceSpent)
            ∧ (¬(e.allowance = some 0 ∧ e.excess = .refuse) → v.decision = .accept))))
  ∧ ∀ (s : State) (c k : Channel) (x : Sensors) (y w z : LiftCtx) (v : Verdict) (u : Houses), s.lastToEnd c →
      s.armReady c → s.shadow.state = .ready → s.lcc.phase = .run .approach → s.lcc.ctx = some y → y.path = .lift →
      s.weigh.window = none →
      (s.houses.windowOpen = false ∧ w = y ∧ u = s.houses
        ∨ s.houses.windowOpen = true ∧ y.decision = none
          ∧ w = { y with tagResult := some (tagResult s.houses.tagList), overflow := s.houses.overflow }
          ∧ u = { s.houses with
              windowOpen := false, lastResult := some (tagResult s.houses.tagList, s.houses.overflow) }) →
      v = decideLift s.houses s.settings.inForce.untaggedPolicy (w.tagResult.getD .noTag) y.stream →
      z = { w with decision := some v.decision, household := v.entry.map fun e => ⟨e.tag, e.account⟩,
                   activeSlot := (v.entry.map Entry.slot).getD y.activeSlot, tagAmbiguous := v.ambiguous,
                   tableNotLoaded := v.notLoaded } →
      k.isArm = true → s.hasChannel k = true →
      (v.decision = .accept → (s.setEntry (s.slotMap.get z.activeSlot) .grip k).isSome = true →
        ∃ t, exec (.stepExpiry c x) s = .next t ∧ t.lcc.phase = .run .grip ∧ k ∈ t.lcc.started
          ∧ Tells s t [phaseTold (.run .grip)]
          ∧ t.lcc.ctx = some { z with pin := v.entry.map Entry.tag, lastPhase := .grip }
          ∧ (∀ e, v.entry = some e → t.houses.find e.tag = some { e with pinned := true })
          ∧ (∀ g, v.entry.map Entry.tag ≠ some g → t.houses.find g = s.houses.find g)
          ∧ t.houses = { u with table := t.houses.table } ∧ (v.entry = none → t.houses = u)
          ∧ t.journal = s.journal ∧ t.lock = s.lock ∧ t.comps = s.comps ∧ t.weigh = s.weigh ∧ t.inter = s.inter)
      ∧ (v.decision ≠ .accept → (s.setEntry (s.slotMap.get z.activeSlot) .retract k).isSome = true →
        ∃ t, exec (.stepExpiry c x) s = .next t ∧ t.lcc.phase = .run .retract ∧ k ∈ t.lcc.started
          ∧ Tells s t [phaseTold (.run .retract)]
          ∧ t.lcc.ctx = some { z with pin := none, path := .refused, lastPhase := .retract } ∧ t.houses = u
          ∧ t.journal = s.journal ∧ t.lock = s.lock ∧ t.comps = s.comps ∧ t.weigh = s.weigh ∧ t.inter = s.inter)

/-- The END that completes RETRACT or RECOVER stages the lift against its reservation and returns the cycle to IDLE: a LIFT
record with the judged net and its flags, the household billed for a clean weighing and for nothing when a flag of R92 stands,
its contribution added; a REFUSED record changes no account; an ABORTED record carries the rounded captures with no net and no
judgement flag, OVER_MAX neither, which R94 and R194 leave to the model's reading (log 48). RECORD is sent with the number and the
kind, then PHASE with an empty cause set, which is log 58 (R9, R10, R14, R15, R16, R17, R90 to R94, R129, R132, R133, R138, R159,
R188). -/
def Obligations.LiftsAreStagedAndBilled : Prop :=
  ∀ (s : State) (c : Channel) (x : Sensors) (y : LiftCtx) (d : Int), s.lastToEnd c →
    (s.lcc.phase = .run .retract ∨ s.lcc.phase = .run .recover) → s.lcc.ctx = some y → s.weigh.window = none → d = s.lock.working.d →
    ∃ t r, exec (.stepExpiry c x) s = .next t ∧ t.lcc = Lcc.reset
      ∧ t.journal.queue = s.journal.queue ++ [r] ∧ t.journal.nextSeq = s.journal.nextSeq + 1
      ∧ t.journal.reserved = s.journal.reserved - 1 ∧ t.journal.free = s.journal.free - 1
      ∧ r.seq = s.journal.nextSeq ∧ r.time = some s.inter.seconds ∧ r.stream = some y.stream ∧ r.comp = some y.target
      ∧ r.slot = some y.activeSlot ∧ r.account = y.household.map Household.account ∧ r.cec = s.lock.cec
      ∧ r.totalA = t.comps.a.total ∧ t.houses.windowOpen = false
      ∧ (s.staysQuiet → Tells s t [recordTold s.journal.nextSeq r.kind, phaseTold .idle])
      ∧ (∀ k, k ≠ y.target → t.comps.comp k = s.comps.comp k)
      ∧ (∀ (i : Nat) (v : Bool), (i, v) ∈ [(0, y.halted), (1, y.tagAmbiguous), (2, y.tableNotLoaded),
          (3, y.manualRecovery), (15, !s.inter.timeValid)] → r.flags.getLsbD i = v)
      ∧ (y.path ≠ .lift → ∀ i ∈ [4, 5, 6, 7, 8, 9, 10, 11, 12, 13, 14, 16], r.flags.getLsbD i = false)
      ∧ (∀ i, 17 ≤ i → r.flags.getLsbD i = false)
      ∧ (y.path = .refused → y.pin = none → r.kind = .refused ∧ r.net = none ∧ r.covered = none
          ∧ t.houses.table = s.houses.table ∧ t.comps = s.comps)
      ∧ (y.path = .aborted → r.kind = .aborted ∧ r.net = none ∧ r.covered = none ∧ r.excess = none ∧ r.allowance = none
          ∧ r.gross = y.gross.map (fun g => roundTo d g.g) ∧ r.tare = y.tare.map (fun t => roundTo d t.t)
          ∧ r.angles = y.gross.bind GrossCapture.angles ∧ r.lastPhase = some y.lastPhase ∧ t.comps = s.comps
          ∧ (y.pin = none → t.houses.table = s.houses.table)
          ∧ ∀ tag e, y.pin = some tag → s.houses.find tag = some e →
              t.houses.find tag = some { e with pinned := false } ∧ ∀ g, g ≠ tag → t.houses.find g = s.houses.find g)
      ∧ (y.path = .lift → r.kind = .lift
        ∧ r.gross = y.gross.map (fun g => roundTo d g.g) ∧ r.tare = y.tare.map (fun t => roundTo d t.t)
        ∧ (y.gross = none ∨ y.tare = none → r.net = none)
        ∧ (∀ g t', y.gross = some g → y.tare = some t' → r.net = some (roundTo d (g.g - t'.t)))
        ∧ (∀ (i : Nat) (v : Bool), (i, v) ∈
            [(4, y.gross.isNone && !y.grossDisabled), (5, y.tare.isNone && !y.tareDisabled),
             (6, y.grossFlags.overrange || y.tareFlags.overrange), (7, y.grossFlags.tilt || y.tareFlags.tilt),
             (8, r.gross.any fun g => decide (s.lock.working.max < g) || decide (g < -8388608) || decide (8388607 < g)),
             (9, r.net.any fun n => decide (n < 0)),
             (10, r.net.any fun n => decide (0 ≤ n) && decide (n < s.lock.working.min * d)),
             (11, (y.gross.any fun g => g.legal == .notLegal) || (y.tare.any fun t => t.legal == .notLegal)),
             (12, y.grossDisabled || y.tareDisabled),
             (13, decide (8 ≤ (s.lock.outcomes.filter (· == .unstable)).length) || s.lock.balance.any fun n => decide (60 ≤ n)),
             (14, (y.pin.bind s.houses.find).any fun e => e.lastTime.any fun l => decide (l ≤ s.inter.seconds)
                && decide (s.inter.seconds - l ≤ s.settings.inForce.repeatInterval)),
             (16, y.haltedInWindow)] → r.flags.getLsbD i = v)
        ∧ (∀ n, r.net = some n → 0 < n → (s.comps.comp y.target).total + n.toNat ≤ 4294967294 →
            (t.comps.comp y.target).total = (s.comps.comp y.target).total + n.toNat)
        ∧ ((∀ n, r.net = some n → n ≤ 0) → (s.comps.comp y.target).total ≤ 4294967294 →
            (t.comps.comp y.target).total = (s.comps.comp y.target).total)
        ∧ (y.pin = none → t.houses.table = s.houses.table ∧ r.covered = none ∧ r.excess = none ∧ r.allowance = none)
        ∧ ∀ tag e, y.pin = some tag → s.houses.find tag = some e → e.liftsToday < 255 →
          t.houses.find tag = some { e with
              allowance := r.allowance, liftsToday := e.liftsToday + 1, lastTime := some s.inter.seconds, pinned := false }
          ∧ (∀ g, g ≠ tag → t.houses.find g = s.houses.find g)
          ∧ (∀ n, y.weighedClean s.lock.working n → e.tariff = .byWeight → n ≤ 16777214 →
            (e.allowance = none → r.covered = some n.toNat ∧ r.excess = some 0 ∧ r.allowance = none)
            ∧ ∀ a, e.allowance = some a → r.covered = some (min n.toNat a) ∧ r.excess = some (n.toNat - min n.toNat a)
                ∧ r.allowance = some (a - min n.toNat a))
          ∧ ((e.tariff = .byLift ∨ y.gross = none ∨ y.tare = none
                ∨ ∃ i ∈ [4, 5, 6, 7, 8, 9, 10, 11, 12, 16], r.flags.getLsbD i = true) →
              r.covered = some 0 ∧ r.excess = some 0 ∧ r.allowance = e.allowance))

/-! ## Record writes and erases (R160 to R162) -/

/-- RECORD_WRITE_DONE puts the record of the queue's head into its slot and no other; the next record's write starts at the
frontier, the lowest unwritten slot of the ACTIVE sector or slot 0 of the first BLANK sector in ring order, and the sector that
the newest record leaves is reclaimed when its records are all released. Staging a record, here at the end of a commit, starts
its write where none is in flight and suspends an erase. SECTOR_ERASE_DONE blanks the sector and gives its slots back (R160,
R161, R162, R163). A completion with no write or running erase in flight changes nothing (log 3). -/
def Obligations.RecordsAreWrittenAndSectorsErased : Prop :=
  ∀ (s : State) (j : Journal), j = s.journal →
    (j.writing = none ∨ j.queue = [] → exec .recordWriteDone s = .next s)
    ∧ (∀ i r rest, j.writing = some i → j.queue = r :: rest → cellsWf erasedSlot j.slots = true →
      ∃ t, exec .recordWriteDone s = .next t ∧ t = s.setJournal t.journal
        ∧ t.journal.queue = rest ∧ t.journal.newest = some r.seq
        ∧ readSlot t.journal.slots i = r.bits ∧ (∀ k, k ≠ i → readSlot t.journal.slots k = readSlot j.slots k)
        ∧ t.journal.mark = j.mark ∧ t.journal.nextSeq = j.nextSeq ∧ t.journal.free = j.free
        ∧ t.journal.reserved = j.reserved ∧ t.journal.cells = j.cells ∧ t.journal.release = j.release
        ∧ (rest = [] → t.journal.writing = none)
        ∧ (∀ n k, rest ≠ [] → i < 4096 → k = i / 128 → i % 128 < 127 → j.sectors.length = 32 →
            (∀ m, (j.sector m).state = .active ↔ m = k) → (j.newestSector = none ∨ j.newestSector = some k) →
            n ≠ i → n / 128 = k → readSlot j.slots n = BitVec.allOnes 512 →
            (∀ m, k * 128 ≤ m → m < n → m ≠ i → readSlot j.slots m ≠ BitVec.allOnes 512) →
            r.bits ≠ BitVec.allOnes 512 →
            t.journal.writing = some n ∧ (t.journal.sector k).state = .active
              ∧ ∀ e, j.erase = some e → t.journal.erase = some { e with running := false })
        ∧ (∀ k q, rest ≠ [] → i < 4096 → k = i / 128 → i % 128 = 127 → j.sectors.length = 32 →
            (∀ m, (j.sector m).state = .active → m = k) → (j.newestSector = none ∨ j.newestSector = some k) →
            patternOf r.bits = .valid → slotSeq r.bits = r.seq → (∀ e ∈ j.slots, slotSeq e.2 ≠ r.seq) →
            q < 32 → q ≠ k → (j.sector q).state = .blank → readSlot j.slots (q * 128) = BitVec.allOnes 512 →
            (∀ m, m < 32 → (m + 31 - k) % 32 < (q + 31 - k) % 32 → (j.sector m).state ≠ .blank) →
            t.journal.writing = some (q * 128) ∧ (t.journal.sector q).state = .active
              ∧ (t.journal.sector k).state = .full
              ∧ ∀ e, j.erase = some e → t.journal.erase = some { e with running := false })
        ∧ (rest = [] → j.sectors.length = 32 → i < 4096 → i % 128 = 127 → (∀ k, (j.sector k).state ≠ .reclaimable) →
            (j.newestSector = none ∨ j.newestSector = some (i / 128)) → t.journal.sector (i / 128) = ⟨.full, false⟩
              ∧ t.journal.erase = j.erase.map (fun e => { e with running := true })
              ∧ t.journal.oldest = some (j.oldest.getD r.seq))
        ∧ (∀ k, rest = [] → j.sectors.length = 32 → i < 4096 → k < 32 → j.newestSector = some k → k ≠ i / 128 →
            (j.sector k).state = .full → j.erase = none → (∀ m, (j.sector m).state ≠ .reclaimable) →
            (∀ e ∈ j.slots, e.1 / 128 = k → patternOf e.2 = .valid → slotSeq e.2 ≤ j.mark) →
            (∀ e ∈ j.slots, slotSeq e.2 ≠ r.seq) →
            t.journal.sector k = ⟨.erasing, false⟩ ∧ t.journal.note = some k ∧ t.journal.erase = some ⟨k, true⟩))
    ∧ (∀ (p : Params) (check mask : Word32) (k n : Nat), s.lock.write = some (.commit p check mask) → j.writing = none →
        j.sectors.length = 32 → k < 32 → (∀ m, (j.sector m).state = .active ↔ m = k) → n / 128 = k →
        readSlot j.slots n = BitVec.allOnes 512 →
        (∀ m, k * 128 ≤ m → m < n → readSlot j.slots m ≠ BitVec.allOnes 512) →
        ∃ t, exec .commitWriteDone s = .next t ∧ t.journal.writing = some n
          ∧ t.journal.erase = j.erase.map (fun e => { e with running := false }) ∧ t.journal.slots = j.slots)
    ∧ ((∀ k, j.erase ≠ some ⟨k, true⟩) → exec .sectorEraseDone s = .next s)
    ∧ ∀ k, j.erase = some ⟨k, true⟩ → k < 32 → j.sectors.length = 32 →
      ∃ t, exec .sectorEraseDone s = .next t ∧ t = s.setJournal t.journal
        ∧ (∀ i, i / 128 = k → readSlot t.journal.slots i = BitVec.allOnes 512)
        ∧ (∀ i, i / 128 ≠ k → readSlot t.journal.slots i = readSlot j.slots i)
        ∧ t.journal.sector k = ⟨.blank, false⟩ ∧ t.journal.free = j.free + 128
        ∧ (j.reserved + 256 ≤ j.free + 128 → t.journal.low = false)
        ∧ t.journal.mark = j.mark ∧ t.journal.newest = j.newest ∧ t.journal.queue = j.queue
        ∧ t.journal.reserved = j.reserved ∧ t.journal.nextSeq = j.nextSeq ∧ t.journal.writing = j.writing
        ∧ ((∀ m, m ≠ k → (j.sector m).state ≠ .reclaimable) → t.journal.erase = none ∧ t.journal.note = none
            ∧ t.journal.oldest = j.oldest)
        ∧ ∀ m, m < 32 → m ≠ k → (j.sector m).state = .reclaimable →
            (∀ n, n ≠ m → n ≠ k → (j.sector n).state ≠ .reclaimable) →
            t.journal.note = some m ∧ t.journal.sector m = ⟨.erasing, false⟩
              ∧ t.journal.erase = some ⟨m, j.writing.isNone && j.queue.isEmpty⟩
end

