-- ==== Sys2Proof/Laws/State.lean ====
section
/-! SUPPORT. What replacing one block of the state changes and what it leaves: one lemma per field and update. -/

namespace Sys2Proof.Machine

@[simp] theorem State.setPins_pending (s : State) (x : Pins) : (s.setPins x).pending = s.pending := rfl
@[simp] theorem State.setPins_variant (s : State) (x : Pins) : (s.setPins x).variant = s.variant := rfl
@[simp] theorem State.setPins_pins (s : State) (x : Pins) : (s.setPins x).pins = x := rfl
@[simp] theorem State.setPins_links (s : State) (x : Pins) : (s.setPins x).links = s.links := rfl
@[simp] theorem State.setPins_settings (s : State) (x : Pins) : (s.setPins x).settings = s.settings := rfl
@[simp] theorem State.setPins_lcc (s : State) (x : Pins) : (s.setPins x).lcc = s.lcc := rfl
@[simp] theorem State.setPins_chans (s : State) (x : Pins) : (s.setPins x).chans = s.chans := rfl
@[simp] theorem State.setPins_store (s : State) (x : Pins) : (s.setPins x).store = s.store := rfl
@[simp] theorem State.setPins_shadow (s : State) (x : Pins) : (s.setPins x).shadow = s.shadow := rfl
@[simp] theorem State.setPins_slotMap (s : State) (x : Pins) : (s.setPins x).slotMap = s.slotMap := rfl
@[simp] theorem State.setPins_drive (s : State) (x : Pins) : (s.setPins x).drive = s.drive := rfl
@[simp] theorem State.setPins_weigh (s : State) (x : Pins) : (s.setPins x).weigh = s.weigh := rfl
@[simp] theorem State.setPins_lock (s : State) (x : Pins) : (s.setPins x).lock = s.lock := rfl
@[simp] theorem State.setPins_houses (s : State) (x : Pins) : (s.setPins x).houses = s.houses := rfl
@[simp] theorem State.setPins_comps (s : State) (x : Pins) : (s.setPins x).comps = s.comps := rfl
@[simp] theorem State.setPins_journal (s : State) (x : Pins) : (s.setPins x).journal = s.journal := rfl
@[simp] theorem State.setPins_inter (s : State) (x : Pins) : (s.setPins x).inter = s.inter := rfl
@[simp] theorem State.setPins_freeIx (s : State) (x : Pins) : (s.setPins x).freeIx = s.freeIx := rfl

@[simp] theorem State.setLinks_pending (s : State) (x : Links) : (s.setLinks x).pending = s.pending := rfl
@[simp] theorem State.setLinks_variant (s : State) (x : Links) : (s.setLinks x).variant = s.variant := rfl
@[simp] theorem State.setLinks_pins (s : State) (x : Links) : (s.setLinks x).pins = s.pins := rfl
@[simp] theorem State.setLinks_links (s : State) (x : Links) : (s.setLinks x).links = x := rfl
@[simp] theorem State.setLinks_settings (s : State) (x : Links) : (s.setLinks x).settings = s.settings := rfl
@[simp] theorem State.setLinks_lcc (s : State) (x : Links) : (s.setLinks x).lcc = s.lcc := rfl
@[simp] theorem State.setLinks_chans (s : State) (x : Links) : (s.setLinks x).chans = s.chans := rfl
@[simp] theorem State.setLinks_store (s : State) (x : Links) : (s.setLinks x).store = s.store := rfl
@[simp] theorem State.setLinks_shadow (s : State) (x : Links) : (s.setLinks x).shadow = s.shadow := rfl
@[simp] theorem State.setLinks_slotMap (s : State) (x : Links) : (s.setLinks x).slotMap = s.slotMap := rfl
@[simp] theorem State.setLinks_drive (s : State) (x : Links) : (s.setLinks x).drive = s.drive := rfl
@[simp] theorem State.setLinks_weigh (s : State) (x : Links) : (s.setLinks x).weigh = s.weigh := rfl
@[simp] theorem State.setLinks_lock (s : State) (x : Links) : (s.setLinks x).lock = s.lock := rfl
@[simp] theorem State.setLinks_houses (s : State) (x : Links) : (s.setLinks x).houses = s.houses := rfl
@[simp] theorem State.setLinks_comps (s : State) (x : Links) : (s.setLinks x).comps = s.comps := rfl
@[simp] theorem State.setLinks_journal (s : State) (x : Links) : (s.setLinks x).journal = s.journal := rfl
@[simp] theorem State.setLinks_inter (s : State) (x : Links) : (s.setLinks x).inter = s.inter := rfl
@[simp] theorem State.setLinks_freeIx (s : State) (x : Links) : (s.setLinks x).freeIx = s.freeIx := rfl

@[simp] theorem State.setSettings_pending (s : State) (x : SettingsBlock) : (s.setSettings x).pending = s.pending := rfl
@[simp] theorem State.setSettings_variant (s : State) (x : SettingsBlock) : (s.setSettings x).variant = s.variant := rfl
@[simp] theorem State.setSettings_pins (s : State) (x : SettingsBlock) : (s.setSettings x).pins = s.pins := rfl
@[simp] theorem State.setSettings_links (s : State) (x : SettingsBlock) : (s.setSettings x).links = s.links := rfl
@[simp] theorem State.setSettings_settings (s : State) (x : SettingsBlock) : (s.setSettings x).settings = x := rfl
@[simp] theorem State.setSettings_lcc (s : State) (x : SettingsBlock) : (s.setSettings x).lcc = s.lcc := rfl
@[simp] theorem State.setSettings_chans (s : State) (x : SettingsBlock) : (s.setSettings x).chans = s.chans := rfl
@[simp] theorem State.setSettings_store (s : State) (x : SettingsBlock) : (s.setSettings x).store = s.store := rfl
@[simp] theorem State.setSettings_shadow (s : State) (x : SettingsBlock) : (s.setSettings x).shadow = s.shadow := rfl
@[simp] theorem State.setSettings_slotMap (s : State) (x : SettingsBlock) : (s.setSettings x).slotMap = s.slotMap := rfl
@[simp] theorem State.setSettings_drive (s : State) (x : SettingsBlock) : (s.setSettings x).drive = s.drive := rfl
@[simp] theorem State.setSettings_weigh (s : State) (x : SettingsBlock) : (s.setSettings x).weigh = s.weigh := rfl
@[simp] theorem State.setSettings_lock (s : State) (x : SettingsBlock) : (s.setSettings x).lock = s.lock := rfl
@[simp] theorem State.setSettings_houses (s : State) (x : SettingsBlock) : (s.setSettings x).houses = s.houses := rfl
@[simp] theorem State.setSettings_comps (s : State) (x : SettingsBlock) : (s.setSettings x).comps = s.comps := rfl
@[simp] theorem State.setSettings_journal (s : State) (x : SettingsBlock) : (s.setSettings x).journal = s.journal := rfl
@[simp] theorem State.setSettings_inter (s : State) (x : SettingsBlock) : (s.setSettings x).inter = s.inter := rfl
@[simp] theorem State.setSettings_freeIx (s : State) (x : SettingsBlock) : (s.setSettings x).freeIx = s.freeIx := rfl

@[simp] theorem State.setLcc_pending (s : State) (x : Lcc) : (s.setLcc x).pending = s.pending := rfl
@[simp] theorem State.setLcc_variant (s : State) (x : Lcc) : (s.setLcc x).variant = s.variant := rfl
@[simp] theorem State.setLcc_pins (s : State) (x : Lcc) : (s.setLcc x).pins = s.pins := rfl
@[simp] theorem State.setLcc_links (s : State) (x : Lcc) : (s.setLcc x).links = s.links := rfl
@[simp] theorem State.setLcc_settings (s : State) (x : Lcc) : (s.setLcc x).settings = s.settings := rfl
@[simp] theorem State.setLcc_lcc (s : State) (x : Lcc) : (s.setLcc x).lcc = x := rfl
@[simp] theorem State.setLcc_chans (s : State) (x : Lcc) : (s.setLcc x).chans = s.chans := rfl
@[simp] theorem State.setLcc_store (s : State) (x : Lcc) : (s.setLcc x).store = s.store := rfl
@[simp] theorem State.setLcc_shadow (s : State) (x : Lcc) : (s.setLcc x).shadow = s.shadow := rfl
@[simp] theorem State.setLcc_slotMap (s : State) (x : Lcc) : (s.setLcc x).slotMap = s.slotMap := rfl
@[simp] theorem State.setLcc_drive (s : State) (x : Lcc) : (s.setLcc x).drive = s.drive := rfl
@[simp] theorem State.setLcc_weigh (s : State) (x : Lcc) : (s.setLcc x).weigh = s.weigh := rfl
@[simp] theorem State.setLcc_lock (s : State) (x : Lcc) : (s.setLcc x).lock = s.lock := rfl
@[simp] theorem State.setLcc_houses (s : State) (x : Lcc) : (s.setLcc x).houses = s.houses := rfl
@[simp] theorem State.setLcc_comps (s : State) (x : Lcc) : (s.setLcc x).comps = s.comps := rfl
@[simp] theorem State.setLcc_journal (s : State) (x : Lcc) : (s.setLcc x).journal = s.journal := rfl
@[simp] theorem State.setLcc_inter (s : State) (x : Lcc) : (s.setLcc x).inter = s.inter := rfl
@[simp] theorem State.setLcc_freeIx (s : State) (x : Lcc) : (s.setLcc x).freeIx = s.freeIx := rfl

@[simp] theorem State.setChans_pending (s : State) (x : Six Chan) : (s.setChans x).pending = s.pending := rfl
@[simp] theorem State.setChans_variant (s : State) (x : Six Chan) : (s.setChans x).variant = s.variant := rfl
@[simp] theorem State.setChans_pins (s : State) (x : Six Chan) : (s.setChans x).pins = s.pins := rfl
@[simp] theorem State.setChans_links (s : State) (x : Six Chan) : (s.setChans x).links = s.links := rfl
@[simp] theorem State.setChans_settings (s : State) (x : Six Chan) : (s.setChans x).settings = s.settings := rfl
@[simp] theorem State.setChans_lcc (s : State) (x : Six Chan) : (s.setChans x).lcc = s.lcc := rfl
@[simp] theorem State.setChans_chans (s : State) (x : Six Chan) : (s.setChans x).chans = x := rfl
@[simp] theorem State.setChans_store (s : State) (x : Six Chan) : (s.setChans x).store = s.store := rfl
@[simp] theorem State.setChans_shadow (s : State) (x : Six Chan) : (s.setChans x).shadow = s.shadow := rfl
@[simp] theorem State.setChans_slotMap (s : State) (x : Six Chan) : (s.setChans x).slotMap = s.slotMap := rfl
@[simp] theorem State.setChans_drive (s : State) (x : Six Chan) : (s.setChans x).drive = s.drive := rfl
@[simp] theorem State.setChans_weigh (s : State) (x : Six Chan) : (s.setChans x).weigh = s.weigh := rfl
@[simp] theorem State.setChans_lock (s : State) (x : Six Chan) : (s.setChans x).lock = s.lock := rfl
@[simp] theorem State.setChans_houses (s : State) (x : Six Chan) : (s.setChans x).houses = s.houses := rfl
@[simp] theorem State.setChans_comps (s : State) (x : Six Chan) : (s.setChans x).comps = s.comps := rfl
@[simp] theorem State.setChans_journal (s : State) (x : Six Chan) : (s.setChans x).journal = s.journal := rfl
@[simp] theorem State.setChans_inter (s : State) (x : Six Chan) : (s.setChans x).inter = s.inter := rfl
@[simp] theorem State.setChans_freeIx (s : State) (x : Six Chan) : (s.setChans x).freeIx = s.freeIx := rfl

@[simp] theorem State.setStore_pending (s : State) (x : Store) : (s.setStore x).pending = s.pending := rfl
@[simp] theorem State.setStore_variant (s : State) (x : Store) : (s.setStore x).variant = s.variant := rfl
@[simp] theorem State.setStore_pins (s : State) (x : Store) : (s.setStore x).pins = s.pins := rfl
@[simp] theorem State.setStore_links (s : State) (x : Store) : (s.setStore x).links = s.links := rfl
@[simp] theorem State.setStore_settings (s : State) (x : Store) : (s.setStore x).settings = s.settings := rfl
@[simp] theorem State.setStore_lcc (s : State) (x : Store) : (s.setStore x).lcc = s.lcc := rfl
@[simp] theorem State.setStore_chans (s : State) (x : Store) : (s.setStore x).chans = s.chans := rfl
@[simp] theorem State.setStore_store (s : State) (x : Store) : (s.setStore x).store = x := rfl
@[simp] theorem State.setStore_shadow (s : State) (x : Store) : (s.setStore x).shadow = s.shadow := rfl
@[simp] theorem State.setStore_slotMap (s : State) (x : Store) : (s.setStore x).slotMap = s.slotMap := rfl
@[simp] theorem State.setStore_drive (s : State) (x : Store) : (s.setStore x).drive = s.drive := rfl
@[simp] theorem State.setStore_weigh (s : State) (x : Store) : (s.setStore x).weigh = s.weigh := rfl
@[simp] theorem State.setStore_lock (s : State) (x : Store) : (s.setStore x).lock = s.lock := rfl
@[simp] theorem State.setStore_houses (s : State) (x : Store) : (s.setStore x).houses = s.houses := rfl
@[simp] theorem State.setStore_comps (s : State) (x : Store) : (s.setStore x).comps = s.comps := rfl
@[simp] theorem State.setStore_journal (s : State) (x : Store) : (s.setStore x).journal = s.journal := rfl
@[simp] theorem State.setStore_inter (s : State) (x : Store) : (s.setStore x).inter = s.inter := rfl
@[simp] theorem State.setStore_freeIx (s : State) (x : Store) : (s.setStore x).freeIx = s.freeIx := rfl

@[simp] theorem State.setShadow_pending (s : State) (x : Shadow) : (s.setShadow x).pending = s.pending := rfl
@[simp] theorem State.setShadow_variant (s : State) (x : Shadow) : (s.setShadow x).variant = s.variant := rfl
@[simp] theorem State.setShadow_pins (s : State) (x : Shadow) : (s.setShadow x).pins = s.pins := rfl
@[simp] theorem State.setShadow_links (s : State) (x : Shadow) : (s.setShadow x).links = s.links := rfl
@[simp] theorem State.setShadow_settings (s : State) (x : Shadow) : (s.setShadow x).settings = s.settings := rfl
@[simp] theorem State.setShadow_lcc (s : State) (x : Shadow) : (s.setShadow x).lcc = s.lcc := rfl
@[simp] theorem State.setShadow_chans (s : State) (x : Shadow) : (s.setShadow x).chans = s.chans := rfl
@[simp] theorem State.setShadow_store (s : State) (x : Shadow) : (s.setShadow x).store = s.store := rfl
@[simp] theorem State.setShadow_shadow (s : State) (x : Shadow) : (s.setShadow x).shadow = x := rfl
@[simp] theorem State.setShadow_slotMap (s : State) (x : Shadow) : (s.setShadow x).slotMap = s.slotMap := rfl
@[simp] theorem State.setShadow_drive (s : State) (x : Shadow) : (s.setShadow x).drive = s.drive := rfl
@[simp] theorem State.setShadow_weigh (s : State) (x : Shadow) : (s.setShadow x).weigh = s.weigh := rfl
@[simp] theorem State.setShadow_lock (s : State) (x : Shadow) : (s.setShadow x).lock = s.lock := rfl
@[simp] theorem State.setShadow_houses (s : State) (x : Shadow) : (s.setShadow x).houses = s.houses := rfl
@[simp] theorem State.setShadow_comps (s : State) (x : Shadow) : (s.setShadow x).comps = s.comps := rfl
@[simp] theorem State.setShadow_journal (s : State) (x : Shadow) : (s.setShadow x).journal = s.journal := rfl
@[simp] theorem State.setShadow_inter (s : State) (x : Shadow) : (s.setShadow x).inter = s.inter := rfl
@[simp] theorem State.setShadow_freeIx (s : State) (x : Shadow) : (s.setShadow x).freeIx = s.freeIx := rfl

@[simp] theorem State.setSlotMap_pending (s : State) (x : SlotSets) : (s.setSlotMap x).pending = s.pending := rfl
@[simp] theorem State.setSlotMap_variant (s : State) (x : SlotSets) : (s.setSlotMap x).variant = s.variant := rfl
@[simp] theorem State.setSlotMap_pins (s : State) (x : SlotSets) : (s.setSlotMap x).pins = s.pins := rfl
@[simp] theorem State.setSlotMap_links (s : State) (x : SlotSets) : (s.setSlotMap x).links = s.links := rfl
@[simp] theorem State.setSlotMap_settings (s : State) (x : SlotSets) : (s.setSlotMap x).settings = s.settings := rfl
@[simp] theorem State.setSlotMap_lcc (s : State) (x : SlotSets) : (s.setSlotMap x).lcc = s.lcc := rfl
@[simp] theorem State.setSlotMap_chans (s : State) (x : SlotSets) : (s.setSlotMap x).chans = s.chans := rfl
@[simp] theorem State.setSlotMap_store (s : State) (x : SlotSets) : (s.setSlotMap x).store = s.store := rfl
@[simp] theorem State.setSlotMap_shadow (s : State) (x : SlotSets) : (s.setSlotMap x).shadow = s.shadow := rfl
@[simp] theorem State.setSlotMap_slotMap (s : State) (x : SlotSets) : (s.setSlotMap x).slotMap = x := rfl
@[simp] theorem State.setSlotMap_drive (s : State) (x : SlotSets) : (s.setSlotMap x).drive = s.drive := rfl
@[simp] theorem State.setSlotMap_weigh (s : State) (x : SlotSets) : (s.setSlotMap x).weigh = s.weigh := rfl
@[simp] theorem State.setSlotMap_lock (s : State) (x : SlotSets) : (s.setSlotMap x).lock = s.lock := rfl
@[simp] theorem State.setSlotMap_houses (s : State) (x : SlotSets) : (s.setSlotMap x).houses = s.houses := rfl
@[simp] theorem State.setSlotMap_comps (s : State) (x : SlotSets) : (s.setSlotMap x).comps = s.comps := rfl
@[simp] theorem State.setSlotMap_journal (s : State) (x : SlotSets) : (s.setSlotMap x).journal = s.journal := rfl
@[simp] theorem State.setSlotMap_inter (s : State) (x : SlotSets) : (s.setSlotMap x).inter = s.inter := rfl
@[simp] theorem State.setSlotMap_freeIx (s : State) (x : SlotSets) : (s.setSlotMap x).freeIx = s.freeIx := rfl

@[simp] theorem State.setDrive_pending (s : State) (x : Drive) : (s.setDrive x).pending = s.pending := rfl
@[simp] theorem State.setDrive_variant (s : State) (x : Drive) : (s.setDrive x).variant = s.variant := rfl
@[simp] theorem State.setDrive_pins (s : State) (x : Drive) : (s.setDrive x).pins = s.pins := rfl
@[simp] theorem State.setDrive_links (s : State) (x : Drive) : (s.setDrive x).links = s.links := rfl
@[simp] theorem State.setDrive_settings (s : State) (x : Drive) : (s.setDrive x).settings = s.settings := rfl
@[simp] theorem State.setDrive_lcc (s : State) (x : Drive) : (s.setDrive x).lcc = s.lcc := rfl
@[simp] theorem State.setDrive_chans (s : State) (x : Drive) : (s.setDrive x).chans = s.chans := rfl
@[simp] theorem State.setDrive_store (s : State) (x : Drive) : (s.setDrive x).store = s.store := rfl
@[simp] theorem State.setDrive_shadow (s : State) (x : Drive) : (s.setDrive x).shadow = s.shadow := rfl
@[simp] theorem State.setDrive_slotMap (s : State) (x : Drive) : (s.setDrive x).slotMap = s.slotMap := rfl
@[simp] theorem State.setDrive_drive (s : State) (x : Drive) : (s.setDrive x).drive = x := rfl
@[simp] theorem State.setDrive_weigh (s : State) (x : Drive) : (s.setDrive x).weigh = s.weigh := rfl
@[simp] theorem State.setDrive_lock (s : State) (x : Drive) : (s.setDrive x).lock = s.lock := rfl
@[simp] theorem State.setDrive_houses (s : State) (x : Drive) : (s.setDrive x).houses = s.houses := rfl
@[simp] theorem State.setDrive_comps (s : State) (x : Drive) : (s.setDrive x).comps = s.comps := rfl
@[simp] theorem State.setDrive_journal (s : State) (x : Drive) : (s.setDrive x).journal = s.journal := rfl
@[simp] theorem State.setDrive_inter (s : State) (x : Drive) : (s.setDrive x).inter = s.inter := rfl
@[simp] theorem State.setDrive_freeIx (s : State) (x : Drive) : (s.setDrive x).freeIx = s.freeIx := rfl

@[simp] theorem State.setWeigh_pending (s : State) (x : Weigh) : (s.setWeigh x).pending = s.pending := rfl
@[simp] theorem State.setWeigh_variant (s : State) (x : Weigh) : (s.setWeigh x).variant = s.variant := rfl
@[simp] theorem State.setWeigh_pins (s : State) (x : Weigh) : (s.setWeigh x).pins = s.pins := rfl
@[simp] theorem State.setWeigh_links (s : State) (x : Weigh) : (s.setWeigh x).links = s.links := rfl
@[simp] theorem State.setWeigh_settings (s : State) (x : Weigh) : (s.setWeigh x).settings = s.settings := rfl
@[simp] theorem State.setWeigh_lcc (s : State) (x : Weigh) : (s.setWeigh x).lcc = s.lcc := rfl
@[simp] theorem State.setWeigh_chans (s : State) (x : Weigh) : (s.setWeigh x).chans = s.chans := rfl
@[simp] theorem State.setWeigh_store (s : State) (x : Weigh) : (s.setWeigh x).store = s.store := rfl
@[simp] theorem State.setWeigh_shadow (s : State) (x : Weigh) : (s.setWeigh x).shadow = s.shadow := rfl
@[simp] theorem State.setWeigh_slotMap (s : State) (x : Weigh) : (s.setWeigh x).slotMap = s.slotMap := rfl
@[simp] theorem State.setWeigh_drive (s : State) (x : Weigh) : (s.setWeigh x).drive = s.drive := rfl
@[simp] theorem State.setWeigh_weigh (s : State) (x : Weigh) : (s.setWeigh x).weigh = x := rfl
@[simp] theorem State.setWeigh_lock (s : State) (x : Weigh) : (s.setWeigh x).lock = s.lock := rfl
@[simp] theorem State.setWeigh_houses (s : State) (x : Weigh) : (s.setWeigh x).houses = s.houses := rfl
@[simp] theorem State.setWeigh_comps (s : State) (x : Weigh) : (s.setWeigh x).comps = s.comps := rfl
@[simp] theorem State.setWeigh_journal (s : State) (x : Weigh) : (s.setWeigh x).journal = s.journal := rfl
@[simp] theorem State.setWeigh_inter (s : State) (x : Weigh) : (s.setWeigh x).inter = s.inter := rfl
@[simp] theorem State.setWeigh_freeIx (s : State) (x : Weigh) : (s.setWeigh x).freeIx = s.freeIx := rfl

@[simp] theorem State.setLock_pending (s : State) (x : Lock) : (s.setLock x).pending = s.pending := rfl
@[simp] theorem State.setLock_variant (s : State) (x : Lock) : (s.setLock x).variant = s.variant := rfl
@[simp] theorem State.setLock_pins (s : State) (x : Lock) : (s.setLock x).pins = s.pins := rfl
@[simp] theorem State.setLock_links (s : State) (x : Lock) : (s.setLock x).links = s.links := rfl
@[simp] theorem State.setLock_settings (s : State) (x : Lock) : (s.setLock x).settings = s.settings := rfl
@[simp] theorem State.setLock_lcc (s : State) (x : Lock) : (s.setLock x).lcc = s.lcc := rfl
@[simp] theorem State.setLock_chans (s : State) (x : Lock) : (s.setLock x).chans = s.chans := rfl
@[simp] theorem State.setLock_store (s : State) (x : Lock) : (s.setLock x).store = s.store := rfl
@[simp] theorem State.setLock_shadow (s : State) (x : Lock) : (s.setLock x).shadow = s.shadow := rfl
@[simp] theorem State.setLock_slotMap (s : State) (x : Lock) : (s.setLock x).slotMap = s.slotMap := rfl
@[simp] theorem State.setLock_drive (s : State) (x : Lock) : (s.setLock x).drive = s.drive := rfl
@[simp] theorem State.setLock_weigh (s : State) (x : Lock) : (s.setLock x).weigh = s.weigh := rfl
@[simp] theorem State.setLock_lock (s : State) (x : Lock) : (s.setLock x).lock = x := rfl
@[simp] theorem State.setLock_houses (s : State) (x : Lock) : (s.setLock x).houses = s.houses := rfl
@[simp] theorem State.setLock_comps (s : State) (x : Lock) : (s.setLock x).comps = s.comps := rfl
@[simp] theorem State.setLock_journal (s : State) (x : Lock) : (s.setLock x).journal = s.journal := rfl
@[simp] theorem State.setLock_inter (s : State) (x : Lock) : (s.setLock x).inter = s.inter := rfl
@[simp] theorem State.setLock_freeIx (s : State) (x : Lock) : (s.setLock x).freeIx = s.freeIx := rfl

@[simp] theorem State.setHouses_pending (s : State) (x : Houses) : (s.setHouses x).pending = s.pending := rfl
@[simp] theorem State.setHouses_variant (s : State) (x : Houses) : (s.setHouses x).variant = s.variant := rfl
@[simp] theorem State.setHouses_pins (s : State) (x : Houses) : (s.setHouses x).pins = s.pins := rfl
@[simp] theorem State.setHouses_links (s : State) (x : Houses) : (s.setHouses x).links = s.links := rfl
@[simp] theorem State.setHouses_settings (s : State) (x : Houses) : (s.setHouses x).settings = s.settings := rfl
@[simp] theorem State.setHouses_lcc (s : State) (x : Houses) : (s.setHouses x).lcc = s.lcc := rfl
@[simp] theorem State.setHouses_chans (s : State) (x : Houses) : (s.setHouses x).chans = s.chans := rfl
@[simp] theorem State.setHouses_store (s : State) (x : Houses) : (s.setHouses x).store = s.store := rfl
@[simp] theorem State.setHouses_shadow (s : State) (x : Houses) : (s.setHouses x).shadow = s.shadow := rfl
@[simp] theorem State.setHouses_slotMap (s : State) (x : Houses) : (s.setHouses x).slotMap = s.slotMap := rfl
@[simp] theorem State.setHouses_drive (s : State) (x : Houses) : (s.setHouses x).drive = s.drive := rfl
@[simp] theorem State.setHouses_weigh (s : State) (x : Houses) : (s.setHouses x).weigh = s.weigh := rfl
@[simp] theorem State.setHouses_lock (s : State) (x : Houses) : (s.setHouses x).lock = s.lock := rfl
@[simp] theorem State.setHouses_houses (s : State) (x : Houses) : (s.setHouses x).houses = x := rfl
@[simp] theorem State.setHouses_comps (s : State) (x : Houses) : (s.setHouses x).comps = s.comps := rfl
@[simp] theorem State.setHouses_journal (s : State) (x : Houses) : (s.setHouses x).journal = s.journal := rfl
@[simp] theorem State.setHouses_inter (s : State) (x : Houses) : (s.setHouses x).inter = s.inter := rfl
@[simp] theorem State.setHouses_freeIx (s : State) (x : Houses) : (s.setHouses x).freeIx = s.freeIx := rfl

@[simp] theorem State.setComps_pending (s : State) (x : Two Comp) : (s.setComps x).pending = s.pending := rfl
@[simp] theorem State.setComps_variant (s : State) (x : Two Comp) : (s.setComps x).variant = s.variant := rfl
@[simp] theorem State.setComps_pins (s : State) (x : Two Comp) : (s.setComps x).pins = s.pins := rfl
@[simp] theorem State.setComps_links (s : State) (x : Two Comp) : (s.setComps x).links = s.links := rfl
@[simp] theorem State.setComps_settings (s : State) (x : Two Comp) : (s.setComps x).settings = s.settings := rfl
@[simp] theorem State.setComps_lcc (s : State) (x : Two Comp) : (s.setComps x).lcc = s.lcc := rfl
@[simp] theorem State.setComps_chans (s : State) (x : Two Comp) : (s.setComps x).chans = s.chans := rfl
@[simp] theorem State.setComps_store (s : State) (x : Two Comp) : (s.setComps x).store = s.store := rfl
@[simp] theorem State.setComps_shadow (s : State) (x : Two Comp) : (s.setComps x).shadow = s.shadow := rfl
@[simp] theorem State.setComps_slotMap (s : State) (x : Two Comp) : (s.setComps x).slotMap = s.slotMap := rfl
@[simp] theorem State.setComps_drive (s : State) (x : Two Comp) : (s.setComps x).drive = s.drive := rfl
@[simp] theorem State.setComps_weigh (s : State) (x : Two Comp) : (s.setComps x).weigh = s.weigh := rfl
@[simp] theorem State.setComps_lock (s : State) (x : Two Comp) : (s.setComps x).lock = s.lock := rfl
@[simp] theorem State.setComps_houses (s : State) (x : Two Comp) : (s.setComps x).houses = s.houses := rfl
@[simp] theorem State.setComps_comps (s : State) (x : Two Comp) : (s.setComps x).comps = x := rfl
@[simp] theorem State.setComps_journal (s : State) (x : Two Comp) : (s.setComps x).journal = s.journal := rfl
@[simp] theorem State.setComps_inter (s : State) (x : Two Comp) : (s.setComps x).inter = s.inter := rfl
@[simp] theorem State.setComps_freeIx (s : State) (x : Two Comp) : (s.setComps x).freeIx = s.freeIx := rfl

@[simp] theorem State.setJournal_pending (s : State) (x : Journal) : (s.setJournal x).pending = s.pending := rfl
@[simp] theorem State.setJournal_variant (s : State) (x : Journal) : (s.setJournal x).variant = s.variant := rfl
@[simp] theorem State.setJournal_pins (s : State) (x : Journal) : (s.setJournal x).pins = s.pins := rfl
@[simp] theorem State.setJournal_links (s : State) (x : Journal) : (s.setJournal x).links = s.links := rfl
@[simp] theorem State.setJournal_settings (s : State) (x : Journal) : (s.setJournal x).settings = s.settings := rfl
@[simp] theorem State.setJournal_lcc (s : State) (x : Journal) : (s.setJournal x).lcc = s.lcc := rfl
@[simp] theorem State.setJournal_chans (s : State) (x : Journal) : (s.setJournal x).chans = s.chans := rfl
@[simp] theorem State.setJournal_store (s : State) (x : Journal) : (s.setJournal x).store = s.store := rfl
@[simp] theorem State.setJournal_shadow (s : State) (x : Journal) : (s.setJournal x).shadow = s.shadow := rfl
@[simp] theorem State.setJournal_slotMap (s : State) (x : Journal) : (s.setJournal x).slotMap = s.slotMap := rfl
@[simp] theorem State.setJournal_drive (s : State) (x : Journal) : (s.setJournal x).drive = s.drive := rfl
@[simp] theorem State.setJournal_weigh (s : State) (x : Journal) : (s.setJournal x).weigh = s.weigh := rfl
@[simp] theorem State.setJournal_lock (s : State) (x : Journal) : (s.setJournal x).lock = s.lock := rfl
@[simp] theorem State.setJournal_houses (s : State) (x : Journal) : (s.setJournal x).houses = s.houses := rfl
@[simp] theorem State.setJournal_comps (s : State) (x : Journal) : (s.setJournal x).comps = s.comps := rfl
@[simp] theorem State.setJournal_journal (s : State) (x : Journal) : (s.setJournal x).journal = x := rfl
@[simp] theorem State.setJournal_inter (s : State) (x : Journal) : (s.setJournal x).inter = s.inter := rfl
@[simp] theorem State.setJournal_freeIx (s : State) (x : Journal) : (s.setJournal x).freeIx = s.freeIx := rfl

@[simp] theorem State.setInter_pending (s : State) (x : Interlocks) : (s.setInter x).pending = s.pending := rfl
@[simp] theorem State.setInter_variant (s : State) (x : Interlocks) : (s.setInter x).variant = s.variant := rfl
@[simp] theorem State.setInter_pins (s : State) (x : Interlocks) : (s.setInter x).pins = s.pins := rfl
@[simp] theorem State.setInter_links (s : State) (x : Interlocks) : (s.setInter x).links = s.links := rfl
@[simp] theorem State.setInter_settings (s : State) (x : Interlocks) : (s.setInter x).settings = s.settings := rfl
@[simp] theorem State.setInter_lcc (s : State) (x : Interlocks) : (s.setInter x).lcc = s.lcc := rfl
@[simp] theorem State.setInter_chans (s : State) (x : Interlocks) : (s.setInter x).chans = s.chans := rfl
@[simp] theorem State.setInter_store (s : State) (x : Interlocks) : (s.setInter x).store = s.store := rfl
@[simp] theorem State.setInter_shadow (s : State) (x : Interlocks) : (s.setInter x).shadow = s.shadow := rfl
@[simp] theorem State.setInter_slotMap (s : State) (x : Interlocks) : (s.setInter x).slotMap = s.slotMap := rfl
@[simp] theorem State.setInter_drive (s : State) (x : Interlocks) : (s.setInter x).drive = s.drive := rfl
@[simp] theorem State.setInter_weigh (s : State) (x : Interlocks) : (s.setInter x).weigh = s.weigh := rfl
@[simp] theorem State.setInter_lock (s : State) (x : Interlocks) : (s.setInter x).lock = s.lock := rfl
@[simp] theorem State.setInter_houses (s : State) (x : Interlocks) : (s.setInter x).houses = s.houses := rfl
@[simp] theorem State.setInter_comps (s : State) (x : Interlocks) : (s.setInter x).comps = s.comps := rfl
@[simp] theorem State.setInter_journal (s : State) (x : Interlocks) : (s.setInter x).journal = s.journal := rfl
@[simp] theorem State.setInter_inter (s : State) (x : Interlocks) : (s.setInter x).inter = x := rfl
@[simp] theorem State.setInter_freeIx (s : State) (x : Interlocks) : (s.setInter x).freeIx = s.freeIx := rfl

@[simp] theorem State.setFreeIx_pending (s : State) (x : Nat) : (s.setFreeIx x).pending = s.pending := rfl
@[simp] theorem State.setFreeIx_variant (s : State) (x : Nat) : (s.setFreeIx x).variant = s.variant := rfl
@[simp] theorem State.setFreeIx_pins (s : State) (x : Nat) : (s.setFreeIx x).pins = s.pins := rfl
@[simp] theorem State.setFreeIx_links (s : State) (x : Nat) : (s.setFreeIx x).links = s.links := rfl
@[simp] theorem State.setFreeIx_settings (s : State) (x : Nat) : (s.setFreeIx x).settings = s.settings := rfl
@[simp] theorem State.setFreeIx_lcc (s : State) (x : Nat) : (s.setFreeIx x).lcc = s.lcc := rfl
@[simp] theorem State.setFreeIx_chans (s : State) (x : Nat) : (s.setFreeIx x).chans = s.chans := rfl
@[simp] theorem State.setFreeIx_store (s : State) (x : Nat) : (s.setFreeIx x).store = s.store := rfl
@[simp] theorem State.setFreeIx_shadow (s : State) (x : Nat) : (s.setFreeIx x).shadow = s.shadow := rfl
@[simp] theorem State.setFreeIx_slotMap (s : State) (x : Nat) : (s.setFreeIx x).slotMap = s.slotMap := rfl
@[simp] theorem State.setFreeIx_drive (s : State) (x : Nat) : (s.setFreeIx x).drive = s.drive := rfl
@[simp] theorem State.setFreeIx_weigh (s : State) (x : Nat) : (s.setFreeIx x).weigh = s.weigh := rfl
@[simp] theorem State.setFreeIx_lock (s : State) (x : Nat) : (s.setFreeIx x).lock = s.lock := rfl
@[simp] theorem State.setFreeIx_houses (s : State) (x : Nat) : (s.setFreeIx x).houses = s.houses := rfl
@[simp] theorem State.setFreeIx_comps (s : State) (x : Nat) : (s.setFreeIx x).comps = s.comps := rfl
@[simp] theorem State.setFreeIx_journal (s : State) (x : Nat) : (s.setFreeIx x).journal = s.journal := rfl
@[simp] theorem State.setFreeIx_inter (s : State) (x : Nat) : (s.setFreeIx x).inter = s.inter := rfl
@[simp] theorem State.setFreeIx_freeIx (s : State) (x : Nat) : (s.setFreeIx x).freeIx = x := rfl

@[simp] theorem State.setChan_pending (s : State) (c : Channel) (r : Chan) : (s.setChan c r).pending = s.pending := rfl
@[simp] theorem State.setChan_variant (s : State) (c : Channel) (r : Chan) : (s.setChan c r).variant = s.variant := rfl
@[simp] theorem State.setChan_pins (s : State) (c : Channel) (r : Chan) : (s.setChan c r).pins = s.pins := rfl
@[simp] theorem State.setChan_links (s : State) (c : Channel) (r : Chan) : (s.setChan c r).links = s.links := rfl
@[simp] theorem State.setChan_settings (s : State) (c : Channel) (r : Chan) : (s.setChan c r).settings = s.settings := rfl
@[simp] theorem State.setChan_lcc (s : State) (c : Channel) (r : Chan) : (s.setChan c r).lcc = s.lcc := rfl
@[simp] theorem State.setChan_chans (s : State) (c : Channel) (r : Chan) : (s.setChan c r).chans = s.chans.put c r := rfl
@[simp] theorem State.setChan_store (s : State) (c : Channel) (r : Chan) : (s.setChan c r).store = s.store := rfl
@[simp] theorem State.setChan_shadow (s : State) (c : Channel) (r : Chan) : (s.setChan c r).shadow = s.shadow := rfl
@[simp] theorem State.setChan_slotMap (s : State) (c : Channel) (r : Chan) : (s.setChan c r).slotMap = s.slotMap := rfl
@[simp] theorem State.setChan_drive (s : State) (c : Channel) (r : Chan) : (s.setChan c r).drive = s.drive := rfl
@[simp] theorem State.setChan_weigh (s : State) (c : Channel) (r : Chan) : (s.setChan c r).weigh = s.weigh := rfl
@[simp] theorem State.setChan_lock (s : State) (c : Channel) (r : Chan) : (s.setChan c r).lock = s.lock := rfl
@[simp] theorem State.setChan_houses (s : State) (c : Channel) (r : Chan) : (s.setChan c r).houses = s.houses := rfl
@[simp] theorem State.setChan_comps (s : State) (c : Channel) (r : Chan) : (s.setChan c r).comps = s.comps := rfl
@[simp] theorem State.setChan_journal (s : State) (c : Channel) (r : Chan) : (s.setChan c r).journal = s.journal := rfl
@[simp] theorem State.setChan_inter (s : State) (c : Channel) (r : Chan) : (s.setChan c r).inter = s.inter := rfl
@[simp] theorem State.setChan_freeIx (s : State) (c : Channel) (r : Chan) : (s.setChan c r).freeIx = s.freeIx := rfl

@[simp] theorem State.setComp_pending (s : State) (c : Compartment) (r : Comp) : (s.setComp c r).pending = s.pending := rfl
@[simp] theorem State.setComp_variant (s : State) (c : Compartment) (r : Comp) : (s.setComp c r).variant = s.variant := rfl
@[simp] theorem State.setComp_pins (s : State) (c : Compartment) (r : Comp) : (s.setComp c r).pins = s.pins := rfl
@[simp] theorem State.setComp_links (s : State) (c : Compartment) (r : Comp) : (s.setComp c r).links = s.links := rfl
@[simp] theorem State.setComp_settings (s : State) (c : Compartment) (r : Comp) : (s.setComp c r).settings = s.settings := rfl
@[simp] theorem State.setComp_lcc (s : State) (c : Compartment) (r : Comp) : (s.setComp c r).lcc = s.lcc := rfl
@[simp] theorem State.setComp_chans (s : State) (c : Compartment) (r : Comp) : (s.setComp c r).chans = s.chans := rfl
@[simp] theorem State.setComp_store (s : State) (c : Compartment) (r : Comp) : (s.setComp c r).store = s.store := rfl
@[simp] theorem State.setComp_shadow (s : State) (c : Compartment) (r : Comp) : (s.setComp c r).shadow = s.shadow := rfl
@[simp] theorem State.setComp_slotMap (s : State) (c : Compartment) (r : Comp) : (s.setComp c r).slotMap = s.slotMap := rfl
@[simp] theorem State.setComp_drive (s : State) (c : Compartment) (r : Comp) : (s.setComp c r).drive = s.drive := rfl
@[simp] theorem State.setComp_weigh (s : State) (c : Compartment) (r : Comp) : (s.setComp c r).weigh = s.weigh := rfl
@[simp] theorem State.setComp_lock (s : State) (c : Compartment) (r : Comp) : (s.setComp c r).lock = s.lock := rfl
@[simp] theorem State.setComp_houses (s : State) (c : Compartment) (r : Comp) : (s.setComp c r).houses = s.houses := rfl
@[simp] theorem State.setComp_comps (s : State) (c : Compartment) (r : Comp) : (s.setComp c r).comps = s.comps.putComp c r := rfl
@[simp] theorem State.setComp_journal (s : State) (c : Compartment) (r : Comp) : (s.setComp c r).journal = s.journal := rfl
@[simp] theorem State.setComp_inter (s : State) (c : Compartment) (r : Comp) : (s.setComp c r).inter = s.inter := rfl
@[simp] theorem State.setComp_freeIx (s : State) (c : Compartment) (r : Comp) : (s.setComp c r).freeIx = s.freeIx := rfl

@[simp] theorem State.mapCtx_pending (s : State) (f : LiftCtx → LiftCtx) : (s.mapCtx f).pending = s.pending := rfl
@[simp] theorem State.mapCtx_variant (s : State) (f : LiftCtx → LiftCtx) : (s.mapCtx f).variant = s.variant := rfl
@[simp] theorem State.mapCtx_pins (s : State) (f : LiftCtx → LiftCtx) : (s.mapCtx f).pins = s.pins := rfl
@[simp] theorem State.mapCtx_links (s : State) (f : LiftCtx → LiftCtx) : (s.mapCtx f).links = s.links := rfl
@[simp] theorem State.mapCtx_settings (s : State) (f : LiftCtx → LiftCtx) : (s.mapCtx f).settings = s.settings := rfl
@[simp] theorem State.mapCtx_lcc (s : State) (f : LiftCtx → LiftCtx) : (s.mapCtx f).lcc = { s.lcc with ctx := s.lcc.ctx.map f } := rfl
@[simp] theorem State.mapCtx_chans (s : State) (f : LiftCtx → LiftCtx) : (s.mapCtx f).chans = s.chans := rfl
@[simp] theorem State.mapCtx_store (s : State) (f : LiftCtx → LiftCtx) : (s.mapCtx f).store = s.store := rfl
@[simp] theorem State.mapCtx_shadow (s : State) (f : LiftCtx → LiftCtx) : (s.mapCtx f).shadow = s.shadow := rfl
@[simp] theorem State.mapCtx_slotMap (s : State) (f : LiftCtx → LiftCtx) : (s.mapCtx f).slotMap = s.slotMap := rfl
@[simp] theorem State.mapCtx_drive (s : State) (f : LiftCtx → LiftCtx) : (s.mapCtx f).drive = s.drive := rfl
@[simp] theorem State.mapCtx_weigh (s : State) (f : LiftCtx → LiftCtx) : (s.mapCtx f).weigh = s.weigh := rfl
@[simp] theorem State.mapCtx_lock (s : State) (f : LiftCtx → LiftCtx) : (s.mapCtx f).lock = s.lock := rfl
@[simp] theorem State.mapCtx_houses (s : State) (f : LiftCtx → LiftCtx) : (s.mapCtx f).houses = s.houses := rfl
@[simp] theorem State.mapCtx_comps (s : State) (f : LiftCtx → LiftCtx) : (s.mapCtx f).comps = s.comps := rfl
@[simp] theorem State.mapCtx_journal (s : State) (f : LiftCtx → LiftCtx) : (s.mapCtx f).journal = s.journal := rfl
@[simp] theorem State.mapCtx_inter (s : State) (f : LiftCtx → LiftCtx) : (s.mapCtx f).inter = s.inter := rfl
@[simp] theorem State.mapCtx_freeIx (s : State) (f : LiftCtx → LiftCtx) : (s.mapCtx f).freeIx = s.freeIx := rfl

@[simp] theorem Six.get_put_same {α : Type} (x : Six α) (c : Channel) (v : α) : (x.put c v).get c = v := by
  cases c <;> rfl

theorem Six.get_put_other {α : Type} (x : Six α) (c d : Channel) (v : α) (h : d ≠ c) : (x.put c v).get d = x.get d := by
  cases c <;> cases d <;> first | rfl | exact absurd rfl h

@[simp] theorem Six.get_make {α : Type} (f : Channel → α) (c : Channel) : (Six.make f).get c = f c := by
  cases c <;> rfl

@[simp] theorem Two.comp_putComp_same {α : Type} (x : Two α) (c : Compartment) (v : α) : (x.putComp c v).comp c = v := by
  cases c <;> rfl

theorem Two.comp_putComp_other {α : Type} (x : Two α) (c d : Compartment) (v : α) (h : d ≠ c) :
    (x.putComp c v).comp d = x.comp d := by
  cases c <;> cases d <;> first | rfl | exact absurd rfl h

@[simp] theorem Two.side_putSide_same {α : Type} (x : Two α) (c : Side) (v : α) : (x.putSide c v).side c = v := by
  cases c <;> rfl

theorem Two.side_putSide_other {α : Type} (x : Two α) (c d : Side) (v : α) (h : d ≠ c) :
    (x.putSide c v).side d = x.side d := by
  cases c <;> cases d <;> first | rfl | exact absurd rfl h

end Sys2Proof.Machine
end

