-- ==== Sys2Proof/Laws/Frames.lean ====
section
/-! SUPPORT. The frame of each shared operation: the blocks of the state that it leaves as they were. -/

namespace Sys2Proof.Machine

/-! ## The Link Ports -/

@[simp] theorem State.setPort_frame (s : State) (p : Port) (x : PortState) :
    (s.setPort p x).pending = s.pending ∧ (s.setPort p x).variant = s.variant ∧ (s.setPort p x).pins = s.pins
     ∧ (s.setPort p x).settings = s.settings ∧ (s.setPort p x).lcc = s.lcc ∧ (s.setPort p x).chans = s.chans
     ∧ (s.setPort p x).store = s.store ∧ (s.setPort p x).shadow = s.shadow ∧ (s.setPort p x).slotMap = s.slotMap
     ∧ (s.setPort p x).drive = s.drive ∧ (s.setPort p x).weigh = s.weigh ∧ (s.setPort p x).lock = s.lock
     ∧ (s.setPort p x).houses = s.houses ∧ (s.setPort p x).comps = s.comps ∧ (s.setPort p x).journal = s.journal
     ∧ (s.setPort p x).inter = s.inter ∧ (s.setPort p x).freeIx = s.freeIx := by
  cases p <;> simp [State.setPort]

@[simp] theorem State.answer_frame (s : State) (h : Header) (k : Byte) (c : Code) (d : AnswerData) :
    (s.answer h k c d).pending = s.pending ∧ (s.answer h k c d).variant = s.variant ∧ (s.answer h k c d).pins = s.pins
     ∧ (s.answer h k c d).settings = s.settings ∧ (s.answer h k c d).lcc = s.lcc ∧ (s.answer h k c d).chans = s.chans
     ∧ (s.answer h k c d).store = s.store ∧ (s.answer h k c d).shadow = s.shadow
     ∧ (s.answer h k c d).slotMap = s.slotMap ∧ (s.answer h k c d).drive = s.drive
     ∧ (s.answer h k c d).weigh = s.weigh ∧ (s.answer h k c d).lock = s.lock ∧ (s.answer h k c d).houses = s.houses
     ∧ (s.answer h k c d).comps = s.comps ∧ (s.answer h k c d).journal = s.journal
     ∧ (s.answer h k c d).inter = s.inter := by
  simp only [State.answer]
  (repeat' split) <;> simp

@[simp] theorem State.indicate_frame (s : State) (i : Indication) :
    (s.indicate i).pending = s.pending ∧ (s.indicate i).variant = s.variant ∧ (s.indicate i).pins = s.pins
     ∧ (s.indicate i).settings = s.settings ∧ (s.indicate i).lcc = s.lcc ∧ (s.indicate i).chans = s.chans
     ∧ (s.indicate i).store = s.store ∧ (s.indicate i).shadow = s.shadow ∧ (s.indicate i).slotMap = s.slotMap
     ∧ (s.indicate i).drive = s.drive ∧ (s.indicate i).weigh = s.weigh ∧ (s.indicate i).lock = s.lock
     ∧ (s.indicate i).houses = s.houses ∧ (s.indicate i).comps = s.comps ∧ (s.indicate i).journal = s.journal
     ∧ (s.indicate i).inter = s.inter ∧ (s.indicate i).freeIx = s.freeIx := by
  simp only [State.indicate]
  (repeat' split) <;> simp

@[simp] theorem State.alert_frame (s : State) (a : Alert) :
    (s.alert a).pending = s.pending ∧ (s.alert a).variant = s.variant ∧ (s.alert a).pins = s.pins
     ∧ (s.alert a).settings = s.settings ∧ (s.alert a).lcc = s.lcc ∧ (s.alert a).chans = s.chans
     ∧ (s.alert a).store = s.store ∧ (s.alert a).shadow = s.shadow ∧ (s.alert a).slotMap = s.slotMap
     ∧ (s.alert a).drive = s.drive ∧ (s.alert a).weigh = s.weigh ∧ (s.alert a).lock = s.lock
     ∧ (s.alert a).houses = s.houses ∧ (s.alert a).comps = s.comps ∧ (s.alert a).journal = s.journal
     ∧ (s.alert a).inter = s.inter ∧ (s.alert a).freeIx = s.freeIx := by
  simp [State.alert]

@[simp] theorem State.sendPayload_frame (s : State) (m : PayloadMsg) :
    (s.sendPayload m).pending = s.pending ∧ (s.sendPayload m).variant = s.variant ∧ (s.sendPayload m).pins = s.pins
     ∧ (s.sendPayload m).settings = s.settings ∧ (s.sendPayload m).lcc = s.lcc ∧ (s.sendPayload m).chans = s.chans
     ∧ (s.sendPayload m).store = s.store ∧ (s.sendPayload m).shadow = s.shadow ∧ (s.sendPayload m).slotMap = s.slotMap
     ∧ (s.sendPayload m).drive = s.drive ∧ (s.sendPayload m).weigh = s.weigh ∧ (s.sendPayload m).lock = s.lock
     ∧ (s.sendPayload m).houses = s.houses ∧ (s.sendPayload m).comps = s.comps ∧ (s.sendPayload m).journal = s.journal
     ∧ (s.sendPayload m).inter = s.inter ∧ (s.sendPayload m).freeIx = s.freeIx := by
  simp only [State.sendPayload]
  (repeat' split) <;> simp

@[simp] theorem State.refuse_frame (s : State) (h : Header) (r : Request) (c : Code) :
    (s.refuse h r c).pending = s.pending ∧ (s.refuse h r c).variant = s.variant ∧ (s.refuse h r c).pins = s.pins
     ∧ (s.refuse h r c).settings = s.settings ∧ (s.refuse h r c).lcc = s.lcc ∧ (s.refuse h r c).chans = s.chans
     ∧ (s.refuse h r c).store = s.store ∧ (s.refuse h r c).shadow = s.shadow ∧ (s.refuse h r c).slotMap = s.slotMap
     ∧ (s.refuse h r c).drive = s.drive ∧ (s.refuse h r c).weigh = s.weigh ∧ (s.refuse h r c).lock = s.lock
     ∧ (s.refuse h r c).houses = s.houses ∧ (s.refuse h r c).comps = s.comps ∧ (s.refuse h r c).journal = s.journal
     ∧ (s.refuse h r c).inter = s.inter := by
  simp only [State.refuse]
  (repeat' split) <;> simp

@[simp] theorem State.defer_frame (s : State) (h : Header) (k : Byte) :
    (s.defer h k).pending = s.pending ∧ (s.defer h k).variant = s.variant ∧ (s.defer h k).pins = s.pins
     ∧ (s.defer h k).settings = s.settings ∧ (s.defer h k).lcc = s.lcc ∧ (s.defer h k).chans = s.chans
     ∧ (s.defer h k).store = s.store ∧ (s.defer h k).shadow = s.shadow ∧ (s.defer h k).slotMap = s.slotMap
     ∧ (s.defer h k).drive = s.drive ∧ (s.defer h k).weigh = s.weigh ∧ (s.defer h k).lock = s.lock
     ∧ (s.defer h k).houses = s.houses ∧ (s.defer h k).comps = s.comps ∧ (s.defer h k).journal = s.journal
     ∧ (s.defer h k).inter = s.inter ∧ (s.defer h k).freeIx = s.freeIx := by
  simp [State.defer]

@[simp] theorem State.answerDeferred_frame (s : State) (p : Port) (k : Byte) (c : Code) (d : AnswerData) :
    (s.answerDeferred p k c d).pending = s.pending ∧ (s.answerDeferred p k c d).variant = s.variant
     ∧ (s.answerDeferred p k c d).pins = s.pins ∧ (s.answerDeferred p k c d).settings = s.settings
     ∧ (s.answerDeferred p k c d).lcc = s.lcc ∧ (s.answerDeferred p k c d).chans = s.chans
     ∧ (s.answerDeferred p k c d).store = s.store ∧ (s.answerDeferred p k c d).shadow = s.shadow
     ∧ (s.answerDeferred p k c d).slotMap = s.slotMap ∧ (s.answerDeferred p k c d).drive = s.drive
     ∧ (s.answerDeferred p k c d).weigh = s.weigh ∧ (s.answerDeferred p k c d).lock = s.lock
     ∧ (s.answerDeferred p k c d).houses = s.houses ∧ (s.answerDeferred p k c d).comps = s.comps
     ∧ (s.answerDeferred p k c d).journal = s.journal ∧ (s.answerDeferred p k c d).inter = s.inter := by
  simp only [State.answerDeferred]
  (repeat' split) <;> simp

@[simp] theorem State.arrive_frame (s : State) (h : Header) (r : Request) :
    (s.arrive h r).pending = s.pending ∧ (s.arrive h r).variant = s.variant ∧ (s.arrive h r).pins = s.pins
     ∧ (s.arrive h r).settings = s.settings ∧ (s.arrive h r).lcc = s.lcc ∧ (s.arrive h r).chans = s.chans
     ∧ (s.arrive h r).store = s.store ∧ (s.arrive h r).shadow = s.shadow ∧ (s.arrive h r).slotMap = s.slotMap
     ∧ (s.arrive h r).drive = s.drive ∧ (s.arrive h r).weigh = s.weigh ∧ (s.arrive h r).lock = s.lock
     ∧ (s.arrive h r).houses = s.houses ∧ (s.arrive h r).comps = s.comps ∧ (s.arrive h r).journal = s.journal
     ∧ (s.arrive h r).inter = s.inter := by
  simp only [State.arrive]
  (repeat' split) <;> simp

@[simp] theorem State.setPartial_frame (s : State) (l : Line) (x : List Byte) :
    (s.setPartial l x).pending = s.pending ∧ (s.setPartial l x).variant = s.variant ∧ (s.setPartial l x).pins = s.pins
     ∧ (s.setPartial l x).settings = s.settings ∧ (s.setPartial l x).lcc = s.lcc ∧ (s.setPartial l x).chans = s.chans
     ∧ (s.setPartial l x).store = s.store ∧ (s.setPartial l x).shadow = s.shadow
     ∧ (s.setPartial l x).slotMap = s.slotMap ∧ (s.setPartial l x).drive = s.drive
     ∧ (s.setPartial l x).weigh = s.weigh ∧ (s.setPartial l x).lock = s.lock ∧ (s.setPartial l x).houses = s.houses
     ∧ (s.setPartial l x).comps = s.comps ∧ (s.setPartial l x).journal = s.journal
     ∧ (s.setPartial l x).inter = s.inter ∧ (s.setPartial l x).freeIx = s.freeIx := by
  cases l <;> simp [State.setPartial]

@[simp] theorem State.sendPhase_frame (s : State) :
    (s.sendPhase).pending = s.pending ∧ (s.sendPhase).variant = s.variant ∧ (s.sendPhase).pins = s.pins
     ∧ (s.sendPhase).settings = s.settings ∧ (s.sendPhase).lcc = s.lcc ∧ (s.sendPhase).chans = s.chans
     ∧ (s.sendPhase).store = s.store ∧ (s.sendPhase).shadow = s.shadow ∧ (s.sendPhase).slotMap = s.slotMap
     ∧ (s.sendPhase).drive = s.drive ∧ (s.sendPhase).weigh = s.weigh ∧ (s.sendPhase).lock = s.lock
     ∧ (s.sendPhase).houses = s.houses ∧ (s.sendPhase).comps = s.comps ∧ (s.sendPhase).journal = s.journal
     ∧ (s.sendPhase).inter = s.inter ∧ (s.sendPhase).freeIx = s.freeIx := by
  simp [State.sendPhase]

@[simp] theorem State.messageSent_frame (s : State) (p : Port) :
    (s.messageSent p).pending = s.pending ∧ (s.messageSent p).variant = s.variant ∧ (s.messageSent p).pins = s.pins
     ∧ (s.messageSent p).settings = s.settings ∧ (s.messageSent p).lcc = s.lcc ∧ (s.messageSent p).chans = s.chans
     ∧ (s.messageSent p).store = s.store ∧ (s.messageSent p).shadow = s.shadow ∧ (s.messageSent p).slotMap = s.slotMap
     ∧ (s.messageSent p).drive = s.drive ∧ (s.messageSent p).weigh = s.weigh ∧ (s.messageSent p).lock = s.lock
     ∧ (s.messageSent p).houses = s.houses ∧ (s.messageSent p).comps = s.comps ∧ (s.messageSent p).journal = s.journal
     ∧ (s.messageSent p).inter = s.inter := by
  simp only [State.messageSent]
  (repeat' split) <;> simp

@[simp] theorem State.linkReset_frame (s : State) (p : Port) :
    (s.linkReset p).pending = s.pending ∧ (s.linkReset p).variant = s.variant ∧ (s.linkReset p).pins = s.pins
     ∧ (s.linkReset p).settings = s.settings ∧ (s.linkReset p).lcc = s.lcc ∧ (s.linkReset p).chans = s.chans
     ∧ (s.linkReset p).store = s.store ∧ (s.linkReset p).shadow = s.shadow ∧ (s.linkReset p).slotMap = s.slotMap
     ∧ (s.linkReset p).drive = s.drive ∧ (s.linkReset p).weigh = s.weigh ∧ (s.linkReset p).lock = s.lock
     ∧ (s.linkReset p).houses = s.houses ∧ (s.linkReset p).comps = s.comps ∧ (s.linkReset p).journal = s.journal
     ∧ (s.linkReset p).inter = s.inter ∧ (s.linkReset p).freeIx = s.freeIx := by
  cases p <;> simp [State.linkReset]

/-! ## The Valve Drive -/

@[simp] theorem State.refresh_frame (s : State) :
    (s.refresh).pending = s.pending ∧ (s.refresh).variant = s.variant ∧ (s.refresh).pins = s.pins
     ∧ (s.refresh).links = s.links ∧ (s.refresh).settings = s.settings ∧ (s.refresh).lcc = s.lcc
     ∧ (s.refresh).chans = s.chans ∧ (s.refresh).store = s.store ∧ (s.refresh).shadow = s.shadow
     ∧ (s.refresh).slotMap = s.slotMap ∧ (s.refresh).weigh = s.weigh ∧ (s.refresh).lock = s.lock
     ∧ (s.refresh).houses = s.houses ∧ (s.refresh).comps = s.comps ∧ (s.refresh).journal = s.journal
     ∧ (s.refresh).inter = s.inter ∧ (s.refresh).freeIx = s.freeIx := by
  simp [State.refresh]

@[simp] theorem State.recomputeQa_frame (s : State) :
    (s.recomputeQa).pending = s.pending ∧ (s.recomputeQa).variant = s.variant ∧ (s.recomputeQa).pins = s.pins
     ∧ (s.recomputeQa).links = s.links ∧ (s.recomputeQa).settings = s.settings ∧ (s.recomputeQa).lcc = s.lcc
     ∧ (s.recomputeQa).chans = s.chans ∧ (s.recomputeQa).store = s.store ∧ (s.recomputeQa).shadow = s.shadow
     ∧ (s.recomputeQa).slotMap = s.slotMap ∧ (s.recomputeQa).weigh = s.weigh ∧ (s.recomputeQa).lock = s.lock
     ∧ (s.recomputeQa).houses = s.houses ∧ (s.recomputeQa).comps = s.comps ∧ (s.recomputeQa).journal = s.journal
     ∧ (s.recomputeQa).inter = s.inter ∧ (s.recomputeQa).freeIx = s.freeIx := by
  simp [State.recomputeQa]

@[simp] theorem State.stopTimers_frame (s : State) (m : Option Words) :
    (s.stopTimers m).pending = s.pending ∧ (s.stopTimers m).variant = s.variant ∧ (s.stopTimers m).pins = s.pins
     ∧ (s.stopTimers m).links = s.links ∧ (s.stopTimers m).settings = s.settings ∧ (s.stopTimers m).lcc = s.lcc
     ∧ (s.stopTimers m).chans = s.chans ∧ (s.stopTimers m).store = s.store ∧ (s.stopTimers m).shadow = s.shadow
     ∧ (s.stopTimers m).slotMap = s.slotMap ∧ (s.stopTimers m).weigh = s.weigh ∧ (s.stopTimers m).lock = s.lock
     ∧ (s.stopTimers m).houses = s.houses ∧ (s.stopTimers m).comps = s.comps ∧ (s.stopTimers m).journal = s.journal
     ∧ (s.stopTimers m).inter = s.inter ∧ (s.stopTimers m).freeIx = s.freeIx := by
  simp [State.stopTimers]

@[simp] theorem State.setCoil_frame (s : State) (c : Channel) (d : Side) (x : Coil) :
    (s.setCoil c d x).pending = s.pending ∧ (s.setCoil c d x).variant = s.variant ∧ (s.setCoil c d x).pins = s.pins
     ∧ (s.setCoil c d x).links = s.links ∧ (s.setCoil c d x).settings = s.settings ∧ (s.setCoil c d x).lcc = s.lcc
     ∧ (s.setCoil c d x).chans = s.chans ∧ (s.setCoil c d x).store = s.store ∧ (s.setCoil c d x).shadow = s.shadow
     ∧ (s.setCoil c d x).slotMap = s.slotMap ∧ (s.setCoil c d x).weigh = s.weigh ∧ (s.setCoil c d x).lock = s.lock
     ∧ (s.setCoil c d x).houses = s.houses ∧ (s.setCoil c d x).comps = s.comps ∧ (s.setCoil c d x).journal = s.journal
     ∧ (s.setCoil c d x).inter = s.inter ∧ (s.setCoil c d x).freeIx = s.freeIx := by
  simp [State.setCoil]

@[simp] theorem State.setLatch_frame (s : State) (c : Channel) (l : Latch) :
    (s.setLatch c l).pending = s.pending ∧ (s.setLatch c l).variant = s.variant ∧ (s.setLatch c l).pins = s.pins
     ∧ (s.setLatch c l).links = s.links ∧ (s.setLatch c l).settings = s.settings ∧ (s.setLatch c l).lcc = s.lcc
     ∧ (s.setLatch c l).chans = s.chans ∧ (s.setLatch c l).store = s.store ∧ (s.setLatch c l).shadow = s.shadow
     ∧ (s.setLatch c l).slotMap = s.slotMap ∧ (s.setLatch c l).weigh = s.weigh ∧ (s.setLatch c l).lock = s.lock
     ∧ (s.setLatch c l).houses = s.houses ∧ (s.setLatch c l).comps = s.comps ∧ (s.setLatch c l).journal = s.journal
     ∧ (s.setLatch c l).inter = s.inter ∧ (s.setLatch c l).freeIx = s.freeIx := by
  simp [State.setLatch]

@[simp] theorem State.clearLatch_frame (s : State) (c : Channel) :
    (s.clearLatch c).pending = s.pending ∧ (s.clearLatch c).variant = s.variant ∧ (s.clearLatch c).pins = s.pins
     ∧ (s.clearLatch c).links = s.links ∧ (s.clearLatch c).settings = s.settings ∧ (s.clearLatch c).lcc = s.lcc
     ∧ (s.clearLatch c).chans = s.chans ∧ (s.clearLatch c).store = s.store ∧ (s.clearLatch c).shadow = s.shadow
     ∧ (s.clearLatch c).slotMap = s.slotMap ∧ (s.clearLatch c).weigh = s.weigh ∧ (s.clearLatch c).lock = s.lock
     ∧ (s.clearLatch c).houses = s.houses ∧ (s.clearLatch c).comps = s.comps ∧ (s.clearLatch c).journal = s.journal
     ∧ (s.clearLatch c).inter = s.inter ∧ (s.clearLatch c).freeIx = s.freeIx := by
  simp [State.clearLatch]

/-! ## The Interlocks -/

@[simp] theorem State.emitPayload_frame (s : State) :
    (s.emitPayload).pending = s.pending ∧ (s.emitPayload).variant = s.variant ∧ (s.emitPayload).pins = s.pins
     ∧ (s.emitPayload).settings = s.settings ∧ (s.emitPayload).lcc = s.lcc ∧ (s.emitPayload).chans = s.chans
     ∧ (s.emitPayload).store = s.store ∧ (s.emitPayload).shadow = s.shadow ∧ (s.emitPayload).slotMap = s.slotMap
     ∧ (s.emitPayload).drive = s.drive ∧ (s.emitPayload).weigh = s.weigh ∧ (s.emitPayload).lock = s.lock
     ∧ (s.emitPayload).houses = s.houses ∧ (s.emitPayload).comps = s.comps ∧ (s.emitPayload).journal = s.journal
     ∧ (s.emitPayload).freeIx = s.freeIx := by
  simp [State.emitPayload]

@[simp] theorem State.raiseAlarm_frame (s : State) :
    (s.raiseAlarm).pending = s.pending ∧ (s.raiseAlarm).variant = s.variant ∧ (s.raiseAlarm).pins = s.pins
     ∧ (s.raiseAlarm).settings = s.settings ∧ (s.raiseAlarm).lcc = s.lcc ∧ (s.raiseAlarm).chans = s.chans
     ∧ (s.raiseAlarm).store = s.store ∧ (s.raiseAlarm).shadow = s.shadow ∧ (s.raiseAlarm).slotMap = s.slotMap
     ∧ (s.raiseAlarm).drive = s.drive ∧ (s.raiseAlarm).weigh = s.weigh ∧ (s.raiseAlarm).lock = s.lock
     ∧ (s.raiseAlarm).houses = s.houses ∧ (s.raiseAlarm).comps = s.comps ∧ (s.raiseAlarm).journal = s.journal
     ∧ (s.raiseAlarm).freeIx = s.freeIx := by
  simp only [State.raiseAlarm]
  (repeat' split) <;> simp

@[simp] theorem State.testSnapshot_frame (s : State) :
    (s.testSnapshot).pending = s.pending ∧ (s.testSnapshot).variant = s.variant ∧ (s.testSnapshot).pins = s.pins
     ∧ (s.testSnapshot).settings = s.settings ∧ (s.testSnapshot).lcc = s.lcc ∧ (s.testSnapshot).chans = s.chans
     ∧ (s.testSnapshot).store = s.store ∧ (s.testSnapshot).shadow = s.shadow ∧ (s.testSnapshot).slotMap = s.slotMap
     ∧ (s.testSnapshot).drive = s.drive ∧ (s.testSnapshot).weigh = s.weigh ∧ (s.testSnapshot).lock = s.lock
     ∧ (s.testSnapshot).houses = s.houses ∧ (s.testSnapshot).comps = s.comps ∧ (s.testSnapshot).journal = s.journal
     ∧ (s.testSnapshot).freeIx = s.freeIx := by
  simp only [State.testSnapshot]
  (repeat' split) <;> simp

@[simp] theorem State.clearSnapshot_frame (s : State) :
    (s.clearSnapshot).pending = s.pending ∧ (s.clearSnapshot).variant = s.variant ∧ (s.clearSnapshot).pins = s.pins
     ∧ (s.clearSnapshot).settings = s.settings ∧ (s.clearSnapshot).lcc = s.lcc ∧ (s.clearSnapshot).chans = s.chans
     ∧ (s.clearSnapshot).store = s.store ∧ (s.clearSnapshot).shadow = s.shadow ∧ (s.clearSnapshot).slotMap = s.slotMap
     ∧ (s.clearSnapshot).drive = s.drive ∧ (s.clearSnapshot).weigh = s.weigh ∧ (s.clearSnapshot).lock = s.lock
     ∧ (s.clearSnapshot).houses = s.houses ∧ (s.clearSnapshot).comps = s.comps ∧ (s.clearSnapshot).journal = s.journal
     ∧ (s.clearSnapshot).freeIx = s.freeIx := by
  simp only [State.clearSnapshot]
  (repeat' split) <;> simp

/-! ## The Lift Journal -/

@[simp] theorem State.testLow_frame (s : State) :
    (s.testLow).pending = s.pending ∧ (s.testLow).variant = s.variant ∧ (s.testLow).pins = s.pins
     ∧ (s.testLow).settings = s.settings ∧ (s.testLow).lcc = s.lcc ∧ (s.testLow).chans = s.chans
     ∧ (s.testLow).store = s.store ∧ (s.testLow).shadow = s.shadow ∧ (s.testLow).slotMap = s.slotMap
     ∧ (s.testLow).drive = s.drive ∧ (s.testLow).weigh = s.weigh ∧ (s.testLow).lock = s.lock
     ∧ (s.testLow).houses = s.houses ∧ (s.testLow).comps = s.comps ∧ (s.testLow).inter = s.inter
     ∧ (s.testLow).freeIx = s.freeIx := by
  simp only [State.testLow]
  (repeat' split) <;> simp

@[simp] theorem State.grant_frame (s : State) :
    (s.grant).pending = s.pending ∧ (s.grant).variant = s.variant ∧ (s.grant).pins = s.pins
     ∧ (s.grant).settings = s.settings ∧ (s.grant).lcc = s.lcc ∧ (s.grant).chans = s.chans ∧ (s.grant).store = s.store
     ∧ (s.grant).shadow = s.shadow ∧ (s.grant).slotMap = s.slotMap ∧ (s.grant).drive = s.drive
     ∧ (s.grant).weigh = s.weigh ∧ (s.grant).lock = s.lock ∧ (s.grant).houses = s.houses ∧ (s.grant).comps = s.comps
     ∧ (s.grant).inter = s.inter ∧ (s.grant).freeIx = s.freeIx := by
  simp [State.grant]

@[simp] theorem State.returnReservation_frame (s : State) :
    (s.returnReservation).pending = s.pending ∧ (s.returnReservation).variant = s.variant
     ∧ (s.returnReservation).pins = s.pins ∧ (s.returnReservation).links = s.links
     ∧ (s.returnReservation).settings = s.settings ∧ (s.returnReservation).lcc = s.lcc
     ∧ (s.returnReservation).chans = s.chans ∧ (s.returnReservation).store = s.store
     ∧ (s.returnReservation).shadow = s.shadow ∧ (s.returnReservation).slotMap = s.slotMap
     ∧ (s.returnReservation).drive = s.drive ∧ (s.returnReservation).weigh = s.weigh
     ∧ (s.returnReservation).lock = s.lock ∧ (s.returnReservation).houses = s.houses
     ∧ (s.returnReservation).comps = s.comps ∧ (s.returnReservation).inter = s.inter
     ∧ (s.returnReservation).freeIx = s.freeIx := by
  simp [State.returnReservation]

@[simp] theorem State.stage_frame (s : State) (r : Record) :
    (s.stage r).pending = s.pending ∧ (s.stage r).variant = s.variant ∧ (s.stage r).pins = s.pins
     ∧ (s.stage r).settings = s.settings ∧ (s.stage r).lcc = s.lcc ∧ (s.stage r).chans = s.chans
     ∧ (s.stage r).store = s.store ∧ (s.stage r).shadow = s.shadow ∧ (s.stage r).slotMap = s.slotMap
     ∧ (s.stage r).drive = s.drive ∧ (s.stage r).weigh = s.weigh ∧ (s.stage r).lock = s.lock
     ∧ (s.stage r).houses = s.houses ∧ (s.stage r).comps = s.comps ∧ (s.stage r).inter = s.inter
     ∧ (s.stage r).freeIx = s.freeIx := by
  simp [State.stage]

/-! ## The Profile Player -/

@[simp] theorem State.mapChan_frame (s : State) (c : Channel) (f : Chan → Chan) :
    (s.mapChan c f).pending = s.pending ∧ (s.mapChan c f).variant = s.variant ∧ (s.mapChan c f).pins = s.pins
     ∧ (s.mapChan c f).links = s.links ∧ (s.mapChan c f).settings = s.settings ∧ (s.mapChan c f).lcc = s.lcc
     ∧ (s.mapChan c f).store = s.store ∧ (s.mapChan c f).shadow = s.shadow ∧ (s.mapChan c f).slotMap = s.slotMap
     ∧ (s.mapChan c f).drive = s.drive ∧ (s.mapChan c f).weigh = s.weigh ∧ (s.mapChan c f).lock = s.lock
     ∧ (s.mapChan c f).houses = s.houses ∧ (s.mapChan c f).comps = s.comps ∧ (s.mapChan c f).journal = s.journal
     ∧ (s.mapChan c f).inter = s.inter ∧ (s.mapChan c f).freeIx = s.freeIx := by
  simp [State.mapChan]

@[simp] theorem State.mapChans_frame (s : State) (l : List Channel) (f : Chan → Chan) :
    (s.mapChans l f).pending = s.pending ∧ (s.mapChans l f).variant = s.variant ∧ (s.mapChans l f).pins = s.pins
     ∧ (s.mapChans l f).links = s.links ∧ (s.mapChans l f).settings = s.settings ∧ (s.mapChans l f).lcc = s.lcc
     ∧ (s.mapChans l f).store = s.store ∧ (s.mapChans l f).shadow = s.shadow ∧ (s.mapChans l f).slotMap = s.slotMap
     ∧ (s.mapChans l f).drive = s.drive ∧ (s.mapChans l f).weigh = s.weigh ∧ (s.mapChans l f).lock = s.lock
     ∧ (s.mapChans l f).houses = s.houses ∧ (s.mapChans l f).comps = s.comps ∧ (s.mapChans l f).journal = s.journal
     ∧ (s.mapChans l f).inter = s.inter ∧ (s.mapChans l f).freeIx = s.freeIx := by
  unfold State.mapChans
  induction l generalizing s with
  | nil => simp
  | cons c r ih => simp [ih]

@[simp] theorem State.startChan_frame (s : State) (c : Channel) (o : Origin) (a e : Nat) :
    (s.startChan c o a e).pending = s.pending ∧ (s.startChan c o a e).variant = s.variant
     ∧ (s.startChan c o a e).pins = s.pins ∧ (s.startChan c o a e).links = s.links
     ∧ (s.startChan c o a e).settings = s.settings ∧ (s.startChan c o a e).lcc = s.lcc
     ∧ (s.startChan c o a e).store = s.store ∧ (s.startChan c o a e).shadow = s.shadow
     ∧ (s.startChan c o a e).slotMap = s.slotMap ∧ (s.startChan c o a e).drive = s.drive
     ∧ (s.startChan c o a e).weigh = s.weigh ∧ (s.startChan c o a e).lock = s.lock
     ∧ (s.startChan c o a e).houses = s.houses ∧ (s.startChan c o a e).comps = s.comps
     ∧ (s.startChan c o a e).journal = s.journal ∧ (s.startChan c o a e).inter = s.inter
     ∧ (s.startChan c o a e).freeIx = s.freeIx := by
  simp only [State.startChan]
  (repeat' split) <;> simp

@[simp] theorem State.mapPackers_frame (s : State) (w : Origin → Bool) (f : Chan → Chan) :
    (s.mapPackers w f).pending = s.pending ∧ (s.mapPackers w f).variant = s.variant ∧ (s.mapPackers w f).pins = s.pins
     ∧ (s.mapPackers w f).links = s.links ∧ (s.mapPackers w f).settings = s.settings ∧ (s.mapPackers w f).lcc = s.lcc
     ∧ (s.mapPackers w f).store = s.store ∧ (s.mapPackers w f).shadow = s.shadow
     ∧ (s.mapPackers w f).slotMap = s.slotMap ∧ (s.mapPackers w f).drive = s.drive
     ∧ (s.mapPackers w f).weigh = s.weigh ∧ (s.mapPackers w f).lock = s.lock ∧ (s.mapPackers w f).houses = s.houses
     ∧ (s.mapPackers w f).comps = s.comps ∧ (s.mapPackers w f).journal = s.journal
     ∧ (s.mapPackers w f).inter = s.inter ∧ (s.mapPackers w f).freeIx = s.freeIx := by
  simp only [State.mapPackers, List.foldl_cons, List.foldl_nil]
  (repeat' split) <;> simp

@[simp] theorem State.packersPtoOff_frame (s : State) :
    (s.packersPtoOff).pending = s.pending ∧ (s.packersPtoOff).variant = s.variant ∧ (s.packersPtoOff).pins = s.pins
     ∧ (s.packersPtoOff).links = s.links ∧ (s.packersPtoOff).settings = s.settings ∧ (s.packersPtoOff).lcc = s.lcc
     ∧ (s.packersPtoOff).store = s.store ∧ (s.packersPtoOff).shadow = s.shadow ∧ (s.packersPtoOff).slotMap = s.slotMap
     ∧ (s.packersPtoOff).drive = s.drive ∧ (s.packersPtoOff).weigh = s.weigh ∧ (s.packersPtoOff).lock = s.lock
     ∧ (s.packersPtoOff).houses = s.houses ∧ (s.packersPtoOff).comps = s.comps ∧ (s.packersPtoOff).journal = s.journal
     ∧ (s.packersPtoOff).inter = s.inter ∧ (s.packersPtoOff).freeIx = s.freeIx := by
  simp [State.packersPtoOff]

@[simp] theorem State.packersPtoOn_frame (s : State) :
    (s.packersPtoOn).pending = s.pending ∧ (s.packersPtoOn).variant = s.variant ∧ (s.packersPtoOn).pins = s.pins
     ∧ (s.packersPtoOn).links = s.links ∧ (s.packersPtoOn).settings = s.settings ∧ (s.packersPtoOn).lcc = s.lcc
     ∧ (s.packersPtoOn).store = s.store ∧ (s.packersPtoOn).shadow = s.shadow ∧ (s.packersPtoOn).slotMap = s.slotMap
     ∧ (s.packersPtoOn).drive = s.drive ∧ (s.packersPtoOn).weigh = s.weigh ∧ (s.packersPtoOn).lock = s.lock
     ∧ (s.packersPtoOn).houses = s.houses ∧ (s.packersPtoOn).comps = s.comps ∧ (s.packersPtoOn).journal = s.journal
     ∧ (s.packersPtoOn).inter = s.inter ∧ (s.packersPtoOn).freeIx = s.freeIx := by
  simp [State.packersPtoOn]

@[simp] theorem State.packersExpired_frame (s : State) :
    (s.packersExpired).pending = s.pending ∧ (s.packersExpired).variant = s.variant ∧ (s.packersExpired).pins = s.pins
     ∧ (s.packersExpired).links = s.links ∧ (s.packersExpired).settings = s.settings ∧ (s.packersExpired).lcc = s.lcc
     ∧ (s.packersExpired).store = s.store ∧ (s.packersExpired).shadow = s.shadow
     ∧ (s.packersExpired).slotMap = s.slotMap ∧ (s.packersExpired).drive = s.drive
     ∧ (s.packersExpired).weigh = s.weigh ∧ (s.packersExpired).lock = s.lock ∧ (s.packersExpired).houses = s.houses
     ∧ (s.packersExpired).comps = s.comps ∧ (s.packersExpired).journal = s.journal
     ∧ (s.packersExpired).inter = s.inter ∧ (s.packersExpired).freeIx = s.freeIx := by
  simp [State.packersExpired]

@[simp] theorem State.packersHeld_frame (s : State) :
    (s.packersHeld).pending = s.pending ∧ (s.packersHeld).variant = s.variant ∧ (s.packersHeld).pins = s.pins
     ∧ (s.packersHeld).links = s.links ∧ (s.packersHeld).settings = s.settings ∧ (s.packersHeld).lcc = s.lcc
     ∧ (s.packersHeld).store = s.store ∧ (s.packersHeld).shadow = s.shadow ∧ (s.packersHeld).slotMap = s.slotMap
     ∧ (s.packersHeld).drive = s.drive ∧ (s.packersHeld).weigh = s.weigh ∧ (s.packersHeld).lock = s.lock
     ∧ (s.packersHeld).houses = s.houses ∧ (s.packersHeld).comps = s.comps ∧ (s.packersHeld).journal = s.journal
     ∧ (s.packersHeld).inter = s.inter ∧ (s.packersHeld).freeIx = s.freeIx := by
  simp [State.packersHeld]

/-! ## The Tag Window -/

@[simp] theorem State.closeTags_frame (s : State) :
    (s.closeTags).pending = s.pending ∧ (s.closeTags).variant = s.variant ∧ (s.closeTags).pins = s.pins
     ∧ (s.closeTags).links = s.links ∧ (s.closeTags).settings = s.settings ∧ (s.closeTags).chans = s.chans
     ∧ (s.closeTags).store = s.store ∧ (s.closeTags).shadow = s.shadow ∧ (s.closeTags).slotMap = s.slotMap
     ∧ (s.closeTags).drive = s.drive ∧ (s.closeTags).weigh = s.weigh ∧ (s.closeTags).lock = s.lock
     ∧ (s.closeTags).comps = s.comps ∧ (s.closeTags).journal = s.journal ∧ (s.closeTags).inter = s.inter
     ∧ (s.closeTags).freeIx = s.freeIx := by
  simp [State.closeTags]

@[simp] theorem State.dropTags_frame (s : State) :
    (s.dropTags).pending = s.pending ∧ (s.dropTags).variant = s.variant ∧ (s.dropTags).pins = s.pins
     ∧ (s.dropTags).links = s.links ∧ (s.dropTags).settings = s.settings ∧ (s.dropTags).lcc = s.lcc
     ∧ (s.dropTags).chans = s.chans ∧ (s.dropTags).store = s.store ∧ (s.dropTags).shadow = s.shadow
     ∧ (s.dropTags).slotMap = s.slotMap ∧ (s.dropTags).drive = s.drive ∧ (s.dropTags).weigh = s.weigh
     ∧ (s.dropTags).lock = s.lock ∧ (s.dropTags).comps = s.comps ∧ (s.dropTags).journal = s.journal
     ∧ (s.dropTags).inter = s.inter ∧ (s.dropTags).freeIx = s.freeIx := by
  simp [State.dropTags]

@[simp] theorem State.tagSeen_frame (s : State) (tag : TagId) (b : Byte) :
    (s.tagSeen tag b).pending = s.pending ∧ (s.tagSeen tag b).variant = s.variant ∧ (s.tagSeen tag b).pins = s.pins
     ∧ (s.tagSeen tag b).links = s.links ∧ (s.tagSeen tag b).settings = s.settings ∧ (s.tagSeen tag b).lcc = s.lcc
     ∧ (s.tagSeen tag b).chans = s.chans ∧ (s.tagSeen tag b).store = s.store ∧ (s.tagSeen tag b).shadow = s.shadow
     ∧ (s.tagSeen tag b).slotMap = s.slotMap ∧ (s.tagSeen tag b).drive = s.drive ∧ (s.tagSeen tag b).weigh = s.weigh
     ∧ (s.tagSeen tag b).lock = s.lock ∧ (s.tagSeen tag b).comps = s.comps ∧ (s.tagSeen tag b).journal = s.journal
     ∧ (s.tagSeen tag b).inter = s.inter ∧ (s.tagSeen tag b).freeIx = s.freeIx := by
  simp [State.tagSeen]

/-! ## The Weigh Engine -/

@[simp] theorem State.dropWindow_frame (s : State) :
    (s.dropWindow).pending = s.pending ∧ (s.dropWindow).variant = s.variant ∧ (s.dropWindow).pins = s.pins
     ∧ (s.dropWindow).links = s.links ∧ (s.dropWindow).settings = s.settings ∧ (s.dropWindow).lcc = s.lcc
     ∧ (s.dropWindow).chans = s.chans ∧ (s.dropWindow).store = s.store ∧ (s.dropWindow).shadow = s.shadow
     ∧ (s.dropWindow).slotMap = s.slotMap ∧ (s.dropWindow).drive = s.drive ∧ (s.dropWindow).lock = s.lock
     ∧ (s.dropWindow).houses = s.houses ∧ (s.dropWindow).comps = s.comps ∧ (s.dropWindow).journal = s.journal
     ∧ (s.dropWindow).inter = s.inter ∧ (s.dropWindow).freeIx = s.freeIx := by
  simp [State.dropWindow]

@[simp] theorem State.weighHalt_frame (s : State) :
    (s.weighHalt).pending = s.pending ∧ (s.weighHalt).variant = s.variant ∧ (s.weighHalt).pins = s.pins
     ∧ (s.weighHalt).links = s.links ∧ (s.weighHalt).settings = s.settings ∧ (s.weighHalt).lcc = s.lcc
     ∧ (s.weighHalt).chans = s.chans ∧ (s.weighHalt).store = s.store ∧ (s.weighHalt).shadow = s.shadow
     ∧ (s.weighHalt).slotMap = s.slotMap ∧ (s.weighHalt).drive = s.drive ∧ (s.weighHalt).lock = s.lock
     ∧ (s.weighHalt).houses = s.houses ∧ (s.weighHalt).comps = s.comps ∧ (s.weighHalt).journal = s.journal
     ∧ (s.weighHalt).inter = s.inter ∧ (s.weighHalt).freeIx = s.freeIx := by
  simp only [State.weighHalt]
  (repeat' split) <;> simp

@[simp] theorem State.weighResume_frame (s : State) :
    (s.weighResume).pending = s.pending ∧ (s.weighResume).variant = s.variant ∧ (s.weighResume).pins = s.pins
     ∧ (s.weighResume).links = s.links ∧ (s.weighResume).settings = s.settings ∧ (s.weighResume).lcc = s.lcc
     ∧ (s.weighResume).chans = s.chans ∧ (s.weighResume).store = s.store ∧ (s.weighResume).shadow = s.shadow
     ∧ (s.weighResume).slotMap = s.slotMap ∧ (s.weighResume).drive = s.drive ∧ (s.weighResume).lock = s.lock
     ∧ (s.weighResume).houses = s.houses ∧ (s.weighResume).comps = s.comps ∧ (s.weighResume).journal = s.journal
     ∧ (s.weighResume).inter = s.inter ∧ (s.weighResume).freeIx = s.freeIx := by
  simp [State.weighResume]

@[simp] theorem State.testEnable_frame (s : State) :
    (s.testEnable).pending = s.pending ∧ (s.testEnable).variant = s.variant ∧ (s.testEnable).pins = s.pins
     ∧ (s.testEnable).links = s.links ∧ (s.testEnable).settings = s.settings ∧ (s.testEnable).lcc = s.lcc
     ∧ (s.testEnable).chans = s.chans ∧ (s.testEnable).store = s.store ∧ (s.testEnable).shadow = s.shadow
     ∧ (s.testEnable).slotMap = s.slotMap ∧ (s.testEnable).drive = s.drive ∧ (s.testEnable).lock = s.lock
     ∧ (s.testEnable).houses = s.houses ∧ (s.testEnable).comps = s.comps ∧ (s.testEnable).journal = s.journal
     ∧ (s.testEnable).inter = s.inter ∧ (s.testEnable).freeIx = s.freeIx := by
  simp only [State.testEnable]
  (repeat' split) <;> simp

@[simp] theorem State.openWindow_frame (s : State) (k : WindowKind) :
    (s.openWindow k).pending = s.pending ∧ (s.openWindow k).variant = s.variant ∧ (s.openWindow k).pins = s.pins
     ∧ (s.openWindow k).links = s.links ∧ (s.openWindow k).settings = s.settings ∧ (s.openWindow k).chans = s.chans
     ∧ (s.openWindow k).store = s.store ∧ (s.openWindow k).shadow = s.shadow ∧ (s.openWindow k).slotMap = s.slotMap
     ∧ (s.openWindow k).drive = s.drive ∧ (s.openWindow k).lock = s.lock ∧ (s.openWindow k).houses = s.houses
     ∧ (s.openWindow k).comps = s.comps ∧ (s.openWindow k).journal = s.journal ∧ (s.openWindow k).inter = s.inter
     ∧ (s.openWindow k).freeIx = s.freeIx := by
  simp only [State.openWindow]
  (repeat' split) <;> simp

@[simp] theorem State.noteOutcome_frame (s : State) (o : WindowOutcome) :
    (s.noteOutcome o).pending = s.pending ∧ (s.noteOutcome o).variant = s.variant ∧ (s.noteOutcome o).pins = s.pins
     ∧ (s.noteOutcome o).links = s.links ∧ (s.noteOutcome o).settings = s.settings ∧ (s.noteOutcome o).lcc = s.lcc
     ∧ (s.noteOutcome o).chans = s.chans ∧ (s.noteOutcome o).store = s.store ∧ (s.noteOutcome o).shadow = s.shadow
     ∧ (s.noteOutcome o).slotMap = s.slotMap ∧ (s.noteOutcome o).drive = s.drive ∧ (s.noteOutcome o).weigh = s.weigh
     ∧ (s.noteOutcome o).houses = s.houses ∧ (s.noteOutcome o).comps = s.comps ∧ (s.noteOutcome o).journal = s.journal
     ∧ (s.noteOutcome o).inter = s.inter ∧ (s.noteOutcome o).freeIx = s.freeIx := by
  simp [State.noteOutcome]

@[simp] theorem State.closeWindow_frame (s : State) :
    (s.closeWindow).pending = s.pending ∧ (s.closeWindow).variant = s.variant ∧ (s.closeWindow).pins = s.pins
     ∧ (s.closeWindow).links = s.links ∧ (s.closeWindow).settings = s.settings ∧ (s.closeWindow).chans = s.chans
     ∧ (s.closeWindow).store = s.store ∧ (s.closeWindow).shadow = s.shadow ∧ (s.closeWindow).slotMap = s.slotMap
     ∧ (s.closeWindow).drive = s.drive ∧ (s.closeWindow).houses = s.houses ∧ (s.closeWindow).comps = s.comps
     ∧ (s.closeWindow).journal = s.journal ∧ (s.closeWindow).inter = s.inter ∧ (s.closeWindow).freeIx = s.freeIx := by
  simp only [State.closeWindow]
  (repeat' split) <;> simp

@[simp] theorem State.takeZero_frame (s : State) (w : Window) (r : Int) :
    (s.takeZero w r).pending = s.pending ∧ (s.takeZero w r).variant = s.variant ∧ (s.takeZero w r).pins = s.pins
     ∧ (s.takeZero w r).links = s.links ∧ (s.takeZero w r).settings = s.settings ∧ (s.takeZero w r).lcc = s.lcc
     ∧ (s.takeZero w r).chans = s.chans ∧ (s.takeZero w r).store = s.store ∧ (s.takeZero w r).shadow = s.shadow
     ∧ (s.takeZero w r).slotMap = s.slotMap ∧ (s.takeZero w r).drive = s.drive ∧ (s.takeZero w r).houses = s.houses
     ∧ (s.takeZero w r).comps = s.comps ∧ (s.takeZero w r).journal = s.journal ∧ (s.takeZero w r).inter = s.inter
     ∧ (s.takeZero w r).freeIx = s.freeIx := by
  simp only [State.takeZero]
  (repeat' split) <;> simp

@[simp] theorem State.handCapture_frame (s : State) (w : Window) (c : Capture) :
    (s.handCapture w c).pending = s.pending ∧ (s.handCapture w c).variant = s.variant
     ∧ (s.handCapture w c).pins = s.pins ∧ (s.handCapture w c).links = s.links
     ∧ (s.handCapture w c).settings = s.settings ∧ (s.handCapture w c).chans = s.chans
     ∧ (s.handCapture w c).store = s.store ∧ (s.handCapture w c).shadow = s.shadow
     ∧ (s.handCapture w c).slotMap = s.slotMap ∧ (s.handCapture w c).drive = s.drive
     ∧ (s.handCapture w c).houses = s.houses ∧ (s.handCapture w c).comps = s.comps
     ∧ (s.handCapture w c).journal = s.journal ∧ (s.handCapture w c).inter = s.inter
     ∧ (s.handCapture w c).freeIx = s.freeIx := by
  simp only [State.handCapture]
  (repeat' split) <;> simp

@[simp] theorem State.blockArrival_frame (s : State) (b : Block) :
    (s.blockArrival b).pending = s.pending ∧ (s.blockArrival b).variant = s.variant ∧ (s.blockArrival b).pins = s.pins
     ∧ (s.blockArrival b).links = s.links ∧ (s.blockArrival b).settings = s.settings
     ∧ (s.blockArrival b).chans = s.chans ∧ (s.blockArrival b).store = s.store ∧ (s.blockArrival b).shadow = s.shadow
     ∧ (s.blockArrival b).slotMap = s.slotMap ∧ (s.blockArrival b).drive = s.drive
     ∧ (s.blockArrival b).houses = s.houses ∧ (s.blockArrival b).comps = s.comps
     ∧ (s.blockArrival b).journal = s.journal ∧ (s.blockArrival b).inter = s.inter
     ∧ (s.blockArrival b).freeIx = s.freeIx := by
  simp only [State.blockArrival]
  (repeat' split) <;> simp

@[simp] theorem State.workPair_frame (s : State) (a b : BitVec 24) :
    (s.workPair a b).pending = s.pending ∧ (s.workPair a b).variant = s.variant ∧ (s.workPair a b).pins = s.pins
     ∧ (s.workPair a b).links = s.links ∧ (s.workPair a b).settings = s.settings ∧ (s.workPair a b).chans = s.chans
     ∧ (s.workPair a b).store = s.store ∧ (s.workPair a b).shadow = s.shadow ∧ (s.workPair a b).slotMap = s.slotMap
     ∧ (s.workPair a b).drive = s.drive ∧ (s.workPair a b).houses = s.houses ∧ (s.workPair a b).comps = s.comps
     ∧ (s.workPair a b).journal = s.journal ∧ (s.workPair a b).inter = s.inter ∧ (s.workPair a b).freeIx = s.freeIx := by
  simp only [State.workPair]
  (repeat' split) <;> simp

/-! ## The Compartment Accounts -/

@[simp] theorem State.handOver_frame (s : State) (c : Compartment) (x : Comp) :
    (s.handOver c x).pending = s.pending ∧ (s.handOver c x).variant = s.variant ∧ (s.handOver c x).pins = s.pins
     ∧ (s.handOver c x).settings = s.settings ∧ (s.handOver c x).lcc = s.lcc ∧ (s.handOver c x).chans = s.chans
     ∧ (s.handOver c x).store = s.store ∧ (s.handOver c x).shadow = s.shadow ∧ (s.handOver c x).slotMap = s.slotMap
     ∧ (s.handOver c x).drive = s.drive ∧ (s.handOver c x).weigh = s.weigh ∧ (s.handOver c x).lock = s.lock
     ∧ (s.handOver c x).houses = s.houses ∧ (s.handOver c x).journal = s.journal ∧ (s.handOver c x).freeIx = s.freeIx := by
  simp only [State.handOver]
  (repeat' split) <;> simp

@[simp] theorem State.recompute_frame (s : State) (c : Compartment) :
    (s.recompute c).pending = s.pending ∧ (s.recompute c).variant = s.variant ∧ (s.recompute c).pins = s.pins
     ∧ (s.recompute c).settings = s.settings ∧ (s.recompute c).lcc = s.lcc ∧ (s.recompute c).chans = s.chans
     ∧ (s.recompute c).store = s.store ∧ (s.recompute c).shadow = s.shadow ∧ (s.recompute c).slotMap = s.slotMap
     ∧ (s.recompute c).drive = s.drive ∧ (s.recompute c).weigh = s.weigh ∧ (s.recompute c).lock = s.lock
     ∧ (s.recompute c).houses = s.houses ∧ (s.recompute c).journal = s.journal ∧ (s.recompute c).freeIx = s.freeIx := by
  simp only [State.recompute]
  (repeat' split) <;> simp

@[simp] theorem State.contribute_frame (s : State) (c : Compartment) (n : Nat) :
    (s.contribute c n).pending = s.pending ∧ (s.contribute c n).variant = s.variant ∧ (s.contribute c n).pins = s.pins
     ∧ (s.contribute c n).settings = s.settings ∧ (s.contribute c n).lcc = s.lcc ∧ (s.contribute c n).chans = s.chans
     ∧ (s.contribute c n).store = s.store ∧ (s.contribute c n).shadow = s.shadow
     ∧ (s.contribute c n).slotMap = s.slotMap ∧ (s.contribute c n).drive = s.drive
     ∧ (s.contribute c n).weigh = s.weigh ∧ (s.contribute c n).lock = s.lock ∧ (s.contribute c n).houses = s.houses
     ∧ (s.contribute c n).journal = s.journal ∧ (s.contribute c n).freeIx = s.freeIx := by
  simp [State.contribute]

@[simp] theorem State.packRetract_frame (s : State) (c : Compartment) :
    (s.packRetract c).pending = s.pending ∧ (s.packRetract c).variant = s.variant ∧ (s.packRetract c).pins = s.pins
     ∧ (s.packRetract c).settings = s.settings ∧ (s.packRetract c).lcc = s.lcc ∧ (s.packRetract c).chans = s.chans
     ∧ (s.packRetract c).store = s.store ∧ (s.packRetract c).shadow = s.shadow ∧ (s.packRetract c).slotMap = s.slotMap
     ∧ (s.packRetract c).drive = s.drive ∧ (s.packRetract c).weigh = s.weigh ∧ (s.packRetract c).lock = s.lock
     ∧ (s.packRetract c).houses = s.houses ∧ (s.packRetract c).journal = s.journal
     ∧ (s.packRetract c).freeIx = s.freeIx := by
  simp [State.packRetract]

@[simp] theorem State.stageUnload_frame (s : State) (c : Compartment) :
    (s.stageUnload c).pending = s.pending ∧ (s.stageUnload c).variant = s.variant ∧ (s.stageUnload c).pins = s.pins
     ∧ (s.stageUnload c).settings = s.settings ∧ (s.stageUnload c).lcc = s.lcc ∧ (s.stageUnload c).chans = s.chans
     ∧ (s.stageUnload c).store = s.store ∧ (s.stageUnload c).shadow = s.shadow ∧ (s.stageUnload c).slotMap = s.slotMap
     ∧ (s.stageUnload c).drive = s.drive ∧ (s.stageUnload c).weigh = s.weigh ∧ (s.stageUnload c).lock = s.lock
     ∧ (s.stageUnload c).houses = s.houses ∧ (s.stageUnload c).freeIx = s.freeIx := by
  simp [State.stageUnload]

@[simp] theorem State.settleEject_frame (s : State) (c : Compartment) (t : Bool) (g : Stage) (o : EjectOutcome) :
    (s.settleEject c t g o).pending = s.pending ∧ (s.settleEject c t g o).variant = s.variant
     ∧ (s.settleEject c t g o).pins = s.pins ∧ (s.settleEject c t g o).settings = s.settings
     ∧ (s.settleEject c t g o).lcc = s.lcc ∧ (s.settleEject c t g o).chans = s.chans
     ∧ (s.settleEject c t g o).store = s.store ∧ (s.settleEject c t g o).shadow = s.shadow
     ∧ (s.settleEject c t g o).slotMap = s.slotMap ∧ (s.settleEject c t g o).drive = s.drive
     ∧ (s.settleEject c t g o).weigh = s.weigh ∧ (s.settleEject c t g o).lock = s.lock
     ∧ (s.settleEject c t g o).houses = s.houses ∧ (s.settleEject c t g o).freeIx = s.freeIx := by
  simp only [State.settleEject]
  (repeat' split) <;> simp

@[simp] theorem State.packFault_frame (s : State) (c : Compartment) (f : FaultAt) :
    (s.packFault c f).pending = s.pending ∧ (s.packFault c f).variant = s.variant ∧ (s.packFault c f).pins = s.pins
     ∧ (s.packFault c f).settings = s.settings ∧ (s.packFault c f).lcc = s.lcc ∧ (s.packFault c f).chans = s.chans
     ∧ (s.packFault c f).store = s.store ∧ (s.packFault c f).shadow = s.shadow ∧ (s.packFault c f).slotMap = s.slotMap
     ∧ (s.packFault c f).drive = s.drive ∧ (s.packFault c f).weigh = s.weigh ∧ (s.packFault c f).lock = s.lock
     ∧ (s.packFault c f).houses = s.houses ∧ (s.packFault c f).freeIx = s.freeIx := by
  simp only [State.packFault]
  (repeat' split) <;> simp

@[simp] theorem State.reportPackStart_frame (s : State) (c : Compartment) :
    (s.reportPackStart c).pending = s.pending ∧ (s.reportPackStart c).variant = s.variant
     ∧ (s.reportPackStart c).pins = s.pins ∧ (s.reportPackStart c).settings = s.settings
     ∧ (s.reportPackStart c).lcc = s.lcc ∧ (s.reportPackStart c).chans = s.chans
     ∧ (s.reportPackStart c).store = s.store ∧ (s.reportPackStart c).shadow = s.shadow
     ∧ (s.reportPackStart c).slotMap = s.slotMap ∧ (s.reportPackStart c).drive = s.drive
     ∧ (s.reportPackStart c).weigh = s.weigh ∧ (s.reportPackStart c).lock = s.lock
     ∧ (s.reportPackStart c).houses = s.houses ∧ (s.reportPackStart c).freeIx = s.freeIx := by
  simp only [State.reportPackStart]
  (repeat' split) <;> simp

@[simp] theorem State.startPack_frame (s : State) (c : Compartment) (a : Nat) :
    (s.startPack c a).pending = s.pending ∧ (s.startPack c a).variant = s.variant ∧ (s.startPack c a).pins = s.pins
     ∧ (s.startPack c a).settings = s.settings ∧ (s.startPack c a).lcc = s.lcc ∧ (s.startPack c a).store = s.store
     ∧ (s.startPack c a).shadow = s.shadow ∧ (s.startPack c a).slotMap = s.slotMap ∧ (s.startPack c a).drive = s.drive
     ∧ (s.startPack c a).weigh = s.weigh ∧ (s.startPack c a).lock = s.lock ∧ (s.startPack c a).houses = s.houses
     ∧ (s.startPack c a).freeIx = s.freeIx := by
  simp only [State.startPack]
  (repeat' split) <;> simp

@[simp] theorem State.testDue_frame (s : State) (c : Compartment) :
    (s.testDue c).pending = s.pending ∧ (s.testDue c).variant = s.variant ∧ (s.testDue c).pins = s.pins
     ∧ (s.testDue c).settings = s.settings ∧ (s.testDue c).lcc = s.lcc ∧ (s.testDue c).store = s.store
     ∧ (s.testDue c).shadow = s.shadow ∧ (s.testDue c).slotMap = s.slotMap ∧ (s.testDue c).drive = s.drive
     ∧ (s.testDue c).weigh = s.weigh ∧ (s.testDue c).lock = s.lock ∧ (s.testDue c).houses = s.houses
     ∧ (s.testDue c).freeIx = s.freeIx := by
  simp only [State.testDue]
  (repeat' split) <;> simp

@[simp] theorem State.testDueAll_frame (s : State) :
    (s.testDueAll).pending = s.pending ∧ (s.testDueAll).variant = s.variant ∧ (s.testDueAll).pins = s.pins
     ∧ (s.testDueAll).settings = s.settings ∧ (s.testDueAll).lcc = s.lcc ∧ (s.testDueAll).store = s.store
     ∧ (s.testDueAll).shadow = s.shadow ∧ (s.testDueAll).slotMap = s.slotMap ∧ (s.testDueAll).drive = s.drive
     ∧ (s.testDueAll).weigh = s.weigh ∧ (s.testDueAll).lock = s.lock ∧ (s.testDueAll).houses = s.houses
     ∧ (s.testDueAll).freeIx = s.freeIx := by
  simp [State.testDueAll]

@[simp] theorem State.tip_frame (s : State) (c : Compartment) :
    (s.tip c).pending = s.pending ∧ (s.tip c).variant = s.variant ∧ (s.tip c).pins = s.pins
     ∧ (s.tip c).settings = s.settings ∧ (s.tip c).lcc = s.lcc ∧ (s.tip c).store = s.store
     ∧ (s.tip c).shadow = s.shadow ∧ (s.tip c).slotMap = s.slotMap ∧ (s.tip c).drive = s.drive
     ∧ (s.tip c).weigh = s.weigh ∧ (s.tip c).lock = s.lock ∧ (s.tip c).houses = s.houses ∧ (s.tip c).freeIx = s.freeIx := by
  simp [State.tip]

@[simp] theorem State.packEnd_frame (s : State) (c : Compartment) (o : Origin) :
    (s.packEnd c o).pending = s.pending ∧ (s.packEnd c o).variant = s.variant ∧ (s.packEnd c o).pins = s.pins
     ∧ (s.packEnd c o).settings = s.settings ∧ (s.packEnd c o).lcc = s.lcc ∧ (s.packEnd c o).store = s.store
     ∧ (s.packEnd c o).shadow = s.shadow ∧ (s.packEnd c o).slotMap = s.slotMap ∧ (s.packEnd c o).drive = s.drive
     ∧ (s.packEnd c o).weigh = s.weigh ∧ (s.packEnd c o).lock = s.lock ∧ (s.packEnd c o).houses = s.houses
     ∧ (s.packEnd c o).freeIx = s.freeIx := by
  simp only [State.packEnd]
  (repeat' split) <;> simp

@[simp] theorem State.startEject_frame (s : State) (c : Compartment) (a : Nat) :
    (s.startEject c a).pending = s.pending ∧ (s.startEject c a).variant = s.variant ∧ (s.startEject c a).pins = s.pins
     ∧ (s.startEject c a).settings = s.settings ∧ (s.startEject c a).lcc = s.lcc ∧ (s.startEject c a).store = s.store
     ∧ (s.startEject c a).shadow = s.shadow ∧ (s.startEject c a).slotMap = s.slotMap
     ∧ (s.startEject c a).drive = s.drive ∧ (s.startEject c a).weigh = s.weigh ∧ (s.startEject c a).lock = s.lock
     ∧ (s.startEject c a).houses = s.houses ∧ (s.startEject c a).freeIx = s.freeIx := by
  simp only [State.startEject]
  (repeat' split) <;> simp

@[simp] theorem State.restoreTotals_frame (s : State) :
    (s.restoreTotals).pending = s.pending ∧ (s.restoreTotals).variant = s.variant ∧ (s.restoreTotals).pins = s.pins
     ∧ (s.restoreTotals).links = s.links ∧ (s.restoreTotals).settings = s.settings ∧ (s.restoreTotals).lcc = s.lcc
     ∧ (s.restoreTotals).chans = s.chans ∧ (s.restoreTotals).store = s.store ∧ (s.restoreTotals).shadow = s.shadow
     ∧ (s.restoreTotals).slotMap = s.slotMap ∧ (s.restoreTotals).drive = s.drive ∧ (s.restoreTotals).weigh = s.weigh
     ∧ (s.restoreTotals).lock = s.lock ∧ (s.restoreTotals).houses = s.houses ∧ (s.restoreTotals).journal = s.journal
     ∧ (s.restoreTotals).inter = s.inter ∧ (s.restoreTotals).freeIx = s.freeIx := by
  simp [State.restoreTotals]

@[simp] theorem State.clearPacker_frame (s : State) (c : Compartment) :
    (s.clearPacker c).pending = s.pending ∧ (s.clearPacker c).variant = s.variant ∧ (s.clearPacker c).pins = s.pins
     ∧ (s.clearPacker c).links = s.links ∧ (s.clearPacker c).settings = s.settings ∧ (s.clearPacker c).lcc = s.lcc
     ∧ (s.clearPacker c).store = s.store ∧ (s.clearPacker c).shadow = s.shadow ∧ (s.clearPacker c).slotMap = s.slotMap
     ∧ (s.clearPacker c).drive = s.drive ∧ (s.clearPacker c).weigh = s.weigh ∧ (s.clearPacker c).lock = s.lock
     ∧ (s.clearPacker c).houses = s.houses ∧ (s.clearPacker c).journal = s.journal ∧ (s.clearPacker c).inter = s.inter
     ∧ (s.clearPacker c).freeIx = s.freeIx := by
  simp only [State.clearPacker]
  (repeat' split) <;> simp

/-! ## The Lift Cycle Controller -/

@[simp] theorem State.enterStuck_frame (s : State) :
    (s.enterStuck).pending = s.pending ∧ (s.enterStuck).variant = s.variant ∧ (s.enterStuck).pins = s.pins
     ∧ (s.enterStuck).settings = s.settings ∧ (s.enterStuck).store = s.store ∧ (s.enterStuck).shadow = s.shadow
     ∧ (s.enterStuck).slotMap = s.slotMap ∧ (s.enterStuck).drive = s.drive ∧ (s.enterStuck).lock = s.lock
     ∧ (s.enterStuck).comps = s.comps ∧ (s.enterStuck).journal = s.journal ∧ (s.enterStuck).inter = s.inter
     ∧ (s.enterStuck).freeIx = s.freeIx := by
  simp [State.enterStuck]

@[simp] theorem State.halt_frame (s : State) (p : ProfilePhase) (c : Causes) (f : Six (Option FaultKind)) :
    (s.halt p c f).pending = s.pending ∧ (s.halt p c f).variant = s.variant ∧ (s.halt p c f).pins = s.pins
     ∧ (s.halt p c f).settings = s.settings ∧ (s.halt p c f).store = s.store ∧ (s.halt p c f).shadow = s.shadow
     ∧ (s.halt p c f).slotMap = s.slotMap ∧ (s.halt p c f).drive = s.drive ∧ (s.halt p c f).lock = s.lock
     ∧ (s.halt p c f).houses = s.houses ∧ (s.halt p c f).comps = s.comps ∧ (s.halt p c f).journal = s.journal
     ∧ (s.halt p c f).inter = s.inter ∧ (s.halt p c f).freeIx = s.freeIx := by
  simp [State.halt]

@[simp] theorem State.addCause_frame (s : State) (c : InterlockCause) :
    (s.addCause c).pending = s.pending ∧ (s.addCause c).variant = s.variant ∧ (s.addCause c).pins = s.pins
     ∧ (s.addCause c).settings = s.settings ∧ (s.addCause c).store = s.store ∧ (s.addCause c).shadow = s.shadow
     ∧ (s.addCause c).slotMap = s.slotMap ∧ (s.addCause c).drive = s.drive ∧ (s.addCause c).lock = s.lock
     ∧ (s.addCause c).houses = s.houses ∧ (s.addCause c).comps = s.comps ∧ (s.addCause c).journal = s.journal
     ∧ (s.addCause c).inter = s.inter ∧ (s.addCause c).freeIx = s.freeIx := by
  simp only [State.addCause]
  (repeat' split) <;> simp

@[simp] theorem State.removeCause_frame (s : State) (c : InterlockCause) :
    (s.removeCause c).pending = s.pending ∧ (s.removeCause c).variant = s.variant ∧ (s.removeCause c).pins = s.pins
     ∧ (s.removeCause c).settings = s.settings ∧ (s.removeCause c).chans = s.chans ∧ (s.removeCause c).store = s.store
     ∧ (s.removeCause c).shadow = s.shadow ∧ (s.removeCause c).slotMap = s.slotMap ∧ (s.removeCause c).drive = s.drive
     ∧ (s.removeCause c).weigh = s.weigh ∧ (s.removeCause c).lock = s.lock ∧ (s.removeCause c).houses = s.houses
     ∧ (s.removeCause c).comps = s.comps ∧ (s.removeCause c).journal = s.journal ∧ (s.removeCause c).inter = s.inter
     ∧ (s.removeCause c).freeIx = s.freeIx := by
  simp only [State.removeCause]
  (repeat' split) <;> simp

@[simp] theorem State.cycleFault_frame (s : State) (c : Channel) (k : FaultKind) :
    (s.cycleFault c k).pending = s.pending ∧ (s.cycleFault c k).variant = s.variant ∧ (s.cycleFault c k).pins = s.pins
     ∧ (s.cycleFault c k).settings = s.settings ∧ (s.cycleFault c k).store = s.store
     ∧ (s.cycleFault c k).shadow = s.shadow ∧ (s.cycleFault c k).slotMap = s.slotMap
     ∧ (s.cycleFault c k).drive = s.drive ∧ (s.cycleFault c k).lock = s.lock ∧ (s.cycleFault c k).comps = s.comps
     ∧ (s.cycleFault c k).journal = s.journal ∧ (s.cycleFault c k).inter = s.inter
     ∧ (s.cycleFault c k).freeIx = s.freeIx := by
  simp only [State.cycleFault]
  (repeat' split) <;> simp

@[simp] theorem State.startChans_frame (s : State) (l : List (Channel × Nat)) (e : Nat) :
    (l.foldl (fun t a => t.startChan a.1 .cycle a.2 e) s).pending = s.pending
     ∧ (l.foldl (fun t a => t.startChan a.1 .cycle a.2 e) s).variant = s.variant
     ∧ (l.foldl (fun t a => t.startChan a.1 .cycle a.2 e) s).pins = s.pins
     ∧ (l.foldl (fun t a => t.startChan a.1 .cycle a.2 e) s).links = s.links
     ∧ (l.foldl (fun t a => t.startChan a.1 .cycle a.2 e) s).settings = s.settings
     ∧ (l.foldl (fun t a => t.startChan a.1 .cycle a.2 e) s).lcc = s.lcc
     ∧ (l.foldl (fun t a => t.startChan a.1 .cycle a.2 e) s).store = s.store
     ∧ (l.foldl (fun t a => t.startChan a.1 .cycle a.2 e) s).shadow = s.shadow
     ∧ (l.foldl (fun t a => t.startChan a.1 .cycle a.2 e) s).slotMap = s.slotMap
     ∧ (l.foldl (fun t a => t.startChan a.1 .cycle a.2 e) s).drive = s.drive
     ∧ (l.foldl (fun t a => t.startChan a.1 .cycle a.2 e) s).weigh = s.weigh
     ∧ (l.foldl (fun t a => t.startChan a.1 .cycle a.2 e) s).lock = s.lock
     ∧ (l.foldl (fun t a => t.startChan a.1 .cycle a.2 e) s).houses = s.houses
     ∧ (l.foldl (fun t a => t.startChan a.1 .cycle a.2 e) s).comps = s.comps
     ∧ (l.foldl (fun t a => t.startChan a.1 .cycle a.2 e) s).journal = s.journal
     ∧ (l.foldl (fun t a => t.startChan a.1 .cycle a.2 e) s).inter = s.inter
     ∧ (l.foldl (fun t a => t.startChan a.1 .cycle a.2 e) s).freeIx = s.freeIx := by
  induction l generalizing s with
  | nil => simp
  | cons c r ih => simp [ih]

@[simp] theorem State.startPhase_frame (s : State) (x : LiftCtx) (p : ProfilePhase) :
    (s.startPhase x p).pending = s.pending ∧ (s.startPhase x p).variant = s.variant ∧ (s.startPhase x p).pins = s.pins
     ∧ (s.startPhase x p).settings = s.settings ∧ (s.startPhase x p).store = s.store
     ∧ (s.startPhase x p).shadow = s.shadow ∧ (s.startPhase x p).slotMap = s.slotMap
     ∧ (s.startPhase x p).drive = s.drive ∧ (s.startPhase x p).weigh = s.weigh ∧ (s.startPhase x p).lock = s.lock
     ∧ (s.startPhase x p).houses = s.houses ∧ (s.startPhase x p).comps = s.comps
     ∧ (s.startPhase x p).journal = s.journal ∧ (s.startPhase x p).inter = s.inter
     ∧ (s.startPhase x p).freeIx = s.freeIx := by
  simp [State.startPhase]

@[simp] theorem State.reportStarts_frame (s : State) (l : List Channel) :
    (s.reportStarts l).pending = s.pending ∧ (s.reportStarts l).variant = s.variant ∧ (s.reportStarts l).pins = s.pins
     ∧ (s.reportStarts l).settings = s.settings ∧ (s.reportStarts l).store = s.store
     ∧ (s.reportStarts l).shadow = s.shadow ∧ (s.reportStarts l).slotMap = s.slotMap
     ∧ (s.reportStarts l).drive = s.drive ∧ (s.reportStarts l).lock = s.lock ∧ (s.reportStarts l).comps = s.comps
     ∧ (s.reportStarts l).journal = s.journal ∧ (s.reportStarts l).inter = s.inter
     ∧ (s.reportStarts l).freeIx = s.freeIx := by
  unfold State.reportStarts
  induction l generalizing s with
  | nil => simp
  | cons c r ih =>
    simp only [List.foldl_cons, ih]
    (repeat' split) <;> simp

@[simp] theorem State.stageLift_frame (s : State) (x : LiftCtx) :
    (s.stageLift x).pending = s.pending ∧ (s.stageLift x).variant = s.variant ∧ (s.stageLift x).pins = s.pins
     ∧ (s.stageLift x).settings = s.settings ∧ (s.stageLift x).lcc = s.lcc ∧ (s.stageLift x).chans = s.chans
     ∧ (s.stageLift x).store = s.store ∧ (s.stageLift x).shadow = s.shadow ∧ (s.stageLift x).slotMap = s.slotMap
     ∧ (s.stageLift x).drive = s.drive ∧ (s.stageLift x).weigh = s.weigh ∧ (s.stageLift x).lock = s.lock
     ∧ (s.stageLift x).freeIx = s.freeIx := by
  simp only [State.stageLift]
  (repeat' split) <;> simp

@[simp] theorem State.stageRefused_frame (s : State) (x : LiftCtx) :
    (s.stageRefused x).pending = s.pending ∧ (s.stageRefused x).variant = s.variant ∧ (s.stageRefused x).pins = s.pins
     ∧ (s.stageRefused x).settings = s.settings ∧ (s.stageRefused x).lcc = s.lcc ∧ (s.stageRefused x).chans = s.chans
     ∧ (s.stageRefused x).store = s.store ∧ (s.stageRefused x).shadow = s.shadow
     ∧ (s.stageRefused x).slotMap = s.slotMap ∧ (s.stageRefused x).drive = s.drive
     ∧ (s.stageRefused x).weigh = s.weigh ∧ (s.stageRefused x).lock = s.lock ∧ (s.stageRefused x).houses = s.houses
     ∧ (s.stageRefused x).comps = s.comps ∧ (s.stageRefused x).inter = s.inter ∧ (s.stageRefused x).freeIx = s.freeIx := by
  simp [State.stageRefused]

@[simp] theorem State.stageAborted_frame (s : State) (x : LiftCtx) :
    (s.stageAborted x).pending = s.pending ∧ (s.stageAborted x).variant = s.variant ∧ (s.stageAborted x).pins = s.pins
     ∧ (s.stageAborted x).settings = s.settings ∧ (s.stageAborted x).lcc = s.lcc ∧ (s.stageAborted x).chans = s.chans
     ∧ (s.stageAborted x).store = s.store ∧ (s.stageAborted x).shadow = s.shadow
     ∧ (s.stageAborted x).slotMap = s.slotMap ∧ (s.stageAborted x).drive = s.drive
     ∧ (s.stageAborted x).weigh = s.weigh ∧ (s.stageAborted x).lock = s.lock ∧ (s.stageAborted x).houses = s.houses
     ∧ (s.stageAborted x).comps = s.comps ∧ (s.stageAborted x).inter = s.inter ∧ (s.stageAborted x).freeIx = s.freeIx := by
  simp [State.stageAborted]

@[simp] theorem State.stageCycle_frame (s : State) :
    (s.stageCycle).pending = s.pending ∧ (s.stageCycle).variant = s.variant ∧ (s.stageCycle).pins = s.pins
     ∧ (s.stageCycle).settings = s.settings ∧ (s.stageCycle).chans = s.chans ∧ (s.stageCycle).store = s.store
     ∧ (s.stageCycle).shadow = s.shadow ∧ (s.stageCycle).slotMap = s.slotMap ∧ (s.stageCycle).drive = s.drive
     ∧ (s.stageCycle).lock = s.lock ∧ (s.stageCycle).freeIx = s.freeIx := by
  simp only [State.stageCycle]
  (repeat' split) <;> simp

@[simp] theorem State.takeDecision_frame (s : State) (x : LiftCtx) :
    (s.takeDecision x).pending = s.pending ∧ (s.takeDecision x).variant = s.variant ∧ (s.takeDecision x).pins = s.pins
     ∧ (s.takeDecision x).links = s.links ∧ (s.takeDecision x).settings = s.settings
     ∧ (s.takeDecision x).chans = s.chans ∧ (s.takeDecision x).store = s.store ∧ (s.takeDecision x).shadow = s.shadow
     ∧ (s.takeDecision x).slotMap = s.slotMap ∧ (s.takeDecision x).drive = s.drive
     ∧ (s.takeDecision x).weigh = s.weigh ∧ (s.takeDecision x).lock = s.lock ∧ (s.takeDecision x).comps = s.comps
     ∧ (s.takeDecision x).journal = s.journal ∧ (s.takeDecision x).inter = s.inter
     ∧ (s.takeDecision x).freeIx = s.freeIx := by
  simp only [State.takeDecision]
  (repeat' split) <;> simp

@[simp] theorem State.endPhase_frame (s : State) (p : ProfilePhase) :
    ((s.endPhase p).1).pending = s.pending ∧ ((s.endPhase p).1).variant = s.variant ∧ ((s.endPhase p).1).pins = s.pins
     ∧ ((s.endPhase p).1).settings = s.settings ∧ ((s.endPhase p).1).chans = s.chans
     ∧ ((s.endPhase p).1).store = s.store ∧ ((s.endPhase p).1).shadow = s.shadow
     ∧ ((s.endPhase p).1).slotMap = s.slotMap ∧ ((s.endPhase p).1).drive = s.drive
     ∧ ((s.endPhase p).1).freeIx = s.freeIx := by
  simp only [State.endPhase]
  (repeat' split) <;> simp

@[simp] theorem State.enterPhases_frame (n : Nat) (s : State) (p : ProfilePhase) :
    (State.enterPhases n s p).pending = s.pending ∧ (State.enterPhases n s p).variant = s.variant
     ∧ (State.enterPhases n s p).pins = s.pins ∧ (State.enterPhases n s p).settings = s.settings
     ∧ (State.enterPhases n s p).store = s.store ∧ (State.enterPhases n s p).shadow = s.shadow
     ∧ (State.enterPhases n s p).slotMap = s.slotMap ∧ (State.enterPhases n s p).drive = s.drive
     ∧ (State.enterPhases n s p).freeIx = s.freeIx := by
  induction n generalizing s p with
  | zero => simp [State.enterPhases]
  | succ n ih =>
    simp only [State.enterPhases]
    split
    · simp
    · rename_i x _
      have he := State.endPhase_frame (s.startPhase x p) p
      simp only [State.startPhase_frame] at he
      split
      · split <;> rename_i h
        · rw [h] at he
          simp_all
        · rw [h] at he
          simp_all
      · simp

@[simp] theorem State.enterPhase_frame (s : State) (p : ProfilePhase) :
    (s.enterPhase p).pending = s.pending ∧ (s.enterPhase p).variant = s.variant ∧ (s.enterPhase p).pins = s.pins
     ∧ (s.enterPhase p).settings = s.settings ∧ (s.enterPhase p).store = s.store ∧ (s.enterPhase p).shadow = s.shadow
     ∧ (s.enterPhase p).slotMap = s.slotMap ∧ (s.enterPhase p).drive = s.drive ∧ (s.enterPhase p).freeIx = s.freeIx := by
  simp [State.enterPhase]

@[simp] theorem State.cycleEnd_frame (s : State) :
    (s.cycleEnd).pending = s.pending ∧ (s.cycleEnd).variant = s.variant ∧ (s.cycleEnd).pins = s.pins
     ∧ (s.cycleEnd).settings = s.settings ∧ (s.cycleEnd).store = s.store ∧ (s.cycleEnd).shadow = s.shadow
     ∧ (s.cycleEnd).slotMap = s.slotMap ∧ (s.cycleEnd).drive = s.drive ∧ (s.cycleEnd).freeIx = s.freeIx := by
  simp only [State.cycleEnd]
  split
  · rename_i p _
    have he := State.endPhase_frame s p
    split
    · split <;> rename_i h <;> rw [h] at he <;> simp_all
    · simp
  all_goals simp

@[simp] theorem State.recomputeSpeed_frame (s : State) (f : Bool) :
    (s.recomputeSpeed f).pending = s.pending ∧ (s.recomputeSpeed f).variant = s.variant
     ∧ (s.recomputeSpeed f).pins = s.pins ∧ (s.recomputeSpeed f).settings = s.settings
     ∧ (s.recomputeSpeed f).store = s.store ∧ (s.recomputeSpeed f).shadow = s.shadow
     ∧ (s.recomputeSpeed f).slotMap = s.slotMap ∧ (s.recomputeSpeed f).drive = s.drive
     ∧ (s.recomputeSpeed f).lock = s.lock ∧ (s.recomputeSpeed f).houses = s.houses
     ∧ (s.recomputeSpeed f).comps = s.comps ∧ (s.recomputeSpeed f).journal = s.journal
     ∧ (s.recomputeSpeed f).freeIx = s.freeIx := by
  simp only [State.recomputeSpeed]
  (repeat' split) <;> simp

/-! ## A step expiry -/

@[simp] theorem State.failChan_frame (s : State) (c : Channel) (k : FaultKind) (a : Nat) :
    (s.failChan c k a).pending = s.pending ∧ (s.failChan c k a).variant = s.variant ∧ (s.failChan c k a).pins = s.pins
     ∧ (s.failChan c k a).settings = s.settings ∧ (s.failChan c k a).store = s.store
     ∧ (s.failChan c k a).shadow = s.shadow ∧ (s.failChan c k a).slotMap = s.slotMap
     ∧ (s.failChan c k a).drive = s.drive ∧ (s.failChan c k a).freeIx = s.freeIx := by
  simp only [State.failChan]
  (repeat' split) <;> simp

@[simp] theorem State.endChan_frame (s : State) (c : Channel) :
    (s.endChan c).pending = s.pending ∧ (s.endChan c).variant = s.variant ∧ (s.endChan c).pins = s.pins
     ∧ (s.endChan c).settings = s.settings ∧ (s.endChan c).store = s.store ∧ (s.endChan c).shadow = s.shadow
     ∧ (s.endChan c).slotMap = s.slotMap ∧ (s.endChan c).drive = s.drive ∧ (s.endChan c).freeIx = s.freeIx := by
  simp only [State.endChan]
  (repeat' split) <;> simp

@[simp] theorem State.advance_frame (s : State) (c : Channel) :
    ((s.advance c).1).pending = s.pending ∧ ((s.advance c).1).variant = s.variant ∧ ((s.advance c).1).pins = s.pins
     ∧ ((s.advance c).1).settings = s.settings ∧ ((s.advance c).1).store = s.store
     ∧ ((s.advance c).1).shadow = s.shadow ∧ ((s.advance c).1).slotMap = s.slotMap ∧ ((s.advance c).1).drive = s.drive
     ∧ ((s.advance c).1).freeIx = s.freeIx := by
  simp only [State.advance]
  split <;> simp

@[simp] theorem State.completeElement_frame (s : State) (c : Channel) (u : Int) :
    (s.completeElement c u).pending = s.pending ∧ (s.completeElement c u).variant = s.variant
     ∧ (s.completeElement c u).pins = s.pins ∧ (s.completeElement c u).settings = s.settings
     ∧ (s.completeElement c u).store = s.store ∧ (s.completeElement c u).shadow = s.shadow
     ∧ (s.completeElement c u).slotMap = s.slotMap ∧ (s.completeElement c u).drive = s.drive
     ∧ (s.completeElement c u).freeIx = s.freeIx := by
  simp [State.completeElement]

@[simp] theorem State.rampStep_frame (s : State) (c : Channel) (u0 t : Int) (k n : Nat) :
    (s.rampStep c u0 t k n).pending = s.pending ∧ (s.rampStep c u0 t k n).variant = s.variant
     ∧ (s.rampStep c u0 t k n).pins = s.pins ∧ (s.rampStep c u0 t k n).settings = s.settings
     ∧ (s.rampStep c u0 t k n).store = s.store ∧ (s.rampStep c u0 t k n).shadow = s.shadow
     ∧ (s.rampStep c u0 t k n).slotMap = s.slotMap ∧ (s.rampStep c u0 t k n).drive = s.drive
     ∧ (s.rampStep c u0 t k n).freeIx = s.freeIx := by
  simp only [State.rampStep]
  (repeat' split) <;> simp

@[simp] theorem State.deltaAt_frame (s : State) (c : Channel) (d : Int) (e k : Nat) :
    (s.deltaAt c d e k).pending = s.pending ∧ (s.deltaAt c d e k).variant = s.variant
     ∧ (s.deltaAt c d e k).pins = s.pins ∧ (s.deltaAt c d e k).settings = s.settings
     ∧ (s.deltaAt c d e k).store = s.store ∧ (s.deltaAt c d e k).shadow = s.shadow
     ∧ (s.deltaAt c d e k).slotMap = s.slotMap ∧ (s.deltaAt c d e k).drive = s.drive
     ∧ (s.deltaAt c d e k).freeIx = s.freeIx := by
  simp only [State.deltaAt]
  (repeat' split) <;> simp

@[simp] theorem State.holdStep_frame (s : State) (c : Channel) (n : Nat) :
    (s.holdStep c n).pending = s.pending ∧ (s.holdStep c n).variant = s.variant ∧ (s.holdStep c n).pins = s.pins
     ∧ (s.holdStep c n).settings = s.settings ∧ (s.holdStep c n).store = s.store ∧ (s.holdStep c n).shadow = s.shadow
     ∧ (s.holdStep c n).slotMap = s.slotMap ∧ (s.holdStep c n).drive = s.drive ∧ (s.holdStep c n).freeIx = s.freeIx := by
  simp only [State.holdStep]
  (repeat' split) <;> simp

@[simp] theorem State.beginAwait_frame (s : State) (c : Channel) (t : Nat) :
    (s.beginAwait c t).pending = s.pending ∧ (s.beginAwait c t).variant = s.variant ∧ (s.beginAwait c t).pins = s.pins
     ∧ (s.beginAwait c t).links = s.links ∧ (s.beginAwait c t).settings = s.settings ∧ (s.beginAwait c t).lcc = s.lcc
     ∧ (s.beginAwait c t).store = s.store ∧ (s.beginAwait c t).shadow = s.shadow
     ∧ (s.beginAwait c t).slotMap = s.slotMap ∧ (s.beginAwait c t).drive = s.drive
     ∧ (s.beginAwait c t).weigh = s.weigh ∧ (s.beginAwait c t).lock = s.lock ∧ (s.beginAwait c t).houses = s.houses
     ∧ (s.beginAwait c t).comps = s.comps ∧ (s.beginAwait c t).journal = s.journal
     ∧ (s.beginAwait c t).inter = s.inter ∧ (s.beginAwait c t).freeIx = s.freeIx := by
  simp [State.beginAwait]

@[simp] theorem State.countAwait_frame (s : State) (c : Channel) :
    (s.countAwait c).pending = s.pending ∧ (s.countAwait c).variant = s.variant ∧ (s.countAwait c).pins = s.pins
     ∧ (s.countAwait c).settings = s.settings ∧ (s.countAwait c).store = s.store ∧ (s.countAwait c).shadow = s.shadow
     ∧ (s.countAwait c).slotMap = s.slotMap ∧ (s.countAwait c).drive = s.drive ∧ (s.countAwait c).freeIx = s.freeIx := by
  simp only [State.countAwait]
  (repeat' split) <;> simp

@[simp] theorem State.passAwait_frame (s : State) (c : Channel) :
    ((s.passAwait c).1).pending = s.pending ∧ ((s.passAwait c).1).variant = s.variant
     ∧ ((s.passAwait c).1).pins = s.pins ∧ ((s.passAwait c).1).settings = s.settings
     ∧ ((s.passAwait c).1).store = s.store ∧ ((s.passAwait c).1).shadow = s.shadow
     ∧ ((s.passAwait c).1).slotMap = s.slotMap ∧ ((s.passAwait c).1).drive = s.drive
     ∧ ((s.passAwait c).1).freeIx = s.freeIx := by
  simp [State.passAwait]

theorem State.deliver_frame {s t : State} {c : Channel} {code : Nat} (h : s.deliver c code = some t) :
    t.pending = s.pending ∧ t.variant = s.variant ∧ t.pins = s.pins ∧ t.settings = s.settings ∧ t.store = s.store ∧ t.shadow = s.shadow
     ∧ t.slotMap = s.slotMap ∧ t.drive = s.drive ∧ t.freeIx = s.freeIx
     := by
  revert h
  simp only [State.deliver, State.openMark, State.closeMark, State.tagOpenMark, State.tagCloseMark, State.tipMark,
    State.packMark, State.ejectMark, State.packSweep, State.packCompress]
  (repeat' split) <;> intro h <;> cases h <;> simp


@[simp] theorem State.reach_frame (n : Nat) (s : State) (c : Channel) :
    (s.reach n c).pending = s.pending ∧ (s.reach n c).variant = s.variant ∧ (s.reach n c).pins = s.pins
     ∧ (s.reach n c).settings = s.settings ∧ (s.reach n c).store = s.store ∧ (s.reach n c).shadow = s.shadow
     ∧ (s.reach n c).slotMap = s.slotMap ∧ (s.reach n c).drive = s.drive ∧ (s.reach n c).freeIx = s.freeIx := by
  induction n generalizing s with
  | zero => simp [State.reach]
  | succ n ih =>
    simp only [State.reach]
    split
    · simp
    split
    · simp
    split
    case h_6 =>
      split
      · rename_i h
        have hd := State.deliver_frame h
        split <;> simp_all
      · simp
    case h_5 => split <;> simp [ih]
    case h_7 =>
      split
      · split <;> simp [ih]
      · simp
    all_goals simp

@[simp] theorem State.continueElement_frame (s : State) (c : Channel) (r : Chan) :
    (s.continueElement c r).pending = s.pending ∧ (s.continueElement c r).variant = s.variant
     ∧ (s.continueElement c r).pins = s.pins ∧ (s.continueElement c r).settings = s.settings
     ∧ (s.continueElement c r).store = s.store ∧ (s.continueElement c r).shadow = s.shadow
     ∧ (s.continueElement c r).slotMap = s.slotMap ∧ (s.continueElement c r).drive = s.drive
     ∧ (s.continueElement c r).freeIx = s.freeIx := by
  simp only [State.continueElement]
  split
  case h_6 =>
    split
    · have hp := State.passAwait_frame s c
      split <;> rename_i h <;> rw [h] at hp <;> simp_all
    · simp
  all_goals simp

@[simp] theorem State.expire_frame (s : State) (c : Channel) :
    (s.expire c).pending = s.pending ∧ (s.expire c).variant = s.variant ∧ (s.expire c).pins = s.pins
     ∧ (s.expire c).settings = s.settings ∧ (s.expire c).store = s.store ∧ (s.expire c).shadow = s.shadow
     ∧ (s.expire c).slotMap = s.slotMap ∧ (s.expire c).drive = s.drive ∧ (s.expire c).freeIx = s.freeIx := by
  simp only [State.expire]
  (repeat' split) <;> simp

@[simp] theorem State.coilFault_frame (s : State) (c : Channel) (l : Latch) :
    (s.coilFault c l).pending = s.pending ∧ (s.coilFault c l).variant = s.variant ∧ (s.coilFault c l).pins = s.pins
     ∧ (s.coilFault c l).settings = s.settings ∧ (s.coilFault c l).store = s.store
     ∧ (s.coilFault c l).shadow = s.shadow ∧ (s.coilFault c l).slotMap = s.slotMap
     ∧ (s.coilFault c l).freeIx = s.freeIx := by
  simp only [State.coilFault]
  (repeat' split) <;> simp

/-! ## What an owner does with a request -/

@[simp] theorem State.takeLift_frame (h : Header) (f : LiftFields) (s : State) :
    (State.takeLift h f s).pending = s.pending ∧ (State.takeLift h f s).variant = s.variant
     ∧ (State.takeLift h f s).pins = s.pins ∧ (State.takeLift h f s).settings = s.settings
     ∧ (State.takeLift h f s).store = s.store ∧ (State.takeLift h f s).shadow = s.shadow
     ∧ (State.takeLift h f s).slotMap = s.slotMap := by
  simp only [State.takeLift, State.acceptLift]
  (repeat' split) <;> simp

@[simp] theorem State.renewPermit_frame (s : State) :
    (s.renewPermit).pending = s.pending ∧ (s.renewPermit).variant = s.variant ∧ (s.renewPermit).pins = s.pins
     ∧ (s.renewPermit).settings = s.settings ∧ (s.renewPermit).store = s.store ∧ (s.renewPermit).shadow = s.shadow
     ∧ (s.renewPermit).slotMap = s.slotMap ∧ (s.renewPermit).weigh = s.weigh ∧ (s.renewPermit).lock = s.lock
     ∧ (s.renewPermit).houses = s.houses ∧ (s.renewPermit).comps = s.comps ∧ (s.renewPermit).journal = s.journal
     ∧ (s.renewPermit).freeIx = s.freeIx := by
  simp only [State.renewPermit]
  (repeat' split) <;> simp

@[simp] theorem State.resumeCycle_frame (s : State) (p : ProfilePhase) :
    (s.resumeCycle p).pending = s.pending ∧ (s.resumeCycle p).variant = s.variant ∧ (s.resumeCycle p).pins = s.pins
     ∧ (s.resumeCycle p).settings = s.settings ∧ (s.resumeCycle p).store = s.store
     ∧ (s.resumeCycle p).shadow = s.shadow ∧ (s.resumeCycle p).slotMap = s.slotMap ∧ (s.resumeCycle p).drive = s.drive
     ∧ (s.resumeCycle p).freeIx = s.freeIx := by
  simp only [State.resumeCycle]
  (repeat' split) <;> simp

@[simp] theorem State.takeResume_frame (h : Header) (s : State) :
    (State.takeResume h s).pending = s.pending ∧ (State.takeResume h s).variant = s.variant
     ∧ (State.takeResume h s).pins = s.pins ∧ (State.takeResume h s).settings = s.settings
     ∧ (State.takeResume h s).store = s.store ∧ (State.takeResume h s).shadow = s.shadow
     ∧ (State.takeResume h s).slotMap = s.slotMap := by
  simp only [State.takeResume]
  (repeat' split) <;> simp

@[simp] theorem State.abandon_frame (s : State) :
    (s.abandon).pending = s.pending ∧ (s.abandon).variant = s.variant ∧ (s.abandon).pins = s.pins
     ∧ (s.abandon).links = s.links ∧ (s.abandon).settings = s.settings ∧ (s.abandon).store = s.store
     ∧ (s.abandon).shadow = s.shadow ∧ (s.abandon).slotMap = s.slotMap ∧ (s.abandon).drive = s.drive
     ∧ (s.abandon).lock = s.lock ∧ (s.abandon).comps = s.comps ∧ (s.abandon).journal = s.journal
     ∧ (s.abandon).inter = s.inter ∧ (s.abandon).freeIx = s.freeIx := by
  simp [State.abandon]

@[simp] theorem State.enterRecover_frame (s : State) (f : Bool) :
    (s.enterRecover f).pending = s.pending ∧ (s.enterRecover f).variant = s.variant ∧ (s.enterRecover f).pins = s.pins
     ∧ (s.enterRecover f).settings = s.settings ∧ (s.enterRecover f).store = s.store
     ∧ (s.enterRecover f).shadow = s.shadow ∧ (s.enterRecover f).slotMap = s.slotMap
     ∧ (s.enterRecover f).drive = s.drive ∧ (s.enterRecover f).freeIx = s.freeIx := by
  simp only [State.enterRecover]
  (repeat' split) <;> simp

@[simp] theorem State.takeAbort_frame (h : Header) (s : State) :
    (State.takeAbort h s).pending = s.pending ∧ (State.takeAbort h s).variant = s.variant
     ∧ (State.takeAbort h s).pins = s.pins ∧ (State.takeAbort h s).settings = s.settings
     ∧ (State.takeAbort h s).store = s.store ∧ (State.takeAbort h s).shadow = s.shadow
     ∧ (State.takeAbort h s).slotMap = s.slotMap := by
  simp only [State.takeAbort]
  (repeat' split) <;> simp

@[simp] theorem State.takeCycleClear_frame (h : Header) (s : State) :
    (State.takeCycleClear h s).pending = s.pending ∧ (State.takeCycleClear h s).variant = s.variant
     ∧ (State.takeCycleClear h s).pins = s.pins ∧ (State.takeCycleClear h s).settings = s.settings
     ∧ (State.takeCycleClear h s).chans = s.chans ∧ (State.takeCycleClear h s).store = s.store
     ∧ (State.takeCycleClear h s).shadow = s.shadow ∧ (State.takeCycleClear h s).slotMap = s.slotMap
     ∧ (State.takeCycleClear h s).drive = s.drive ∧ (State.takeCycleClear h s).lock = s.lock := by
  simp only [State.takeCycleClear]
  (repeat' split) <;> simp

@[simp] theorem State.takePack_frame (h : Header) (b : Byte) (s : State) :
    (State.takePack h b s).pending = s.pending ∧ (State.takePack h b s).variant = s.variant
     ∧ (State.takePack h b s).pins = s.pins ∧ (State.takePack h b s).settings = s.settings
     ∧ (State.takePack h b s).lcc = s.lcc ∧ (State.takePack h b s).store = s.store
     ∧ (State.takePack h b s).shadow = s.shadow ∧ (State.takePack h b s).slotMap = s.slotMap
     ∧ (State.takePack h b s).weigh = s.weigh ∧ (State.takePack h b s).lock = s.lock
     ∧ (State.takePack h b s).houses = s.houses := by
  simp only [State.takePack]
  (repeat' split) <;> simp

@[simp] theorem State.takeUnload_frame (h : Header) (b : Byte) (s : State) :
    (State.takeUnload h b s).pending = s.pending ∧ (State.takeUnload h b s).variant = s.variant
     ∧ (State.takeUnload h b s).pins = s.pins ∧ (State.takeUnload h b s).settings = s.settings
     ∧ (State.takeUnload h b s).lcc = s.lcc ∧ (State.takeUnload h b s).store = s.store
     ∧ (State.takeUnload h b s).shadow = s.shadow ∧ (State.takeUnload h b s).slotMap = s.slotMap
     ∧ (State.takeUnload h b s).weigh = s.weigh ∧ (State.takeUnload h b s).lock = s.lock
     ∧ (State.takeUnload h b s).houses = s.houses := by
  simp only [State.takeUnload]
  (repeat' split) <;> simp

@[simp] theorem State.takeAbortUnload_frame (h : Header) (b : Byte) (s : State) :
    (State.takeAbortUnload h b s).pending = s.pending ∧ (State.takeAbortUnload h b s).variant = s.variant
     ∧ (State.takeAbortUnload h b s).pins = s.pins ∧ (State.takeAbortUnload h b s).settings = s.settings
     ∧ (State.takeAbortUnload h b s).lcc = s.lcc ∧ (State.takeAbortUnload h b s).store = s.store
     ∧ (State.takeAbortUnload h b s).shadow = s.shadow ∧ (State.takeAbortUnload h b s).slotMap = s.slotMap
     ∧ (State.takeAbortUnload h b s).weigh = s.weigh ∧ (State.takeAbortUnload h b s).lock = s.lock
     ∧ (State.takeAbortUnload h b s).houses = s.houses := by
  simp only [State.takeAbortUnload]
  (repeat' split) <;> simp

@[simp] theorem State.takeFaultClear_frame (h : Header) (b : Byte) (s : State) :
    (State.takeFaultClear h b s).pending = s.pending ∧ (State.takeFaultClear h b s).variant = s.variant
     ∧ (State.takeFaultClear h b s).pins = s.pins ∧ (State.takeFaultClear h b s).settings = s.settings
     ∧ (State.takeFaultClear h b s).lcc = s.lcc ∧ (State.takeFaultClear h b s).chans = s.chans
     ∧ (State.takeFaultClear h b s).store = s.store ∧ (State.takeFaultClear h b s).shadow = s.shadow
     ∧ (State.takeFaultClear h b s).slotMap = s.slotMap ∧ (State.takeFaultClear h b s).weigh = s.weigh
     ∧ (State.takeFaultClear h b s).lock = s.lock ∧ (State.takeFaultClear h b s).houses = s.houses
     ∧ (State.takeFaultClear h b s).comps = s.comps ∧ (State.takeFaultClear h b s).journal = s.journal
     ∧ (State.takeFaultClear h b s).inter = s.inter := by
  simp only [State.takeFaultClear]
  (repeat' split) <;> simp

@[simp] theorem State.takeStatus_frame (h : Header) (b : Byte) (s : State) :
    (State.takeStatus h b s).pending = s.pending ∧ (State.takeStatus h b s).variant = s.variant
     ∧ (State.takeStatus h b s).pins = s.pins ∧ (State.takeStatus h b s).settings = s.settings
     ∧ (State.takeStatus h b s).lcc = s.lcc ∧ (State.takeStatus h b s).chans = s.chans
     ∧ (State.takeStatus h b s).store = s.store ∧ (State.takeStatus h b s).shadow = s.shadow
     ∧ (State.takeStatus h b s).slotMap = s.slotMap ∧ (State.takeStatus h b s).drive = s.drive
     ∧ (State.takeStatus h b s).weigh = s.weigh ∧ (State.takeStatus h b s).lock = s.lock
     ∧ (State.takeStatus h b s).houses = s.houses ∧ (State.takeStatus h b s).comps = s.comps
     ∧ (State.takeStatus h b s).journal = s.journal ∧ (State.takeStatus h b s).inter = s.inter := by
  simp only [State.takeStatus]
  (repeat' split) <;> simp

@[simp] theorem State.takeEntryPut_frame (h : Header) (f : EntryFields) (s : State) :
    (State.takeEntryPut h f s).pending = s.pending ∧ (State.takeEntryPut h f s).variant = s.variant
     ∧ (State.takeEntryPut h f s).pins = s.pins ∧ (State.takeEntryPut h f s).settings = s.settings
     ∧ (State.takeEntryPut h f s).lcc = s.lcc ∧ (State.takeEntryPut h f s).chans = s.chans
     ∧ (State.takeEntryPut h f s).store = s.store ∧ (State.takeEntryPut h f s).shadow = s.shadow
     ∧ (State.takeEntryPut h f s).slotMap = s.slotMap ∧ (State.takeEntryPut h f s).drive = s.drive
     ∧ (State.takeEntryPut h f s).weigh = s.weigh ∧ (State.takeEntryPut h f s).lock = s.lock
     ∧ (State.takeEntryPut h f s).comps = s.comps ∧ (State.takeEntryPut h f s).journal = s.journal
     ∧ (State.takeEntryPut h f s).inter = s.inter := by
  simp only [State.takeEntryPut]
  (repeat' split) <;> simp

@[simp] theorem State.takeEntryDrop_frame (h : Header) (tag : TagId) (s : State) :
    (State.takeEntryDrop h tag s).pending = s.pending ∧ (State.takeEntryDrop h tag s).variant = s.variant
     ∧ (State.takeEntryDrop h tag s).pins = s.pins ∧ (State.takeEntryDrop h tag s).settings = s.settings
     ∧ (State.takeEntryDrop h tag s).lcc = s.lcc ∧ (State.takeEntryDrop h tag s).chans = s.chans
     ∧ (State.takeEntryDrop h tag s).store = s.store ∧ (State.takeEntryDrop h tag s).shadow = s.shadow
     ∧ (State.takeEntryDrop h tag s).slotMap = s.slotMap ∧ (State.takeEntryDrop h tag s).drive = s.drive
     ∧ (State.takeEntryDrop h tag s).weigh = s.weigh ∧ (State.takeEntryDrop h tag s).lock = s.lock
     ∧ (State.takeEntryDrop h tag s).comps = s.comps ∧ (State.takeEntryDrop h tag s).journal = s.journal
     ∧ (State.takeEntryDrop h tag s).inter = s.inter := by
  simp only [State.takeEntryDrop]
  (repeat' split) <;> simp

@[simp] theorem State.takeEntryGet_frame (h : Header) (f : EntryGetFields) (s : State) :
    (State.takeEntryGet h f s).pending = s.pending ∧ (State.takeEntryGet h f s).variant = s.variant
     ∧ (State.takeEntryGet h f s).pins = s.pins ∧ (State.takeEntryGet h f s).settings = s.settings
     ∧ (State.takeEntryGet h f s).lcc = s.lcc ∧ (State.takeEntryGet h f s).chans = s.chans
     ∧ (State.takeEntryGet h f s).store = s.store ∧ (State.takeEntryGet h f s).shadow = s.shadow
     ∧ (State.takeEntryGet h f s).slotMap = s.slotMap ∧ (State.takeEntryGet h f s).drive = s.drive
     ∧ (State.takeEntryGet h f s).weigh = s.weigh ∧ (State.takeEntryGet h f s).lock = s.lock
     ∧ (State.takeEntryGet h f s).houses = s.houses ∧ (State.takeEntryGet h f s).comps = s.comps
     ∧ (State.takeEntryGet h f s).journal = s.journal ∧ (State.takeEntryGet h f s).inter = s.inter := by
  simp only [State.takeEntryGet]
  (repeat' split) <;> simp

@[simp] theorem State.takeTableClear_frame (h : Header) (s : State) :
    (State.takeTableClear h s).pending = s.pending ∧ (State.takeTableClear h s).variant = s.variant
     ∧ (State.takeTableClear h s).pins = s.pins ∧ (State.takeTableClear h s).settings = s.settings
     ∧ (State.takeTableClear h s).lcc = s.lcc ∧ (State.takeTableClear h s).chans = s.chans
     ∧ (State.takeTableClear h s).store = s.store ∧ (State.takeTableClear h s).shadow = s.shadow
     ∧ (State.takeTableClear h s).slotMap = s.slotMap ∧ (State.takeTableClear h s).drive = s.drive
     ∧ (State.takeTableClear h s).weigh = s.weigh ∧ (State.takeTableClear h s).lock = s.lock
     ∧ (State.takeTableClear h s).comps = s.comps ∧ (State.takeTableClear h s).journal = s.journal
     ∧ (State.takeTableClear h s).inter = s.inter := by
  simp only [State.takeTableClear]
  (repeat' split) <;> simp

@[simp] theorem State.takeTableReady_frame (h : Header) (s : State) :
    (State.takeTableReady h s).pending = s.pending ∧ (State.takeTableReady h s).variant = s.variant
     ∧ (State.takeTableReady h s).pins = s.pins ∧ (State.takeTableReady h s).settings = s.settings
     ∧ (State.takeTableReady h s).lcc = s.lcc ∧ (State.takeTableReady h s).chans = s.chans
     ∧ (State.takeTableReady h s).store = s.store ∧ (State.takeTableReady h s).shadow = s.shadow
     ∧ (State.takeTableReady h s).slotMap = s.slotMap ∧ (State.takeTableReady h s).drive = s.drive
     ∧ (State.takeTableReady h s).weigh = s.weigh ∧ (State.takeTableReady h s).lock = s.lock
     ∧ (State.takeTableReady h s).comps = s.comps ∧ (State.takeTableReady h s).journal = s.journal
     ∧ (State.takeTableReady h s).inter = s.inter := by
  simp [State.takeTableReady]

@[simp] theorem State.readRecord_frame (h : Header) (n : Nat) (s : State) :
    (State.readRecord h n s).pending = s.pending ∧ (State.readRecord h n s).variant = s.variant
     ∧ (State.readRecord h n s).pins = s.pins ∧ (State.readRecord h n s).settings = s.settings
     ∧ (State.readRecord h n s).lcc = s.lcc ∧ (State.readRecord h n s).chans = s.chans
     ∧ (State.readRecord h n s).store = s.store ∧ (State.readRecord h n s).shadow = s.shadow
     ∧ (State.readRecord h n s).slotMap = s.slotMap ∧ (State.readRecord h n s).drive = s.drive
     ∧ (State.readRecord h n s).weigh = s.weigh ∧ (State.readRecord h n s).lock = s.lock
     ∧ (State.readRecord h n s).houses = s.houses ∧ (State.readRecord h n s).comps = s.comps
     ∧ (State.readRecord h n s).journal = s.journal ∧ (State.readRecord h n s).inter = s.inter := by
  simp only [State.readRecord]
  (repeat' split) <;> simp

@[simp] theorem State.takeJournalRead_frame (h : Header) (f : JournalReadFields) (s : State) :
    (State.takeJournalRead h f s).pending = s.pending ∧ (State.takeJournalRead h f s).variant = s.variant
     ∧ (State.takeJournalRead h f s).pins = s.pins ∧ (State.takeJournalRead h f s).settings = s.settings
     ∧ (State.takeJournalRead h f s).lcc = s.lcc ∧ (State.takeJournalRead h f s).chans = s.chans
     ∧ (State.takeJournalRead h f s).store = s.store ∧ (State.takeJournalRead h f s).shadow = s.shadow
     ∧ (State.takeJournalRead h f s).slotMap = s.slotMap ∧ (State.takeJournalRead h f s).drive = s.drive
     ∧ (State.takeJournalRead h f s).weigh = s.weigh ∧ (State.takeJournalRead h f s).lock = s.lock
     ∧ (State.takeJournalRead h f s).houses = s.houses ∧ (State.takeJournalRead h f s).comps = s.comps
     ∧ (State.takeJournalRead h f s).journal = s.journal ∧ (State.takeJournalRead h f s).inter = s.inter := by
  simp only [State.takeJournalRead]
  (repeat' split) <;> simp

@[simp] theorem State.takeJournalRelease_frame (h : Header) (w : Word32) (s : State) :
    (State.takeJournalRelease h w s).pending = s.pending ∧ (State.takeJournalRelease h w s).variant = s.variant
     ∧ (State.takeJournalRelease h w s).pins = s.pins ∧ (State.takeJournalRelease h w s).settings = s.settings
     ∧ (State.takeJournalRelease h w s).lcc = s.lcc ∧ (State.takeJournalRelease h w s).chans = s.chans
     ∧ (State.takeJournalRelease h w s).store = s.store ∧ (State.takeJournalRelease h w s).shadow = s.shadow
     ∧ (State.takeJournalRelease h w s).slotMap = s.slotMap ∧ (State.takeJournalRelease h w s).drive = s.drive
     ∧ (State.takeJournalRelease h w s).weigh = s.weigh ∧ (State.takeJournalRelease h w s).lock = s.lock
     ∧ (State.takeJournalRelease h w s).houses = s.houses ∧ (State.takeJournalRelease h w s).comps = s.comps
     ∧ (State.takeJournalRelease h w s).inter = s.inter := by
  simp only [State.takeJournalRelease, State.startRelease]
  (repeat' split) <;> simp

@[simp] theorem State.takeTimeSet_frame (h : Header) (w : Word32) (s : State) :
    (State.takeTimeSet h w s).pending = s.pending ∧ (State.takeTimeSet h w s).variant = s.variant
     ∧ (State.takeTimeSet h w s).pins = s.pins ∧ (State.takeTimeSet h w s).settings = s.settings
     ∧ (State.takeTimeSet h w s).lcc = s.lcc ∧ (State.takeTimeSet h w s).chans = s.chans
     ∧ (State.takeTimeSet h w s).store = s.store ∧ (State.takeTimeSet h w s).shadow = s.shadow
     ∧ (State.takeTimeSet h w s).slotMap = s.slotMap ∧ (State.takeTimeSet h w s).drive = s.drive
     ∧ (State.takeTimeSet h w s).weigh = s.weigh ∧ (State.takeTimeSet h w s).lock = s.lock
     ∧ (State.takeTimeSet h w s).houses = s.houses ∧ (State.takeTimeSet h w s).comps = s.comps
     ∧ (State.takeTimeSet h w s).journal = s.journal := by
  simp only [State.takeTimeSet]
  (repeat' split) <;> simp

@[simp] theorem State.takeSlotMap_frame (h : Header) (l : List (Byte × Byte)) (s : State) :
    (State.takeSlotMap h l s).pending = s.pending ∧ (State.takeSlotMap h l s).variant = s.variant
     ∧ (State.takeSlotMap h l s).pins = s.pins ∧ (State.takeSlotMap h l s).settings = s.settings
     ∧ (State.takeSlotMap h l s).lcc = s.lcc ∧ (State.takeSlotMap h l s).chans = s.chans
     ∧ (State.takeSlotMap h l s).store = s.store ∧ (State.takeSlotMap h l s).shadow = s.shadow
     ∧ (State.takeSlotMap h l s).drive = s.drive ∧ (State.takeSlotMap h l s).weigh = s.weigh
     ∧ (State.takeSlotMap h l s).lock = s.lock ∧ (State.takeSlotMap h l s).houses = s.houses
     ∧ (State.takeSlotMap h l s).comps = s.comps ∧ (State.takeSlotMap h l s).journal = s.journal
     ∧ (State.takeSlotMap h l s).inter = s.inter := by
  simp only [State.takeSlotMap]
  (repeat' split) <;> simp

@[simp] theorem State.useSettings_frame (s : State) (l : List (Setting × Nat)) :
    (s.useSettings l).pending = s.pending ∧ (s.useSettings l).variant = s.variant ∧ (s.useSettings l).pins = s.pins
     ∧ (s.useSettings l).settings = s.settings ∧ (s.useSettings l).lcc = s.lcc ∧ (s.useSettings l).store = s.store
     ∧ (s.useSettings l).shadow = s.shadow ∧ (s.useSettings l).slotMap = s.slotMap ∧ (s.useSettings l).weigh = s.weigh
     ∧ (s.useSettings l).lock = s.lock ∧ (s.useSettings l).houses = s.houses ∧ (s.useSettings l).freeIx = s.freeIx := by
  simp only [State.useSettings]
  (repeat' split) <;> simp

@[simp] theorem State.takeSettingPut_frame (h : Header) (l : List (Byte × BitVec 16)) (s : State) :
    (State.takeSettingPut h l s).pending = s.pending ∧ (State.takeSettingPut h l s).variant = s.variant
     ∧ (State.takeSettingPut h l s).pins = s.pins ∧ (State.takeSettingPut h l s).lcc = s.lcc
     ∧ (State.takeSettingPut h l s).store = s.store ∧ (State.takeSettingPut h l s).shadow = s.shadow
     ∧ (State.takeSettingPut h l s).slotMap = s.slotMap ∧ (State.takeSettingPut h l s).weigh = s.weigh
     ∧ (State.takeSettingPut h l s).lock = s.lock ∧ (State.takeSettingPut h l s).houses = s.houses := by
  simp only [State.takeSettingPut, State.applySettings]
  (repeat' split) <;> simp

@[simp] theorem State.takeSettingGet_frame (h : Header) (b : Byte) (s : State) :
    (State.takeSettingGet h b s).pending = s.pending ∧ (State.takeSettingGet h b s).variant = s.variant
     ∧ (State.takeSettingGet h b s).pins = s.pins ∧ (State.takeSettingGet h b s).settings = s.settings
     ∧ (State.takeSettingGet h b s).lcc = s.lcc ∧ (State.takeSettingGet h b s).chans = s.chans
     ∧ (State.takeSettingGet h b s).store = s.store ∧ (State.takeSettingGet h b s).shadow = s.shadow
     ∧ (State.takeSettingGet h b s).slotMap = s.slotMap ∧ (State.takeSettingGet h b s).drive = s.drive
     ∧ (State.takeSettingGet h b s).weigh = s.weigh ∧ (State.takeSettingGet h b s).lock = s.lock
     ∧ (State.takeSettingGet h b s).houses = s.houses ∧ (State.takeSettingGet h b s).comps = s.comps
     ∧ (State.takeSettingGet h b s).journal = s.journal ∧ (State.takeSettingGet h b s).inter = s.inter := by
  simp only [State.takeSettingGet]
  (repeat' split) <;> simp

@[simp] theorem State.takeFreeze_frame (h : Header) (s : State) :
    (State.takeFreeze h s).pending = s.pending ∧ (State.takeFreeze h s).variant = s.variant
     ∧ (State.takeFreeze h s).pins = s.pins ∧ (State.takeFreeze h s).settings = s.settings
     ∧ (State.takeFreeze h s).lcc = s.lcc ∧ (State.takeFreeze h s).chans = s.chans
     ∧ (State.takeFreeze h s).store = s.store ∧ (State.takeFreeze h s).shadow = s.shadow
     ∧ (State.takeFreeze h s).slotMap = s.slotMap ∧ (State.takeFreeze h s).drive = s.drive
     ∧ (State.takeFreeze h s).weigh = s.weigh ∧ (State.takeFreeze h s).houses = s.houses
     ∧ (State.takeFreeze h s).comps = s.comps ∧ (State.takeFreeze h s).journal = s.journal
     ∧ (State.takeFreeze h s).inter = s.inter := by
  simp only [State.takeFreeze, State.lockRequest]
  (repeat' split) <;> simp

@[simp] theorem State.takeOpen_frame (h : Header) (f : OpenLockFields) (s : State) :
    (State.takeOpen h f s).pending = s.pending ∧ (State.takeOpen h f s).variant = s.variant
     ∧ (State.takeOpen h f s).pins = s.pins ∧ (State.takeOpen h f s).settings = s.settings
     ∧ (State.takeOpen h f s).lcc = s.lcc ∧ (State.takeOpen h f s).chans = s.chans
     ∧ (State.takeOpen h f s).store = s.store ∧ (State.takeOpen h f s).shadow = s.shadow
     ∧ (State.takeOpen h f s).slotMap = s.slotMap ∧ (State.takeOpen h f s).drive = s.drive
     ∧ (State.takeOpen h f s).weigh = s.weigh ∧ (State.takeOpen h f s).houses = s.houses
     ∧ (State.takeOpen h f s).comps = s.comps ∧ (State.takeOpen h f s).journal = s.journal
     ∧ (State.takeOpen h f s).inter = s.inter := by
  simp only [State.takeOpen, State.lockRequest]
  (repeat' split) <;> simp

@[simp] theorem State.takeClose_frame (h : Header) (s : State) :
    (State.takeClose h s).pending = s.pending ∧ (State.takeClose h s).variant = s.variant
     ∧ (State.takeClose h s).pins = s.pins ∧ (State.takeClose h s).settings = s.settings
     ∧ (State.takeClose h s).lcc = s.lcc ∧ (State.takeClose h s).chans = s.chans
     ∧ (State.takeClose h s).store = s.store ∧ (State.takeClose h s).shadow = s.shadow
     ∧ (State.takeClose h s).slotMap = s.slotMap ∧ (State.takeClose h s).drive = s.drive
     ∧ (State.takeClose h s).weigh = s.weigh ∧ (State.takeClose h s).houses = s.houses
     ∧ (State.takeClose h s).comps = s.comps ∧ (State.takeClose h s).journal = s.journal
     ∧ (State.takeClose h s).inter = s.inter := by
  simp only [State.takeClose, State.lockRequest, State.unlessWriting]
  (repeat' split) <;> simp

@[simp] theorem State.takeSetCode_frame (h : Header) (f : SetCodeFields) (s : State) :
    (State.takeSetCode h f s).pending = s.pending ∧ (State.takeSetCode h f s).variant = s.variant
     ∧ (State.takeSetCode h f s).pins = s.pins ∧ (State.takeSetCode h f s).settings = s.settings
     ∧ (State.takeSetCode h f s).lcc = s.lcc ∧ (State.takeSetCode h f s).chans = s.chans
     ∧ (State.takeSetCode h f s).store = s.store ∧ (State.takeSetCode h f s).shadow = s.shadow
     ∧ (State.takeSetCode h f s).slotMap = s.slotMap ∧ (State.takeSetCode h f s).drive = s.drive
     ∧ (State.takeSetCode h f s).weigh = s.weigh ∧ (State.takeSetCode h f s).houses = s.houses
     ∧ (State.takeSetCode h f s).comps = s.comps ∧ (State.takeSetCode h f s).journal = s.journal
     ∧ (State.takeSetCode h f s).inter = s.inter := by
  simp only [State.takeSetCode, State.lockRequest, State.openRequest, State.unlessWriting]
  (repeat' split) <;> simp

@[simp] theorem State.setWorking_frame (s : State) (p : Params) :
    (s.setWorking p).pending = s.pending ∧ (s.setWorking p).variant = s.variant ∧ (s.setWorking p).pins = s.pins
     ∧ (s.setWorking p).links = s.links ∧ (s.setWorking p).settings = s.settings ∧ (s.setWorking p).lcc = s.lcc
     ∧ (s.setWorking p).chans = s.chans ∧ (s.setWorking p).store = s.store ∧ (s.setWorking p).shadow = s.shadow
     ∧ (s.setWorking p).slotMap = s.slotMap ∧ (s.setWorking p).drive = s.drive ∧ (s.setWorking p).houses = s.houses
     ∧ (s.setWorking p).comps = s.comps ∧ (s.setWorking p).journal = s.journal ∧ (s.setWorking p).inter = s.inter
     ∧ (s.setWorking p).freeIx = s.freeIx := by
  simp only [State.setWorking]
  (repeat' split) <;> simp

@[simp] theorem State.takeTrialSet_frame (h : Header) (l : List (Byte × Word32)) (s : State) :
    (State.takeTrialSet h l s).pending = s.pending ∧ (State.takeTrialSet h l s).variant = s.variant
     ∧ (State.takeTrialSet h l s).pins = s.pins ∧ (State.takeTrialSet h l s).settings = s.settings
     ∧ (State.takeTrialSet h l s).lcc = s.lcc ∧ (State.takeTrialSet h l s).chans = s.chans
     ∧ (State.takeTrialSet h l s).store = s.store ∧ (State.takeTrialSet h l s).shadow = s.shadow
     ∧ (State.takeTrialSet h l s).slotMap = s.slotMap ∧ (State.takeTrialSet h l s).drive = s.drive
     ∧ (State.takeTrialSet h l s).houses = s.houses ∧ (State.takeTrialSet h l s).comps = s.comps
     ∧ (State.takeTrialSet h l s).journal = s.journal ∧ (State.takeTrialSet h l s).inter = s.inter := by
  simp only [State.takeTrialSet, State.lockRequest, State.openRequest, State.unlessWriting]
  (repeat' split) <;> simp

@[simp] theorem State.takeTrialDiscard_frame (h : Header) (s : State) :
    (State.takeTrialDiscard h s).pending = s.pending ∧ (State.takeTrialDiscard h s).variant = s.variant
     ∧ (State.takeTrialDiscard h s).pins = s.pins ∧ (State.takeTrialDiscard h s).settings = s.settings
     ∧ (State.takeTrialDiscard h s).lcc = s.lcc ∧ (State.takeTrialDiscard h s).chans = s.chans
     ∧ (State.takeTrialDiscard h s).store = s.store ∧ (State.takeTrialDiscard h s).shadow = s.shadow
     ∧ (State.takeTrialDiscard h s).slotMap = s.slotMap ∧ (State.takeTrialDiscard h s).drive = s.drive
     ∧ (State.takeTrialDiscard h s).houses = s.houses ∧ (State.takeTrialDiscard h s).comps = s.comps
     ∧ (State.takeTrialDiscard h s).journal = s.journal ∧ (State.takeTrialDiscard h s).inter = s.inter := by
  simp only [State.takeTrialDiscard, State.lockRequest, State.openRequest, State.unlessWriting]
  (repeat' split) <;> simp

@[simp] theorem State.takeCommit_frame (h : Header) (s : State) :
    (State.takeCommit h s).pending = s.pending ∧ (State.takeCommit h s).variant = s.variant
     ∧ (State.takeCommit h s).pins = s.pins ∧ (State.takeCommit h s).settings = s.settings
     ∧ (State.takeCommit h s).lcc = s.lcc ∧ (State.takeCommit h s).chans = s.chans
     ∧ (State.takeCommit h s).store = s.store ∧ (State.takeCommit h s).shadow = s.shadow
     ∧ (State.takeCommit h s).slotMap = s.slotMap ∧ (State.takeCommit h s).drive = s.drive
     ∧ (State.takeCommit h s).weigh = s.weigh ∧ (State.takeCommit h s).houses = s.houses
     ∧ (State.takeCommit h s).comps = s.comps ∧ (State.takeCommit h s).inter = s.inter := by
  simp only [State.takeCommit, State.lockRequest, State.openRequest, State.unlessWriting, State.startCommit]
  (repeat' split) <;> simp

@[simp] theorem State.takeServiceZero_frame (h : Header) (s : State) :
    (State.takeServiceZero h s).pending = s.pending ∧ (State.takeServiceZero h s).variant = s.variant
     ∧ (State.takeServiceZero h s).pins = s.pins ∧ (State.takeServiceZero h s).settings = s.settings
     ∧ (State.takeServiceZero h s).lcc = s.lcc ∧ (State.takeServiceZero h s).chans = s.chans
     ∧ (State.takeServiceZero h s).store = s.store ∧ (State.takeServiceZero h s).shadow = s.shadow
     ∧ (State.takeServiceZero h s).slotMap = s.slotMap ∧ (State.takeServiceZero h s).drive = s.drive
     ∧ (State.takeServiceZero h s).houses = s.houses ∧ (State.takeServiceZero h s).comps = s.comps
     ∧ (State.takeServiceZero h s).journal = s.journal ∧ (State.takeServiceZero h s).inter = s.inter := by
  simp only [State.takeServiceZero, State.lockRequest, State.openRequest, State.zeroByHand]
  (repeat' split) <;> simp

@[simp] theorem State.takeAttrRead_frame (h : Header) (s : State) :
    (State.takeAttrRead h s).pending = s.pending ∧ (State.takeAttrRead h s).variant = s.variant
     ∧ (State.takeAttrRead h s).pins = s.pins ∧ (State.takeAttrRead h s).settings = s.settings
     ∧ (State.takeAttrRead h s).lcc = s.lcc ∧ (State.takeAttrRead h s).chans = s.chans
     ∧ (State.takeAttrRead h s).store = s.store ∧ (State.takeAttrRead h s).shadow = s.shadow
     ∧ (State.takeAttrRead h s).slotMap = s.slotMap ∧ (State.takeAttrRead h s).drive = s.drive
     ∧ (State.takeAttrRead h s).weigh = s.weigh ∧ (State.takeAttrRead h s).lock = s.lock
     ∧ (State.takeAttrRead h s).houses = s.houses ∧ (State.takeAttrRead h s).comps = s.comps
     ∧ (State.takeAttrRead h s).journal = s.journal ∧ (State.takeAttrRead h s).inter = s.inter := by
  simp only [State.takeAttrRead, State.lockRequest]
  (repeat' split) <;> simp

@[simp] theorem State.startStoreJob_frame (s : State) (h : Header) (k : Byte) (j : StoreJob) :
    (s.startStoreJob h k j).pending = s.pending ∧ (s.startStoreJob h k j).variant = s.variant
     ∧ (s.startStoreJob h k j).pins = s.pins ∧ (s.startStoreJob h k j).settings = s.settings
     ∧ (s.startStoreJob h k j).lcc = s.lcc ∧ (s.startStoreJob h k j).chans = s.chans
     ∧ (s.startStoreJob h k j).shadow = s.shadow ∧ (s.startStoreJob h k j).slotMap = s.slotMap
     ∧ (s.startStoreJob h k j).drive = s.drive ∧ (s.startStoreJob h k j).weigh = s.weigh
     ∧ (s.startStoreJob h k j).lock = s.lock ∧ (s.startStoreJob h k j).houses = s.houses
     ∧ (s.startStoreJob h k j).comps = s.comps ∧ (s.startStoreJob h k j).journal = s.journal
     ∧ (s.startStoreJob h k j).inter = s.inter := by
  simp only [State.startStoreJob]
  (repeat' split) <;> simp

@[simp] theorem State.takeProfileWrite_frame (h : Header) (f : ProfileWriteFields) (s : State) :
    (State.takeProfileWrite h f s).pending = s.pending ∧ (State.takeProfileWrite h f s).variant = s.variant
     ∧ (State.takeProfileWrite h f s).pins = s.pins ∧ (State.takeProfileWrite h f s).settings = s.settings
     ∧ (State.takeProfileWrite h f s).lcc = s.lcc ∧ (State.takeProfileWrite h f s).chans = s.chans
     ∧ (State.takeProfileWrite h f s).shadow = s.shadow ∧ (State.takeProfileWrite h f s).slotMap = s.slotMap
     ∧ (State.takeProfileWrite h f s).drive = s.drive ∧ (State.takeProfileWrite h f s).weigh = s.weigh
     ∧ (State.takeProfileWrite h f s).lock = s.lock ∧ (State.takeProfileWrite h f s).houses = s.houses
     ∧ (State.takeProfileWrite h f s).comps = s.comps ∧ (State.takeProfileWrite h f s).journal = s.journal
     ∧ (State.takeProfileWrite h f s).inter = s.inter := by
  simp only [State.takeProfileWrite, State.storeRequest]
  (repeat' split) <;> simp

@[simp] theorem State.takeProfileErase_frame (h : Header) (b : Byte) (s : State) :
    (State.takeProfileErase h b s).pending = s.pending ∧ (State.takeProfileErase h b s).variant = s.variant
     ∧ (State.takeProfileErase h b s).pins = s.pins ∧ (State.takeProfileErase h b s).settings = s.settings
     ∧ (State.takeProfileErase h b s).lcc = s.lcc ∧ (State.takeProfileErase h b s).chans = s.chans
     ∧ (State.takeProfileErase h b s).shadow = s.shadow ∧ (State.takeProfileErase h b s).slotMap = s.slotMap
     ∧ (State.takeProfileErase h b s).drive = s.drive ∧ (State.takeProfileErase h b s).weigh = s.weigh
     ∧ (State.takeProfileErase h b s).lock = s.lock ∧ (State.takeProfileErase h b s).houses = s.houses
     ∧ (State.takeProfileErase h b s).comps = s.comps ∧ (State.takeProfileErase h b s).journal = s.journal
     ∧ (State.takeProfileErase h b s).inter = s.inter := by
  simp only [State.takeProfileErase, State.storeRequest]
  (repeat' split) <;> simp

@[simp] theorem State.takeShadowLoad_frame (h : Header) (s : State) :
    (State.takeShadowLoad h s).pending = s.pending ∧ (State.takeShadowLoad h s).variant = s.variant
     ∧ (State.takeShadowLoad h s).pins = s.pins ∧ (State.takeShadowLoad h s).settings = s.settings
     ∧ (State.takeShadowLoad h s).lcc = s.lcc ∧ (State.takeShadowLoad h s).chans = s.chans
     ∧ (State.takeShadowLoad h s).store = s.store ∧ (State.takeShadowLoad h s).slotMap = s.slotMap
     ∧ (State.takeShadowLoad h s).drive = s.drive ∧ (State.takeShadowLoad h s).weigh = s.weigh
     ∧ (State.takeShadowLoad h s).lock = s.lock ∧ (State.takeShadowLoad h s).houses = s.houses
     ∧ (State.takeShadowLoad h s).comps = s.comps ∧ (State.takeShadowLoad h s).journal = s.journal
     ∧ (State.takeShadowLoad h s).inter = s.inter := by
  simp only [State.takeShadowLoad, State.storeRequest]
  (repeat' split) <;> simp

@[simp] theorem State.takeChassis_frame (f : ChassisFields) (s : State) :
    (State.takeChassis f s).pending = s.pending ∧ (State.takeChassis f s).variant = s.variant
     ∧ (State.takeChassis f s).pins = s.pins ∧ (State.takeChassis f s).settings = s.settings
     ∧ (State.takeChassis f s).store = s.store ∧ (State.takeChassis f s).shadow = s.shadow
     ∧ (State.takeChassis f s).slotMap = s.slotMap ∧ (State.takeChassis f s).lock = s.lock
     ∧ (State.takeChassis f s).houses = s.houses ∧ (State.takeChassis f s).comps = s.comps
     ∧ (State.takeChassis f s).journal = s.journal ∧ (State.takeChassis f s).freeIx = s.freeIx := by
  simp [State.takeChassis]

/-! ## Events and completions -/

@[simp] theorem State.receive_frame (s : State) (f : RawFrame) :
    (s.receive f).pending = s.pending ∧ (s.receive f).variant = s.variant ∧ (s.receive f).pins = s.pins
     ∧ (s.receive f).settings = s.settings ∧ (s.receive f).lcc = s.lcc ∧ (s.receive f).chans = s.chans
     ∧ (s.receive f).store = s.store ∧ (s.receive f).shadow = s.shadow ∧ (s.receive f).slotMap = s.slotMap
     ∧ (s.receive f).drive = s.drive ∧ (s.receive f).weigh = s.weigh ∧ (s.receive f).lock = s.lock
     ∧ (s.receive f).houses = s.houses ∧ (s.receive f).comps = s.comps ∧ (s.receive f).journal = s.journal
     ∧ (s.receive f).inter = s.inter := by
  simp only [State.receive]
  (repeat' split) <;> simp

@[simp] theorem State.lineFrame_frame (s : State) (l : Line) (b : List Byte) :
    (s.lineFrame l b).pending = s.pending ∧ (s.lineFrame l b).variant = s.variant ∧ (s.lineFrame l b).pins = s.pins
     ∧ (s.lineFrame l b).settings = s.settings ∧ (s.lineFrame l b).lcc = s.lcc ∧ (s.lineFrame l b).chans = s.chans
     ∧ (s.lineFrame l b).store = s.store ∧ (s.lineFrame l b).shadow = s.shadow ∧ (s.lineFrame l b).slotMap = s.slotMap
     ∧ (s.lineFrame l b).drive = s.drive ∧ (s.lineFrame l b).weigh = s.weigh ∧ (s.lineFrame l b).lock = s.lock
     ∧ (s.lineFrame l b).comps = s.comps ∧ (s.lineFrame l b).journal = s.journal ∧ (s.lineFrame l b).inter = s.inter := by
  simp only [State.lineFrame]
  (repeat' split) <;> simp

@[simp] theorem State.lineByte_frame (s : State) (l : Line) (b : Byte) :
    (s.lineByte l b).pending = s.pending ∧ (s.lineByte l b).variant = s.variant ∧ (s.lineByte l b).pins = s.pins
     ∧ (s.lineByte l b).settings = s.settings ∧ (s.lineByte l b).lcc = s.lcc ∧ (s.lineByte l b).chans = s.chans
     ∧ (s.lineByte l b).store = s.store ∧ (s.lineByte l b).shadow = s.shadow ∧ (s.lineByte l b).slotMap = s.slotMap
     ∧ (s.lineByte l b).drive = s.drive ∧ (s.lineByte l b).weigh = s.weigh ∧ (s.lineByte l b).lock = s.lock
     ∧ (s.lineByte l b).comps = s.comps ∧ (s.lineByte l b).journal = s.journal ∧ (s.lineByte l b).inter = s.inter := by
  simp only [State.lineByte]
  (repeat' split) <;> simp

@[simp] theorem State.readSettings_frame (s : State) :
    (s.readSettings).pending = s.pending ∧ (s.readSettings).variant = s.variant ∧ (s.readSettings).pins = s.pins
     ∧ (s.readSettings).lcc = s.lcc ∧ (s.readSettings).chans = s.chans ∧ (s.readSettings).store = s.store
     ∧ (s.readSettings).shadow = s.shadow ∧ (s.readSettings).slotMap = s.slotMap ∧ (s.readSettings).weigh = s.weigh
     ∧ (s.readSettings).lock = s.lock ∧ (s.readSettings).houses = s.houses ∧ (s.readSettings).comps = s.comps
     ∧ (s.readSettings).journal = s.journal ∧ (s.readSettings).inter = s.inter ∧ (s.readSettings).freeIx = s.freeIx := by
  simp only [State.readSettings]
  (repeat' split) <;> simp

@[simp] theorem State.readMetrology_frame (s : State) :
    (s.readMetrology).pending = s.pending ∧ (s.readMetrology).variant = s.variant ∧ (s.readMetrology).pins = s.pins
     ∧ (s.readMetrology).links = s.links ∧ (s.readMetrology).settings = s.settings ∧ (s.readMetrology).lcc = s.lcc
     ∧ (s.readMetrology).chans = s.chans ∧ (s.readMetrology).store = s.store ∧ (s.readMetrology).shadow = s.shadow
     ∧ (s.readMetrology).slotMap = s.slotMap ∧ (s.readMetrology).drive = s.drive ∧ (s.readMetrology).houses = s.houses
     ∧ (s.readMetrology).comps = s.comps ∧ (s.readMetrology).journal = s.journal ∧ (s.readMetrology).inter = s.inter
     ∧ (s.readMetrology).freeIx = s.freeIx := by
  simp [State.readMetrology]

@[simp] theorem State.verifyStore_frame (s : State) :
    (s.verifyStore).pending = s.pending ∧ (s.verifyStore).variant = s.variant ∧ (s.verifyStore).pins = s.pins
     ∧ (s.verifyStore).settings = s.settings ∧ (s.verifyStore).lcc = s.lcc ∧ (s.verifyStore).chans = s.chans
     ∧ (s.verifyStore).slotMap = s.slotMap ∧ (s.verifyStore).drive = s.drive ∧ (s.verifyStore).weigh = s.weigh
     ∧ (s.verifyStore).lock = s.lock ∧ (s.verifyStore).houses = s.houses ∧ (s.verifyStore).comps = s.comps
     ∧ (s.verifyStore).journal = s.journal ∧ (s.verifyStore).inter = s.inter ∧ (s.verifyStore).freeIx = s.freeIx := by
  simp only [State.verifyStore]
  (repeat' split) <;> simp

@[simp] theorem State.finishScan_frame (s : State) :
    (s.finishScan).pending = s.pending ∧ (s.finishScan).variant = s.variant ∧ (s.finishScan).pins = s.pins
     ∧ (s.finishScan).settings = s.settings ∧ (s.finishScan).lcc = s.lcc ∧ (s.finishScan).store = s.store
     ∧ (s.finishScan).shadow = s.shadow ∧ (s.finishScan).slotMap = s.slotMap ∧ (s.finishScan).weigh = s.weigh
     ∧ (s.finishScan).lock = s.lock ∧ (s.finishScan).houses = s.houses ∧ (s.finishScan).freeIx = s.freeIx := by
  simp [State.finishScan]

@[simp] theorem State.finishProfileWrite_frame (s : State) :
    (s.finishProfileWrite).pending = s.pending ∧ (s.finishProfileWrite).variant = s.variant
     ∧ (s.finishProfileWrite).pins = s.pins ∧ (s.finishProfileWrite).settings = s.settings
     ∧ (s.finishProfileWrite).lcc = s.lcc ∧ (s.finishProfileWrite).chans = s.chans
     ∧ (s.finishProfileWrite).shadow = s.shadow ∧ (s.finishProfileWrite).slotMap = s.slotMap
     ∧ (s.finishProfileWrite).drive = s.drive ∧ (s.finishProfileWrite).weigh = s.weigh
     ∧ (s.finishProfileWrite).lock = s.lock ∧ (s.finishProfileWrite).houses = s.houses
     ∧ (s.finishProfileWrite).comps = s.comps ∧ (s.finishProfileWrite).journal = s.journal
     ∧ (s.finishProfileWrite).inter = s.inter := by
  simp only [State.finishProfileWrite]
  (repeat' split) <;> simp

@[simp] theorem State.finishProfileErase_frame (s : State) :
    (s.finishProfileErase).pending = s.pending ∧ (s.finishProfileErase).variant = s.variant
     ∧ (s.finishProfileErase).pins = s.pins ∧ (s.finishProfileErase).settings = s.settings
     ∧ (s.finishProfileErase).lcc = s.lcc ∧ (s.finishProfileErase).chans = s.chans
     ∧ (s.finishProfileErase).shadow = s.shadow ∧ (s.finishProfileErase).slotMap = s.slotMap
     ∧ (s.finishProfileErase).drive = s.drive ∧ (s.finishProfileErase).weigh = s.weigh
     ∧ (s.finishProfileErase).lock = s.lock ∧ (s.finishProfileErase).houses = s.houses
     ∧ (s.finishProfileErase).comps = s.comps ∧ (s.finishProfileErase).journal = s.journal
     ∧ (s.finishProfileErase).inter = s.inter := by
  simp only [State.finishProfileErase]
  (repeat' split) <;> simp

@[simp] theorem State.finishShadowLoad_frame (s : State) :
    (s.finishShadowLoad).pending = s.pending ∧ (s.finishShadowLoad).variant = s.variant
     ∧ (s.finishShadowLoad).pins = s.pins ∧ (s.finishShadowLoad).settings = s.settings
     ∧ (s.finishShadowLoad).lcc = s.lcc ∧ (s.finishShadowLoad).slotMap = s.slotMap
     ∧ (s.finishShadowLoad).weigh = s.weigh ∧ (s.finishShadowLoad).lock = s.lock
     ∧ (s.finishShadowLoad).houses = s.houses := by
  simp only [State.finishShadowLoad, State.finishLoad]
  split
  · split <;> rename_i h <;> split at h <;> cases h <;> simp
  all_goals simp

@[simp] theorem State.finishCommit_frame (s : State) :
    (s.finishCommit).pending = s.pending ∧ (s.finishCommit).variant = s.variant ∧ (s.finishCommit).pins = s.pins
     ∧ (s.finishCommit).settings = s.settings ∧ (s.finishCommit).lcc = s.lcc ∧ (s.finishCommit).chans = s.chans
     ∧ (s.finishCommit).store = s.store ∧ (s.finishCommit).shadow = s.shadow ∧ (s.finishCommit).slotMap = s.slotMap
     ∧ (s.finishCommit).drive = s.drive ∧ (s.finishCommit).houses = s.houses ∧ (s.finishCommit).comps = s.comps
     ∧ (s.finishCommit).inter = s.inter := by
  simp only [State.finishCommit]
  (repeat' split) <;> simp

@[simp] theorem State.setPressure_frame (s : State) (c : Compartment) (p : Nat) :
    (s.setPressure c p).pending = s.pending ∧ (s.setPressure c p).variant = s.variant
     ∧ (s.setPressure c p).links = s.links ∧ (s.setPressure c p).settings = s.settings
     ∧ (s.setPressure c p).lcc = s.lcc ∧ (s.setPressure c p).chans = s.chans ∧ (s.setPressure c p).store = s.store
     ∧ (s.setPressure c p).shadow = s.shadow ∧ (s.setPressure c p).slotMap = s.slotMap
     ∧ (s.setPressure c p).drive = s.drive ∧ (s.setPressure c p).weigh = s.weigh ∧ (s.setPressure c p).lock = s.lock
     ∧ (s.setPressure c p).houses = s.houses ∧ (s.setPressure c p).comps = s.comps
     ∧ (s.setPressure c p).journal = s.journal ∧ (s.setPressure c p).inter = s.inter
     ∧ (s.setPressure c p).freeIx = s.freeIx := by
  cases c <;> simp [State.setPressure]

@[simp] theorem State.readPressure_frame (s : State) (c : Compartment) (p : Nat) :
    (s.readPressure c p).pending = s.pending ∧ (s.readPressure c p).variant = s.variant
     ∧ (s.readPressure c p).pins = s.pins ∧ (s.readPressure c p).links = s.links
     ∧ (s.readPressure c p).settings = s.settings ∧ (s.readPressure c p).lcc = s.lcc
     ∧ (s.readPressure c p).chans = s.chans ∧ (s.readPressure c p).store = s.store
     ∧ (s.readPressure c p).shadow = s.shadow ∧ (s.readPressure c p).slotMap = s.slotMap
     ∧ (s.readPressure c p).drive = s.drive ∧ (s.readPressure c p).weigh = s.weigh
     ∧ (s.readPressure c p).lock = s.lock ∧ (s.readPressure c p).houses = s.houses
     ∧ (s.readPressure c p).journal = s.journal ∧ (s.readPressure c p).inter = s.inter
     ∧ (s.readPressure c p).freeIx = s.freeIx := by
  simp only [State.readPressure]
  (repeat' split) <;> simp

@[simp] theorem State.chassisSilent_frame (s : State) :
    (s.chassisSilent).pending = s.pending ∧ (s.chassisSilent).variant = s.variant ∧ (s.chassisSilent).pins = s.pins
     ∧ (s.chassisSilent).settings = s.settings ∧ (s.chassisSilent).store = s.store
     ∧ (s.chassisSilent).shadow = s.shadow ∧ (s.chassisSilent).slotMap = s.slotMap ∧ (s.chassisSilent).lock = s.lock
     ∧ (s.chassisSilent).houses = s.houses ∧ (s.chassisSilent).comps = s.comps ∧ (s.chassisSilent).journal = s.journal
     ∧ (s.chassisSilent).freeIx = s.freeIx := by
  simp [State.chassisSilent]

@[simp] theorem State.expirePermit_frame (s : State) :
    (s.expirePermit).pending = s.pending ∧ (s.expirePermit).variant = s.variant ∧ (s.expirePermit).pins = s.pins
     ∧ (s.expirePermit).settings = s.settings ∧ (s.expirePermit).store = s.store ∧ (s.expirePermit).shadow = s.shadow
     ∧ (s.expirePermit).slotMap = s.slotMap ∧ (s.expirePermit).lock = s.lock ∧ (s.expirePermit).houses = s.houses
     ∧ (s.expirePermit).comps = s.comps ∧ (s.expirePermit).journal = s.journal ∧ (s.expirePermit).freeIx = s.freeIx := by
  simp [State.expirePermit]

@[simp] theorem State.changePto_frame (s : State) (on : Bool) :
    (s.changePto on).pending = s.pending ∧ (s.changePto on).variant = s.variant ∧ (s.changePto on).pins = s.pins
     ∧ (s.changePto on).settings = s.settings ∧ (s.changePto on).store = s.store ∧ (s.changePto on).shadow = s.shadow
     ∧ (s.changePto on).slotMap = s.slotMap ∧ (s.changePto on).lock = s.lock ∧ (s.changePto on).houses = s.houses
     ∧ (s.changePto on).freeIx = s.freeIx := by
  simp only [State.changePto]
  (repeat' split) <;> simp

@[simp] theorem State.watchInput_frame (s : State) (w : WatchedInput) (v : Bool) :
    (s.watchInput w v).pending = s.pending ∧ (s.watchInput w v).variant = s.variant
     ∧ (s.watchInput w v).settings = s.settings ∧ (s.watchInput w v).lcc = s.lcc ∧ (s.watchInput w v).chans = s.chans
     ∧ (s.watchInput w v).store = s.store ∧ (s.watchInput w v).shadow = s.shadow
     ∧ (s.watchInput w v).slotMap = s.slotMap ∧ (s.watchInput w v).drive = s.drive
     ∧ (s.watchInput w v).weigh = s.weigh ∧ (s.watchInput w v).lock = s.lock ∧ (s.watchInput w v).houses = s.houses
     ∧ (s.watchInput w v).comps = s.comps ∧ (s.watchInput w v).journal = s.journal
     ∧ (s.watchInput w v).freeIx = s.freeIx := by
  simp only [State.watchInput]
  (repeat' split) <;> simp

end Sys2Proof.Machine
end

