-- ==== Sys2Proof/Laws/Ops.lean ====
section
/-! SUPPORT. What the shared operations do: the ports and the answers, a request and its owner, one channel and the channels
of a list. -/

namespace Sys2Proof.Machine

/-! ## Ports -/

@[simp] theorem State.port_setPort_same (s : State) (p : Port) (x : PortState) : (s.setPort p x).port p = x := by
  cases p <;> rfl

theorem State.port_setPort_other (s : State) (p q : Port) (x : PortState) (h : q ≠ p) :
    (s.setPort p x).port q = s.port q := by
  cases p <;> cases q <;> first | rfl | exact absurd rfl h

@[simp] theorem State.port_setPort (s : State) (p q : Port) (x : PortState) :
    (s.setPort p x).port q = if q = p then x else s.port q := by
  split
  · subst q; simp
  · exact State.port_setPort_other s p q x ‹_›

/-- Replacing a port leaves the two lines' partial frames. -/
@[simp] theorem State.setPort_partial (s : State) (p : Port) (x : PortState) :
    (s.setPort p x).links.servicePartial = s.links.servicePartial
      ∧ (s.setPort p x).links.tagPartial = s.links.tagPartial := by
  cases p <;> exact ⟨rfl, rfl⟩

theorem State.setPort_setPort (s : State) (p : Port) (x y : PortState) : (s.setPort p x).setPort p y = s.setPort p y := by
  cases p <;> rfl

@[simp] theorem State.setPort_self (s : State) (p : Port) : s.setPort p (s.port p) = s := by
  cases p <;> rfl

/-- A state whose ports are those of another state, as far as replacing blocks goes. -/
theorem State.port_of_links {s t : State} (h : t.links = s.links) (p : Port) : t.port p = s.port p := by
  cases p <;> simp [State.port, h]

/-! ## The part of the state that a request's owner may change -/

@[simp] theorem State.core_setLinks (s : State) (l : Links) : (s.setLinks l).core = s.core := rfl
@[simp] theorem State.core_setFreeIx (s : State) (n : Nat) : (s.setFreeIx n).core = s.core := rfl
@[simp] theorem State.core_setPort (s : State) (p : Port) (x : PortState) : (s.setPort p x).core = s.core := by
  cases p <;> rfl

/-- Two states with the same core agree on every block but the Link Ports and the count of free values. -/
theorem State.core_eq_iff (s t : State) :
    t.core = s.core ↔ t.pending = s.pending ∧ t.variant = s.variant ∧ t.pins = s.pins ∧ t.settings = s.settings
      ∧ t.lcc = s.lcc ∧ t.chans = s.chans ∧ t.store = s.store ∧ t.shadow = s.shadow ∧ t.slotMap = s.slotMap
      ∧ t.drive = s.drive ∧ t.weigh = s.weigh ∧ t.lock = s.lock ∧ t.houses = s.houses ∧ t.comps = s.comps
      ∧ t.journal = s.journal ∧ t.inter = s.inter := by
  simp [State.core, State.setLinks, State.setFreeIx]

@[simp] theorem State.core_answer (s : State) (h : Header) (k : Byte) (c : Code) (d : AnswerData) :
    (s.answer h k c d).core = s.core := by simp [State.core_eq_iff]
@[simp] theorem State.core_indicate (s : State) (i : Indication) : (s.indicate i).core = s.core := by
  simp [State.core_eq_iff]
@[simp] theorem State.core_alert (s : State) (a : Alert) : (s.alert a).core = s.core := by simp [State.core_eq_iff]
@[simp] theorem State.core_sendPayload (s : State) (m : PayloadMsg) : (s.sendPayload m).core = s.core := by
  simp [State.core_eq_iff]
@[simp] theorem State.core_refuse (s : State) (h : Header) (r : Request) (c : Code) : (s.refuse h r c).core = s.core := by
  simp [State.core_eq_iff]
@[simp] theorem State.core_defer (s : State) (h : Header) (k : Byte) : (s.defer h k).core = s.core := by
  simp [State.core_eq_iff]
@[simp] theorem State.core_answerDeferred (s : State) (p : Port) (k : Byte) (c : Code) (d : AnswerData) :
    (s.answerDeferred p k c d).core = s.core := by simp [State.core_eq_iff]
@[simp] theorem State.core_popped (s : State) (h : Header) : (s.popped h).core = s.core := by simp [State.popped]

/-! ## Answers and indications -/

/-- What a transmit queue is after an answer: the answer is last, unless the queue is full of answers. -/
theorem queueAnswer_last (tx : List TxMsg) (m : TxMsg)
    (h : tx.length < Config.txCapacity ∨ tx.any TxMsg.discardable = true) : (queueAnswer tx m).getLast? = some m := by
  have drop : ∀ l : List TxMsg, l.any TxMsg.discardable = true → ∃ r, dropOldest l = some r := by
    intro l
    induction l with
    | nil => simp
    | cons a r ih =>
      intro h
      simp only [dropOldest]
      split
      · exact ⟨_, rfl⟩
      · rename_i ha
        simp only [List.any_cons, Bool.or_eq_true, ha] at h
        obtain ⟨x, hx⟩ := ih (h.resolve_left Bool.false_ne_true)
        exact ⟨_, by rw [hx]; rfl⟩
  simp only [queueAnswer]
  split
  · simp
  · obtain ⟨r, hr⟩ := drop tx (by simp_all)
    simp [hr]

/-- Dropping the oldest message that gives way takes one message out and adds none. -/
theorem dropOldest_length : ∀ (l r : List TxMsg), dropOldest l = some r → r.length + 1 = l.length := by
  intro l
  induction l with
  | nil => simp [dropOldest]
  | cons a l ih =>
    intro r h
    simp only [dropOldest] at h
    split at h
    · cases h; rfl
    · cases hd : dropOldest l with
      | none => simp [hd] at h
      | some x => simp [hd] at h; subst h; simp [ih x hd]

theorem queueAnswer_length (tx : List TxMsg) (m : TxMsg) (h : tx.length ≤ Config.txCapacity) :
    (queueAnswer tx m).length ≤ Config.txCapacity := by
  simp only [queueAnswer]
  split
  · simp; omega
  · split
    · have := dropOldest_length tx _ ‹_›
      simp; omega
    · exact h

theorem queueUnasked_length (tx : List TxMsg) (m : TxMsg) (h : tx.length ≤ Config.txCapacity) :
    (queueUnasked tx m).length ≤ Config.txCapacity := by
  simp only [queueUnasked]
  split
  · simp; omega
  · exact h

theorem queueParts_length (tx : List TxMsg) (h : Header) (k : Byte) (c : Code) (d : AnswerData) (n : Nat)
    (hl : tx.length ≤ Config.txCapacity) : (queueParts tx h k c d n).length ≤ Config.txCapacity := by
  simp only [queueParts]
  split
  · exact queueAnswer_length _ _ hl
  · split
    · simp [answerParts]; omega
    · exact queueAnswer_length _ _ hl

/-- An answer: its port's transmit queue takes it, or, off its bus and on the chassis link, nothing happens. -/
theorem State.answer_eq (s : State) (h : Header) (k : Byte) (c : Code) (d : AnswerData) :
    s.answer h k c d = s ∨ (s.port h.src.port).onBus = true ∧ h.src.port ≠ .chassis ∧
      s.answer h k c d = (s.setPort h.src.port { s.port h.src.port with
        tx := queueParts (s.port h.src.port).tx h k c d (partCount s.freeIx d) }).setFreeIx (s.freeIx + partDraws d) := by
  simp only [State.answer]
  split
  · exact .inl rfl
  · split
    · exact .inr ⟨‹_›, by assumption, rfl⟩
    · exact .inl rfl

/-- The port of an answer, in full. -/
theorem State.answer_port (s : State) (h : Header) (k : Byte) (c : Code) (d : AnswerData) (hc : h.src.port ≠ .chassis)
    (hb : (s.port h.src.port).onBus = true) :
    (s.answer h k c d).port h.src.port = { s.port h.src.port with
      tx := queueParts (s.port h.src.port).tx h k c d (partCount s.freeIx d) } := by
  simp only [State.answer, if_pos hb]
  rw [State.port_of_links (State.setFreeIx_links _ _)]
  simp

/-- An answer leaves every other port, and of its own port all but the transmit queue. -/
theorem State.answer_keeps (s : State) (h : Header) (k : Byte) (c : Code) (d : AnswerData) :
    (∀ q, q ≠ h.src.port → (s.answer h k c d).port q = s.port q)
      ∧ (∀ q, ((s.answer h k c d).port q).rx = (s.port q).rx ∧ ((s.answer h k c d).port q).deferred = (s.port q).deferred
          ∧ ((s.answer h k c d).port q).onBus = (s.port q).onBus ∧ ((s.answer h k c d).port q).sent = (s.port q).sent)
      ∧ (s.answer h k c d).links.servicePartial = s.links.servicePartial
      ∧ (s.answer h k c d).links.tagPartial = s.links.tagPartial := by
  rcases State.answer_eq s h k c d with e | ⟨-, -, e⟩ <;> rw [e]
  · simp
  · refine ⟨fun q hq => ?_, fun q => ?_, ?_⟩
    · rw [State.port_of_links (State.setFreeIx_links _ _), State.port_setPort_other _ _ _ _ hq]
    · rw [State.port_of_links (State.setFreeIx_links _ _), State.port_setPort]
      split <;> simp_all
    · simp

/-- An answer in one frame is the last message of its port, where the port has room. -/
theorem State.answer_last (s : State) (h : Header) (k : Byte) (c : Code) (d : AnswerData) (hc : h.src.port ≠ .chassis)
    (hn : partCount s.freeIx d ≤ 1) (hr : s.room h.src.port = true) :
    ((s.answer h k c d).port h.src.port).tx.getLast? = some (.answer h k c 1 1 d) := by
  simp only [State.room, Bool.and_eq_true, Bool.or_eq_true, decide_eq_true_eq] at hr
  rw [State.answer_port s h k c d hc hr.1]
  simp only [queueParts, if_pos hn]
  exact queueAnswer_last _ _ hr.2

/-- An indication: the body link's transmit queue takes it while it has room and is on its bus. -/
theorem State.indicate_eq (s : State) (i : Indication) :
    s.indicate i = if s.links.body.onBus = true then s.setPort .body { s.links.body with
      tx := queueUnasked s.links.body.tx (.indication i) } else s := by
  simp only [State.indicate]

/-- PAYLOAD: the chassis link's transmit queue takes it while it has room and is on its bus. -/
theorem State.sendPayload_eq (s : State) (m : PayloadMsg) :
    s.sendPayload m = if s.links.chassis.onBus = true then s.setPort .chassis { s.links.chassis with
      tx := queueUnasked s.links.chassis.tx (.payload m) } else s := by
  simp only [State.sendPayload]

/-! ## A request and its owner (R182, R186) -/

theorem State.take_head (s : State) (h : Header) (r : Request) (ht : AtHead s h r) : s.take h r = some (s.popped h) := by
  simp only [State.take, State.popped]
  cases hx : (s.port h.src.port).rx with
  | nil => simp [AtHead, hx] at ht
  | cons f rest =>
    simp [AtHead, hx] at ht
    simp [ht]

/-- Taking a request changes at most the receive queue of its port. -/
theorem State.take_eq {s t : State} {h : Header} {r : Request} (ht : s.take h r = some t) :
    t = s ∨ (AtHead s h r ∧ t = s.popped h) := by
  simp only [State.take] at ht
  split at ht
  · split at ht <;> simp_all
  · rename_i f rest hx
    split at ht
    · refine .inr ⟨?_, ?_⟩
      · simp_all [AtHead]
      · simp_all [State.popped]
    · cases ht

theorem State.take_frame {s t : State} {h : Header} {r : Request} (ht : s.take h r = some t) :
    t.core = s.core ∧ t.freeIx = s.freeIx := by
  rcases State.take_eq ht with rfl | ⟨-, rfl⟩ <;> simp [State.popped]

/-- What holds of a request: it is not taken and nothing changes, or it is refused, or its owner takes it. -/
theorem State.request_cases {α : Type} {P : State → Prop} {s : State} {h : Header} {r : Request} {b : Payload α}
    {owner : α → State → State} (h0 : P s)
    (h1 : ∀ t, s.take h r = some t → (∀ c, P (t.refuse h r c)) ∧ ∀ f, b = some f → r.allowed h.src = true → P (owner f t)) :
    P (s.request h r b owner) := by
  simp only [State.request]
  split
  · exact h0
  · rename_i t ht
    split
    · split
      · exact (h1 t ht).1 _
      · exact (h1 t ht).2 _ rfl ‹_›
    · exact (h1 t ht).1 _

/-- A request that stands at the head of its queue and that its sender may make reaches its owner. -/
theorem State.request_taken {α : Type} (s : State) (h : Header) (r : Request) (f : α) (owner : α → State → State)
    (ht : Taken s h r) : s.request h r (some f) owner = owner f (s.popped h) := by
  simp only [State.request, State.take_head s h r ht.1, ht.2, if_true]

/-- A request that its sender may not make reaches no owner. -/
theorem State.request_refused {α : Type} (s : State) (h : Header) (r : Request) (b : Payload α)
    (owner : α → State → State) (ht : AtHead s h r) (hr : r.allowed h.src = false) :
    s.request h r b owner = (s.popped h).refuse h r .notPermitted := by
  simp [State.request, State.take_head s h r ht, hr]

/-- A request with the wrong length reaches no owner. -/
theorem State.request_malformed {α : Type} (s : State) (h : Header) (r : Request) (owner : α → State → State)
    (ht : Taken s h r) : s.request h r none owner = (s.popped h).refuse h r .malformed := by
  simp [State.request, State.take_head s h r ht.1, ht.2]

/-- The master of a request that is allowed on a port other than the chassis link. -/
theorem Request.port_of_allowed {r : Request} {n : Node} (h : r.allowed n = true) (hc : ∀ b, r ≠ .chassisState b) :
    n.port ≠ .chassis := by
  cases n <;> cases r <;> simp_all [Request.allowed, Node.port]

@[simp] theorem State.popped_frame (s : State) (h : Header) :
    (s.popped h).pending = s.pending ∧ (s.popped h).variant = s.variant ∧ (s.popped h).pins = s.pins
     ∧ (s.popped h).settings = s.settings ∧ (s.popped h).lcc = s.lcc ∧ (s.popped h).chans = s.chans
     ∧ (s.popped h).store = s.store ∧ (s.popped h).shadow = s.shadow ∧ (s.popped h).slotMap = s.slotMap
     ∧ (s.popped h).drive = s.drive ∧ (s.popped h).weigh = s.weigh ∧ (s.popped h).lock = s.lock
     ∧ (s.popped h).houses = s.houses ∧ (s.popped h).comps = s.comps ∧ (s.popped h).journal = s.journal
     ∧ (s.popped h).inter = s.inter ∧ (s.popped h).freeIx = s.freeIx := by
  simp [State.popped]

/-- What an owner reads of a state from which a request was taken. -/
@[simp] theorem State.popped_reads (s : State) (h : Header) :
    (s.popped h).hasChannel = s.hasChannel ∧ (s.popped h).hasComp = s.hasComp ∧ (s.popped h).chanNamed = s.chanNamed
     ∧ (s.popped h).compNamed = s.compNamed ∧ (s.popped h).tables = s.tables ∧ (s.popped h).setEntry = s.setEntry
     ∧ (s.popped h).packEntry = s.packEntry ∧ (s.popped h).ejectEntry = s.ejectEntry
     ∧ (s.popped h).stationary = s.stationary ∧ (s.popped h).liveWeight = s.liveWeight
     ∧ (s.popped h).attrData = s.attrData ∧ (s.popped h).legal = s.legal ∧ (s.popped h).storeFree = s.storeFree
     ∧ (s.popped h).mayLoad = s.mayLoad ∧ (s.popped h).recordTime = s.recordTime ∧ (s.popped h).liftRefusal = s.liftRefusal
     ∧ (s.popped h).watchedLevels = s.watchedLevels ∧ (s.popped h).takesStart = s.takesStart := by
  unfold State.popped State.setPort
  split <;> exact ⟨rfl, rfl, rfl, rfl, rfl, rfl, rfl, rfl, rfl, rfl, rfl, rfl, rfl, rfl, rfl, rfl, rfl, rfl⟩

theorem State.popped_port (s : State) (h : Header) (q : Port) :
    (s.popped h).port q = if q = h.src.port then { s.port q with rx := (s.port q).rx.tail } else s.port q := by
  simp only [State.popped, State.port_setPort]
  split
  · subst q; rfl
  · rfl

/-- A request answered when it is taken, in one frame, is settled; its owner changed `u` at most in its core. -/
theorem settled_of_answer {s u : State} {h : Header} {k : Byte} {c : Code} {d : AnswerData}
    (hu : u.links = (s.popped h).links) (hc : h.src.port ≠ .chassis) (hn : partCount u.freeIx d ≤ 1) :
    Settled s (u.answer h k c d) h k c d := by
  have hp : ∀ q, u.port q = (s.popped h).port q := State.port_of_links hu
  have ⟨h1, h2, h3, h4⟩ := State.answer_keeps u h k c d
  refine ⟨⟨?_, ?_, ?_, ?_, fun q hq => ?_, ?_, ?_⟩, fun hr => ?_⟩
  · rw [(h2 _).1, hp, State.popped_port]; simp
  · rw [(h2 _).2.1, hp, State.popped_port]; simp
  · rw [(h2 _).2.2.1, hp, State.popped_port]; simp
  · rw [(h2 _).2.2.2, hp, State.popped_port]; simp
  · rw [h1 q hq, hp, State.popped_port]; simp [hq]
  · rw [h3, hu]; simp [State.popped]
  · rw [h4, hu]; simp [State.popped]
  · refine State.answer_last u h k c d hc hn ?_
    simp only [State.room] at hr ⊢
    rw [hp, State.popped_port]
    simpa using hr

/-- A request whose answer comes later is held. -/
theorem held_of_defer {s u : State} {h : Header} {k : Byte} (hu : u.links = (s.popped h).links) :
    Held s (u.defer h k) h k := by
  have hp : ∀ q, u.port q = (s.popped h).port q := State.port_of_links hu
  simp only [Held, State.defer, State.port_setPort, State.setPort_partial, hp, State.popped_port, hu]
  simp +contextual [State.popped]

/-! ## Channels (R28, R29, R46, R47) -/

@[simp] theorem State.mapChan_chans (s : State) (c : Channel) (f : Chan → Chan) :
    (s.mapChan c f).chans = s.chans.put c (f (s.chans.get c)) := rfl

/-- A change of the channels of a list, where a second change is no change: each of them is changed, no other is. -/
theorem State.mapChans_chans (s : State) (l : List Channel) (f : Chan → Chan) (hf : ∀ r, f (f r) = f r) (c : Channel) :
    (s.mapChans l f).chans.get c = if c ∈ l then f (s.chans.get c) else s.chans.get c := by
  induction l generalizing s with
  | nil => simp [State.mapChans]
  | cons k r ih =>
    have e : s.mapChans (k :: r) f = (s.mapChan k f).mapChans r f := rfl
    rw [e, ih]
    by_cases h : c = k
    · subst h; simp [hf]
    · simp [h, Six.get_put_other _ _ _ _ h]

theorem Chan.pause_pause (r : Chan) : r.pause.pause = r.pause := by
  obtain ⟨st, o, p, i, u, e, g, d, m, f⟩ := r; cases st <;> rfl
theorem Chan.stop_stop (r : Chan) : r.stop.stop = r.stop := by
  obtain ⟨st, o, p, i, u, e, g, d, m, f⟩ := r; cases st <;> rfl
theorem Chan.unpause_unpause (r : Chan) : r.unpause.unpause = r.unpause := by
  obtain ⟨st, o, p, i, u, e, g, d, m, f⟩ := r; cases st <;> cases m <;> rfl
theorem Chan.rearm_rearm (r : Chan) : r.rearm.rearm = r.rearm := by
  obtain ⟨st, o, p, i, u, e, g, d, m, f⟩ := r
  cases st <;> try rfl
  rcases f with - | ⟨k, a⟩
  · rfl
  · cases k <;> rfl

/-- START: a refused one changes nothing; one that is taken starts its channel, in FAULT at once with a latch set (R28). -/
theorem State.startChan_chans (s : State) (c d : Channel) (o : Origin) (a e : Nat) :
    (s.startChan c o a e).chans.get d = if d = c ∧ s.takesStart c = true then
        (if (s.drive.latches.get c).isSome = true then (Chan.started o a e).fail .coil a else Chan.started o a e)
      else s.chans.get d := by
  simp only [State.startChan]
  split
  · by_cases h : d = c
    · subst h; simp_all
    · simp [h, Six.get_put_other _ _ _ _ h]
  · simp_all

end Sys2Proof.Machine
end

