-- ==== Sys2Proof/Laws/Cycle.lean ====
section
/-! SUPPORT. What entering a phase and pausing the packers do to the channels and to the started list. -/

namespace Sys2Proof.Machine

open Sys2Proof

/-- Which channels a pause or an un-pause of the packers changes (R145). -/
theorem State.mapPackers_chans (s : State) (w : Origin → Bool) (f : Chan → Chan) (c : Channel) :
  (s.mapPackers w f).chans.get c = if c.isArm = false ∧ (s.chans.get c).origin.any w = true then f (s.chans.get c) else s.chans.get c := by
  simp only [State.mapPackers, List.foldl_cons, List.foldl_nil]
  have e : ∀ (u : State) (d : Channel), (if (u.chans.get d).origin.any w = true then u.mapChan d f else u).chans.get c =
     if c = d ∧ (u.chans.get d).origin.any w = true then f (u.chans.get d) else u.chans.get c := by
    intro u d
    split
    · by_cases h : c = d
      · subst h; simp_all
      · simp [h, Six.get_put_other _ _ _ _ h]
    · simp_all
  rw [e]
  have e2 : ∀ x, x ≠ .packA → ((if (s.chans.get .packA).origin.any w = true then s.mapChan .packA f else s).chans.get x) = s.chans.get x := by
    intro x hx
    split
    · simp [Six.get_put_other _ _ _ _ hx]
    · rfl
  rw [e2 .packB (by decide)]
  cases c
  case packA =>
     have := e s .packA
     rw [if_neg (by simp)]; simp [Channel.isArm]
     split <;> simp_all
  case packB => simp [Channel.isArm, e2 .packB (by decide)]
  all_goals (rw [if_neg (by simp), e2 _ (by decide)]; simp [Channel.isArm])

/-- Several starts of one owner, no channel twice: each channel is started once (R7, R28). -/
theorem State.startChans_chans_of_nodup (o : Origin) (e : Nat) (l : List (Channel × Nat)) : ∀ (s : State) (k : Channel),
   (l.map Prod.fst).Nodup →
   ((l.foldl (fun t a => t.startChan a.1 o a.2 e) s).chans.get k) =
    match l.find? (fun a => a.1 == k) with
    | some a => (s.startChan k o a.2 e).chans.get k
    | none => s.chans.get k := by
  induction l with
  | nil => intro s k _; rfl
  | cons a r ih =>
    intro s k hn
    obtain ⟨hn1, hn2⟩ := List.nodup_cons.mp hn
    simp only [List.foldl_cons, ih _ k hn2, List.find?_cons]
    by_cases hk : a.1 = k
    · subst hk
      have : r.find? (fun b => b.1 == a.1) = none := by
        rw [List.find?_eq_none]
        intro b hb hh
        exact hn1 (by rw [← beq_iff_eq.mp hh]; exact List.mem_map_of_mem hb)
      simp [this]
    · have hk' : (a.1 == k) = false := by simpa using hk
      have hne : k ≠ a.1 := fun h => hk h.symm
      simp only [hk']
      cases hf : r.find? (fun a => a.1 == k) with
      | some b =>
        have : (s.startChan a.1 o a.2 e).chans.get k = s.chans.get k := by rw [State.startChan_chans]; simp [hne]
        dsimp only
        rw [State.startChan_chans _ k k, State.startChan_chans s k k]
        simp only [State.startChan_frame, State.takesStart, State.hasChannel, this]
      | none => dsimp only; rw [State.startChan_chans]; simp [hne]

/-- The arm channels are those the cycle may start (R7). -/
theorem armChannels_mem (k : Channel) : k ∈ armChannels ↔ k.isArm = true := by cases k <;> decide

/-- What a phase starts (R7, R8). -/
theorem State.phaseStarts_mem (s : State) (x : LiftCtx) (p : ProfilePhase) (k : Channel) (a : Nat) :
  (k, a) ∈ s.phaseStarts x p ↔ k.isArm = true ∧ s.startAddress x p k = some a := by
  simp only [State.phaseStarts, List.mem_filterMap, Option.map_eq_some_iff, Prod.mk.injEq]
  constructor
  · rintro ⟨c, hc, a', ha, rfl, rfl⟩; exact ⟨(armChannels_mem _).mp hc, ha⟩
  · rintro ⟨hk, ha⟩; exact ⟨k, (armChannels_mem _).mpr hk, a, ha, rfl, rfl⟩

/-- A phase starts no channel twice (R7). -/
theorem State.phaseStarts_nodup (s : State) (x : LiftCtx) (p : ProfilePhase) : ((s.phaseStarts x p).map Prod.fst).Nodup := by
  have : (s.phaseStarts x p).map Prod.fst = armChannels.filter (fun c => (s.startAddress x p c).isSome) := by
    simp only [State.phaseStarts, armChannels]
    generalize ([.reach, .lift, .grip, .divert] : List Channel) = l
    induction l with
    | nil => rfl
    | cons a r ih =>
      simp only [List.filterMap_cons, List.filter_cons]
      cases h : s.startAddress x p a <;> simp [ih]
  rw [this]
  exact (by decide : armChannels.Nodup).filter _

/-- Outside RAISE every start is from the set table (R7, R8). -/
theorem State.startAddress_eq (s : State) (x : LiftCtx) (p : ProfilePhase) (k : Channel) (hp : p ≠ .raise) :
  s.startAddress x p k = if s.hasChannel k = true then s.setEntry (s.slotMap.get x.activeSlot) p k else none := by
  simp only [State.startAddress]
  cases s.hasChannel k <;> simp [hp]

/-- The channels after a phase is entered with the arm free (R7, R28). -/
theorem State.startPhase_chans (s : State) (x : LiftCtx) (p : ProfilePhase)
    (hl : ∀ k, k.isArm = true → s.drive.latches.get k = none) (hi : ∀ k, k.isArm = true → (s.chans.get k).state = .idle)
    (hs : s.shadow.state = .ready) (k : Channel) :
    (s.startPhase x p).chans.get k = match s.startAddress x p k with
      | some a => if k.isArm = true then Chan.started .cycle a x.creep else s.chans.get k
      | none => s.chans.get k := by
  simp only [State.startPhase]
  rw [State.startChans_chans_of_nodup _ _ _ _ _ (State.phaseStarts_nodup s x p)]
  split
  · rename_i a ha
    have hm := List.mem_of_find?_eq_some ha
    have hk : a.1 = k := by simpa using List.find?_some ha
    obtain ⟨c, a⟩ := a
    simp only at hk; subst hk
    obtain ⟨h1, h2⟩ := (State.phaseStarts_mem _ _ _ _ _).mp hm
    have hc : s.hasChannel c = true := by
      simp only [State.startAddress] at h2; split at h2
      · cases h2
      · simp_all
    rw [State.startChan_chans]
    simp only [State.hasChannel] at hc
    simp [State.takesStart, hs, State.hasChannel, hc, h1, h2, hl c h1, hi c h1]
  · rename_i ha
    rw [List.find?_eq_none] at ha
    split
    · rename_i a h2
      split
      · rename_i h1
        have := ha _ ((State.phaseStarts_mem s x p k a).mpr ⟨h1, h2⟩)
        simp at this
      · simp
    · simp

/-- The LCC after a phase is entered (R7). -/
theorem State.startPhase_lcc (s : State) (x : LiftCtx) (p : ProfilePhase) :
   (s.startPhase x p).lcc = { s.lcc with
      phase := .run p, haltedPhase := none, causes := Causes.none, faults := Six.all none, started := (s.phaseStarts x p).map Prod.fst,
      ctx := s.lcc.ctx.map fun x => if x.path = .aborted then x else { x with lastPhase := p } } := by
  simp only [State.startPhase]
  rw [(State.startChans_frame _ _ _).2.2.2.2.2.1]
  simp

/-- The started list after a phase is entered (R7). -/
theorem State.startPhase_mem (s : State) (x : LiftCtx) (p : ProfilePhase) (k : Channel) :
   k ∈ (s.startPhase x p).lcc.started ↔ k.isArm = true ∧ (s.startAddress x p k).isSome = true := by
  rw [State.startPhase_lcc]
  simp only [List.mem_map, Prod.exists, exists_and_right, exists_eq_right, State.phaseStarts_mem, Option.isSome_iff_exists]
  simp

/-- Reporting starts that met no fault changes nothing. -/
theorem State.reportStarts_none (l : List Channel) (s : State) (h : ∀ k ∈ l, (s.chans.get k).state ≠ .fault) : s.reportStarts l = s := by
  induction l with
  | nil => rfl
  | cons a r ih =>
    have h1 := h a (by simp)
    have e : s.reportStarts (a :: r) = State.reportStarts (match (s.chans.get a).state, (s.chans.get a).fault with
      | .fault, some f => s.cycleFault a f.kind
      | _, _ => s) r := rfl
    rw [e]
    split
    · contradiction
    · exact ih fun k hk => h k (by simp [hk])

/-- Phase entry with a free arm and at least one entry. -/
theorem State.enterPhase_free (s : State) (x : LiftCtx) (p : ProfilePhase) (hx : s.lcc.ctx = some x)
    (hl : ∀ k, k.isArm = true → s.drive.latches.get k = none) (hi : ∀ k, k.isArm = true → (s.chans.get k).state = .idle)
    (hs : s.shadow.state = .ready) (he : ∃ k, k.isArm = true ∧ (s.startAddress x p k).isSome = true) :
    s.enterPhase p = s.startPhase x p := by
  obtain ⟨k, hk, hke⟩ := he
  simp only [State.enterPhase, State.enterPhases, hx]
  have hm := (State.startPhase_mem s x p k).mpr ⟨hk, hke⟩
  split
  · rename_i h; rw [h] at hm; cases hm
  · refine State.reportStarts_none _ _ fun c hc => ?_
    obtain ⟨h1, h2⟩ := (State.startPhase_mem s x p c).mp hc
    rw [State.startPhase_chans s x p hl hi hs]
    obtain ⟨a, ha⟩ := Option.isSome_iff_exists.mp h2
    simp [ha, h1, Chan.started]

end Sys2Proof.Machine
end

