-- ==== Sys2Proof/Laws/Journal.lean ====
section
/-! SUPPORT. The operations of the journal that leave its memory as it stands. -/

namespace Sys2Proof.Machine

@[simp] theorem Journal.startWrite_slots (j : Journal) : j.startWrite.slots = j.slots := by
  simp only [Journal.startWrite]; (repeat' split) <;> rfl
@[simp] theorem Journal.startErase_slots (j : Journal) : j.startErase.slots = j.slots := by
  simp only [Journal.startErase]; (repeat' split) <;> rfl
@[simp] theorem Journal.testReclaim_slots (j : Journal) (k : Nat): (j.testReclaim k).slots = j.slots := by
  simp only [Journal.testReclaim]; (repeat' split) <;> rfl
@[simp] theorem Journal.testAll_slots (j : Journal) : (j.testAll).slots = j.slots := by
  simp only [Journal.testAll]
  generalize List.range _ = l
  induction l generalizing j with
  | nil => rfl
  | cons a r ih => simp [ih]
@[simp] theorem Journal.clearLow_slots (j : Journal) : j.clearLow.slots = j.slots := by
  simp only [Journal.clearLow]; (repeat' split) <;> rfl
@[simp] theorem Journal.setSector_slots (j : Journal) (k x): (j.setSector k x).slots = j.slots := rfl

end Sys2Proof.Machine
end

