-- ==== Sys2Proof/Laws/Kept.lean ====
section
/-! SUPPORT. Inside the Lift Journal, the Metrology Lock and the Weigh Engine: what the operations of the other blocks leave there. -/

namespace Sys2Proof.Machine

/-! ## The Lift Journal: staging and reservations leave what is written -/

@[simp] theorem State.testLow_journal (s : State) :
    (s.testLow).journal.starting = s.journal.starting ∧ (s.testLow).journal.slots = s.journal.slots
     ∧ (s.testLow).journal.newest = s.journal.newest ∧ (s.testLow).journal.oldest = s.journal.oldest
     ∧ (s.testLow).journal.mark = s.journal.mark ∧ (s.testLow).journal.cells = s.journal.cells
     ∧ (s.testLow).journal.holder = s.journal.holder ∧ (s.testLow).journal.note = s.journal.note
     ∧ (s.testLow).journal.release = s.journal.release := by
  simp only [State.testLow]
  split <;> simp

@[simp] theorem State.grant_journal (s : State) :
    (s.grant).journal.starting = s.journal.starting ∧ (s.grant).journal.slots = s.journal.slots
     ∧ (s.grant).journal.newest = s.journal.newest ∧ (s.grant).journal.oldest = s.journal.oldest
     ∧ (s.grant).journal.mark = s.journal.mark ∧ (s.grant).journal.cells = s.journal.cells
     ∧ (s.grant).journal.holder = s.journal.holder ∧ (s.grant).journal.note = s.journal.note
     ∧ (s.grant).journal.release = s.journal.release := by
  simp [State.grant]

@[simp] theorem State.returnReservation_journal (s : State) :
    (s.returnReservation).journal.starting = s.journal.starting
     ∧ (s.returnReservation).journal.slots = s.journal.slots ∧ (s.returnReservation).journal.newest = s.journal.newest
     ∧ (s.returnReservation).journal.oldest = s.journal.oldest ∧ (s.returnReservation).journal.mark = s.journal.mark
     ∧ (s.returnReservation).journal.cells = s.journal.cells ∧ (s.returnReservation).journal.holder = s.journal.holder
     ∧ (s.returnReservation).journal.note = s.journal.note ∧ (s.returnReservation).journal.release = s.journal.release := by
  simp only [State.returnReservation, Journal.clearLow, State.setJournal_journal]
  split <;> simp

@[simp] theorem State.stage_journal (s : State) (r : Record) :
    (s.stage r).journal.starting = s.journal.starting ∧ (s.stage r).journal.slots = s.journal.slots
     ∧ (s.stage r).journal.newest = s.journal.newest ∧ (s.stage r).journal.oldest = s.journal.oldest
     ∧ (s.stage r).journal.mark = s.journal.mark ∧ (s.stage r).journal.cells = s.journal.cells
     ∧ (s.stage r).journal.holder = s.journal.holder ∧ (s.stage r).journal.note = s.journal.note
     ∧ (s.stage r).journal.release = s.journal.release := by
  simp only [State.stage, Journal.startWrite, State.indicate_frame, State.setJournal_journal, Journal.setSector]
  (repeat' split) <;> simp

@[simp] theorem State.stageUnload_journal (s : State) (c : Compartment) :
    (s.stageUnload c).journal.starting = s.journal.starting ∧ (s.stageUnload c).journal.slots = s.journal.slots
     ∧ (s.stageUnload c).journal.newest = s.journal.newest ∧ (s.stageUnload c).journal.oldest = s.journal.oldest
     ∧ (s.stageUnload c).journal.mark = s.journal.mark ∧ (s.stageUnload c).journal.cells = s.journal.cells
     ∧ (s.stageUnload c).journal.holder = s.journal.holder ∧ (s.stageUnload c).journal.note = s.journal.note
     ∧ (s.stageUnload c).journal.release = s.journal.release := by
  simp [State.stageUnload]

@[simp] theorem State.settleEject_journal (s : State) (c : Compartment) (t : Bool) (g : Stage) (o : EjectOutcome) :
    (s.settleEject c t g o).journal.starting = s.journal.starting
     ∧ (s.settleEject c t g o).journal.slots = s.journal.slots
     ∧ (s.settleEject c t g o).journal.newest = s.journal.newest
     ∧ (s.settleEject c t g o).journal.oldest = s.journal.oldest
     ∧ (s.settleEject c t g o).journal.mark = s.journal.mark ∧ (s.settleEject c t g o).journal.cells = s.journal.cells
     ∧ (s.settleEject c t g o).journal.holder = s.journal.holder
     ∧ (s.settleEject c t g o).journal.note = s.journal.note
     ∧ (s.settleEject c t g o).journal.release = s.journal.release := by
  simp only [State.settleEject]
  (repeat' split) <;> simp

@[simp] theorem State.packFault_journal (s : State) (c : Compartment) (f : FaultAt) :
    (s.packFault c f).journal.starting = s.journal.starting ∧ (s.packFault c f).journal.slots = s.journal.slots
     ∧ (s.packFault c f).journal.newest = s.journal.newest ∧ (s.packFault c f).journal.oldest = s.journal.oldest
     ∧ (s.packFault c f).journal.mark = s.journal.mark ∧ (s.packFault c f).journal.cells = s.journal.cells
     ∧ (s.packFault c f).journal.holder = s.journal.holder ∧ (s.packFault c f).journal.note = s.journal.note
     ∧ (s.packFault c f).journal.release = s.journal.release := by
  simp only [State.packFault]
  (repeat' split) <;> simp

@[simp] theorem State.reportPackStart_journal (s : State) (c : Compartment) :
    (s.reportPackStart c).journal.starting = s.journal.starting
     ∧ (s.reportPackStart c).journal.slots = s.journal.slots ∧ (s.reportPackStart c).journal.newest = s.journal.newest
     ∧ (s.reportPackStart c).journal.oldest = s.journal.oldest ∧ (s.reportPackStart c).journal.mark = s.journal.mark
     ∧ (s.reportPackStart c).journal.cells = s.journal.cells ∧ (s.reportPackStart c).journal.holder = s.journal.holder
     ∧ (s.reportPackStart c).journal.note = s.journal.note ∧ (s.reportPackStart c).journal.release = s.journal.release := by
  simp only [State.reportPackStart]
  (repeat' split) <;> simp

@[simp] theorem State.startPack_journal (s : State) (c : Compartment) (a : Nat) :
    (s.startPack c a).journal.starting = s.journal.starting ∧ (s.startPack c a).journal.slots = s.journal.slots
     ∧ (s.startPack c a).journal.newest = s.journal.newest ∧ (s.startPack c a).journal.oldest = s.journal.oldest
     ∧ (s.startPack c a).journal.mark = s.journal.mark ∧ (s.startPack c a).journal.cells = s.journal.cells
     ∧ (s.startPack c a).journal.holder = s.journal.holder ∧ (s.startPack c a).journal.note = s.journal.note
     ∧ (s.startPack c a).journal.release = s.journal.release := by
  simp only [State.startPack]
  (repeat' split) <;> simp

@[simp] theorem State.testDue_journal (s : State) (c : Compartment) :
    (s.testDue c).journal.starting = s.journal.starting ∧ (s.testDue c).journal.slots = s.journal.slots
     ∧ (s.testDue c).journal.newest = s.journal.newest ∧ (s.testDue c).journal.oldest = s.journal.oldest
     ∧ (s.testDue c).journal.mark = s.journal.mark ∧ (s.testDue c).journal.cells = s.journal.cells
     ∧ (s.testDue c).journal.holder = s.journal.holder ∧ (s.testDue c).journal.note = s.journal.note
     ∧ (s.testDue c).journal.release = s.journal.release := by
  simp only [State.testDue]
  (repeat' split) <;> simp

@[simp] theorem State.testDueAll_journal (s : State) :
    (s.testDueAll).journal.starting = s.journal.starting ∧ (s.testDueAll).journal.slots = s.journal.slots
     ∧ (s.testDueAll).journal.newest = s.journal.newest ∧ (s.testDueAll).journal.oldest = s.journal.oldest
     ∧ (s.testDueAll).journal.mark = s.journal.mark ∧ (s.testDueAll).journal.cells = s.journal.cells
     ∧ (s.testDueAll).journal.holder = s.journal.holder ∧ (s.testDueAll).journal.note = s.journal.note
     ∧ (s.testDueAll).journal.release = s.journal.release := by
  simp [State.testDueAll]

@[simp] theorem State.tip_journal (s : State) (c : Compartment) :
    (s.tip c).journal.starting = s.journal.starting ∧ (s.tip c).journal.slots = s.journal.slots
     ∧ (s.tip c).journal.newest = s.journal.newest ∧ (s.tip c).journal.oldest = s.journal.oldest
     ∧ (s.tip c).journal.mark = s.journal.mark ∧ (s.tip c).journal.cells = s.journal.cells
     ∧ (s.tip c).journal.holder = s.journal.holder ∧ (s.tip c).journal.note = s.journal.note
     ∧ (s.tip c).journal.release = s.journal.release := by
  simp [State.tip]

@[simp] theorem State.packEnd_journal (s : State) (c : Compartment) (o : Origin) :
    (s.packEnd c o).journal.starting = s.journal.starting ∧ (s.packEnd c o).journal.slots = s.journal.slots
     ∧ (s.packEnd c o).journal.newest = s.journal.newest ∧ (s.packEnd c o).journal.oldest = s.journal.oldest
     ∧ (s.packEnd c o).journal.mark = s.journal.mark ∧ (s.packEnd c o).journal.cells = s.journal.cells
     ∧ (s.packEnd c o).journal.holder = s.journal.holder ∧ (s.packEnd c o).journal.note = s.journal.note
     ∧ (s.packEnd c o).journal.release = s.journal.release := by
  simp only [State.packEnd]
  (repeat' split) <;> simp

@[simp] theorem State.startEject_journal (s : State) (c : Compartment) (a : Nat) :
    (s.startEject c a).journal.starting = s.journal.starting ∧ (s.startEject c a).journal.slots = s.journal.slots
     ∧ (s.startEject c a).journal.newest = s.journal.newest ∧ (s.startEject c a).journal.oldest = s.journal.oldest
     ∧ (s.startEject c a).journal.mark = s.journal.mark ∧ (s.startEject c a).journal.cells = s.journal.cells
     ∧ (s.startEject c a).journal.holder = s.journal.holder ∧ (s.startEject c a).journal.note = s.journal.note
     ∧ (s.startEject c a).journal.release = s.journal.release := by
  simp only [State.startEject]
  (repeat' split) <;> simp

@[simp] theorem State.stageLift_journal (s : State) (x : LiftCtx) :
    (s.stageLift x).journal.starting = s.journal.starting ∧ (s.stageLift x).journal.slots = s.journal.slots
     ∧ (s.stageLift x).journal.newest = s.journal.newest ∧ (s.stageLift x).journal.oldest = s.journal.oldest
     ∧ (s.stageLift x).journal.mark = s.journal.mark ∧ (s.stageLift x).journal.cells = s.journal.cells
     ∧ (s.stageLift x).journal.holder = s.journal.holder ∧ (s.stageLift x).journal.note = s.journal.note
     ∧ (s.stageLift x).journal.release = s.journal.release := by
  simp only [State.stageLift]
  (repeat' split) <;> simp

@[simp] theorem State.stageRefused_journal (s : State) (x : LiftCtx) :
    (s.stageRefused x).journal.starting = s.journal.starting ∧ (s.stageRefused x).journal.slots = s.journal.slots
     ∧ (s.stageRefused x).journal.newest = s.journal.newest ∧ (s.stageRefused x).journal.oldest = s.journal.oldest
     ∧ (s.stageRefused x).journal.mark = s.journal.mark ∧ (s.stageRefused x).journal.cells = s.journal.cells
     ∧ (s.stageRefused x).journal.holder = s.journal.holder ∧ (s.stageRefused x).journal.note = s.journal.note
     ∧ (s.stageRefused x).journal.release = s.journal.release := by
  simp [State.stageRefused]

@[simp] theorem State.stageAborted_journal (s : State) (x : LiftCtx) :
    (s.stageAborted x).journal.starting = s.journal.starting ∧ (s.stageAborted x).journal.slots = s.journal.slots
     ∧ (s.stageAborted x).journal.newest = s.journal.newest ∧ (s.stageAborted x).journal.oldest = s.journal.oldest
     ∧ (s.stageAborted x).journal.mark = s.journal.mark ∧ (s.stageAborted x).journal.cells = s.journal.cells
     ∧ (s.stageAborted x).journal.holder = s.journal.holder ∧ (s.stageAborted x).journal.note = s.journal.note
     ∧ (s.stageAborted x).journal.release = s.journal.release := by
  simp [State.stageAborted]

@[simp] theorem State.stageCycle_journal (s : State) :
    (s.stageCycle).journal.starting = s.journal.starting ∧ (s.stageCycle).journal.slots = s.journal.slots
     ∧ (s.stageCycle).journal.newest = s.journal.newest ∧ (s.stageCycle).journal.oldest = s.journal.oldest
     ∧ (s.stageCycle).journal.mark = s.journal.mark ∧ (s.stageCycle).journal.cells = s.journal.cells
     ∧ (s.stageCycle).journal.holder = s.journal.holder ∧ (s.stageCycle).journal.note = s.journal.note
     ∧ (s.stageCycle).journal.release = s.journal.release := by
  simp only [State.stageCycle]
  (repeat' split) <;> simp

@[simp] theorem State.endPhase_journal (s : State) (p : ProfilePhase) :
    ((s.endPhase p).1).journal.starting = s.journal.starting ∧ ((s.endPhase p).1).journal.slots = s.journal.slots
     ∧ ((s.endPhase p).1).journal.newest = s.journal.newest ∧ ((s.endPhase p).1).journal.oldest = s.journal.oldest
     ∧ ((s.endPhase p).1).journal.mark = s.journal.mark ∧ ((s.endPhase p).1).journal.cells = s.journal.cells
     ∧ ((s.endPhase p).1).journal.holder = s.journal.holder ∧ ((s.endPhase p).1).journal.note = s.journal.note
     ∧ ((s.endPhase p).1).journal.release = s.journal.release := by
  simp only [State.endPhase]
  (repeat' split) <;> simp

@[simp] theorem State.enterPhases_journal (n : Nat) (s : State) (p : ProfilePhase) :
    (State.enterPhases n s p).journal.starting = s.journal.starting
     ∧ (State.enterPhases n s p).journal.slots = s.journal.slots
     ∧ (State.enterPhases n s p).journal.newest = s.journal.newest
     ∧ (State.enterPhases n s p).journal.oldest = s.journal.oldest
     ∧ (State.enterPhases n s p).journal.mark = s.journal.mark
     ∧ (State.enterPhases n s p).journal.cells = s.journal.cells
     ∧ (State.enterPhases n s p).journal.holder = s.journal.holder
     ∧ (State.enterPhases n s p).journal.note = s.journal.note
     ∧ (State.enterPhases n s p).journal.release = s.journal.release := by
  induction n generalizing s p with
  | zero => simp [State.enterPhases]
  | succ n ih =>
    simp only [State.enterPhases]
    split
    · simp
    · rename_i x _
      have he := State.endPhase_journal (s.startPhase x p) p
      simp only [State.startPhase_frame] at he
      split
      · split <;> rename_i h
        · rw [h] at he
          simp_all
        · rw [h] at he
          simp_all
      · simp

@[simp] theorem State.enterPhase_journal (s : State) (p : ProfilePhase) :
    (s.enterPhase p).journal.starting = s.journal.starting ∧ (s.enterPhase p).journal.slots = s.journal.slots
     ∧ (s.enterPhase p).journal.newest = s.journal.newest ∧ (s.enterPhase p).journal.oldest = s.journal.oldest
     ∧ (s.enterPhase p).journal.mark = s.journal.mark ∧ (s.enterPhase p).journal.cells = s.journal.cells
     ∧ (s.enterPhase p).journal.holder = s.journal.holder ∧ (s.enterPhase p).journal.note = s.journal.note
     ∧ (s.enterPhase p).journal.release = s.journal.release := by
  simp [State.enterPhase]

@[simp] theorem State.cycleEnd_journal (s : State) :
    (s.cycleEnd).journal.starting = s.journal.starting ∧ (s.cycleEnd).journal.slots = s.journal.slots
     ∧ (s.cycleEnd).journal.newest = s.journal.newest ∧ (s.cycleEnd).journal.oldest = s.journal.oldest
     ∧ (s.cycleEnd).journal.mark = s.journal.mark ∧ (s.cycleEnd).journal.cells = s.journal.cells
     ∧ (s.cycleEnd).journal.holder = s.journal.holder ∧ (s.cycleEnd).journal.note = s.journal.note
     ∧ (s.cycleEnd).journal.release = s.journal.release := by
  simp only [State.cycleEnd]
  split
  · rename_i p _
    have he := State.endPhase_journal s p
    split
    · split <;> rename_i h <;> rw [h] at he <;> simp_all
    · simp
  all_goals simp

@[simp] theorem State.failChan_journal (s : State) (c : Channel) (k : FaultKind) (a : Nat) :
    (s.failChan c k a).journal.starting = s.journal.starting ∧ (s.failChan c k a).journal.slots = s.journal.slots
     ∧ (s.failChan c k a).journal.newest = s.journal.newest ∧ (s.failChan c k a).journal.oldest = s.journal.oldest
     ∧ (s.failChan c k a).journal.mark = s.journal.mark ∧ (s.failChan c k a).journal.cells = s.journal.cells
     ∧ (s.failChan c k a).journal.holder = s.journal.holder ∧ (s.failChan c k a).journal.note = s.journal.note
     ∧ (s.failChan c k a).journal.release = s.journal.release := by
  simp only [State.failChan]
  (repeat' split) <;> simp

@[simp] theorem State.endChan_journal (s : State) (c : Channel) :
    (s.endChan c).journal.starting = s.journal.starting ∧ (s.endChan c).journal.slots = s.journal.slots
     ∧ (s.endChan c).journal.newest = s.journal.newest ∧ (s.endChan c).journal.oldest = s.journal.oldest
     ∧ (s.endChan c).journal.mark = s.journal.mark ∧ (s.endChan c).journal.cells = s.journal.cells
     ∧ (s.endChan c).journal.holder = s.journal.holder ∧ (s.endChan c).journal.note = s.journal.note
     ∧ (s.endChan c).journal.release = s.journal.release := by
  simp only [State.endChan]
  (repeat' split) <;> simp

@[simp] theorem State.advance_journal (s : State) (c : Channel) :
    ((s.advance c).1).journal.starting = s.journal.starting ∧ ((s.advance c).1).journal.slots = s.journal.slots
     ∧ ((s.advance c).1).journal.newest = s.journal.newest ∧ ((s.advance c).1).journal.oldest = s.journal.oldest
     ∧ ((s.advance c).1).journal.mark = s.journal.mark ∧ ((s.advance c).1).journal.cells = s.journal.cells
     ∧ ((s.advance c).1).journal.holder = s.journal.holder ∧ ((s.advance c).1).journal.note = s.journal.note
     ∧ ((s.advance c).1).journal.release = s.journal.release := by
  simp only [State.advance]
  split <;> simp

@[simp] theorem State.completeElement_journal (s : State) (c : Channel) (u : Int) :
    (s.completeElement c u).journal.starting = s.journal.starting
     ∧ (s.completeElement c u).journal.slots = s.journal.slots
     ∧ (s.completeElement c u).journal.newest = s.journal.newest
     ∧ (s.completeElement c u).journal.oldest = s.journal.oldest
     ∧ (s.completeElement c u).journal.mark = s.journal.mark ∧ (s.completeElement c u).journal.cells = s.journal.cells
     ∧ (s.completeElement c u).journal.holder = s.journal.holder
     ∧ (s.completeElement c u).journal.note = s.journal.note
     ∧ (s.completeElement c u).journal.release = s.journal.release := by
  simp [State.completeElement]

@[simp] theorem State.rampStep_journal (s : State) (c : Channel) (u0 t : Int) (k n : Nat) :
    (s.rampStep c u0 t k n).journal.starting = s.journal.starting
     ∧ (s.rampStep c u0 t k n).journal.slots = s.journal.slots
     ∧ (s.rampStep c u0 t k n).journal.newest = s.journal.newest
     ∧ (s.rampStep c u0 t k n).journal.oldest = s.journal.oldest
     ∧ (s.rampStep c u0 t k n).journal.mark = s.journal.mark ∧ (s.rampStep c u0 t k n).journal.cells = s.journal.cells
     ∧ (s.rampStep c u0 t k n).journal.holder = s.journal.holder
     ∧ (s.rampStep c u0 t k n).journal.note = s.journal.note
     ∧ (s.rampStep c u0 t k n).journal.release = s.journal.release := by
  simp only [State.rampStep]
  (repeat' split) <;> simp

@[simp] theorem State.deltaAt_journal (s : State) (c : Channel) (d : Int) (e k : Nat) :
    (s.deltaAt c d e k).journal.starting = s.journal.starting ∧ (s.deltaAt c d e k).journal.slots = s.journal.slots
     ∧ (s.deltaAt c d e k).journal.newest = s.journal.newest ∧ (s.deltaAt c d e k).journal.oldest = s.journal.oldest
     ∧ (s.deltaAt c d e k).journal.mark = s.journal.mark ∧ (s.deltaAt c d e k).journal.cells = s.journal.cells
     ∧ (s.deltaAt c d e k).journal.holder = s.journal.holder ∧ (s.deltaAt c d e k).journal.note = s.journal.note
     ∧ (s.deltaAt c d e k).journal.release = s.journal.release := by
  simp only [State.deltaAt]
  (repeat' split) <;> simp

@[simp] theorem State.holdStep_journal (s : State) (c : Channel) (n : Nat) :
    (s.holdStep c n).journal.starting = s.journal.starting ∧ (s.holdStep c n).journal.slots = s.journal.slots
     ∧ (s.holdStep c n).journal.newest = s.journal.newest ∧ (s.holdStep c n).journal.oldest = s.journal.oldest
     ∧ (s.holdStep c n).journal.mark = s.journal.mark ∧ (s.holdStep c n).journal.cells = s.journal.cells
     ∧ (s.holdStep c n).journal.holder = s.journal.holder ∧ (s.holdStep c n).journal.note = s.journal.note
     ∧ (s.holdStep c n).journal.release = s.journal.release := by
  simp only [State.holdStep]
  (repeat' split) <;> simp

@[simp] theorem State.countAwait_journal (s : State) (c : Channel) :
    (s.countAwait c).journal.starting = s.journal.starting ∧ (s.countAwait c).journal.slots = s.journal.slots
     ∧ (s.countAwait c).journal.newest = s.journal.newest ∧ (s.countAwait c).journal.oldest = s.journal.oldest
     ∧ (s.countAwait c).journal.mark = s.journal.mark ∧ (s.countAwait c).journal.cells = s.journal.cells
     ∧ (s.countAwait c).journal.holder = s.journal.holder ∧ (s.countAwait c).journal.note = s.journal.note
     ∧ (s.countAwait c).journal.release = s.journal.release := by
  simp only [State.countAwait]
  (repeat' split) <;> simp

@[simp] theorem State.passAwait_journal (s : State) (c : Channel) :
    ((s.passAwait c).1).journal.starting = s.journal.starting ∧ ((s.passAwait c).1).journal.slots = s.journal.slots
     ∧ ((s.passAwait c).1).journal.newest = s.journal.newest ∧ ((s.passAwait c).1).journal.oldest = s.journal.oldest
     ∧ ((s.passAwait c).1).journal.mark = s.journal.mark ∧ ((s.passAwait c).1).journal.cells = s.journal.cells
     ∧ ((s.passAwait c).1).journal.holder = s.journal.holder ∧ ((s.passAwait c).1).journal.note = s.journal.note
     ∧ ((s.passAwait c).1).journal.release = s.journal.release := by
  simp [State.passAwait]

theorem State.deliver_journal {s t : State} {c : Channel} {code : Nat} (h : s.deliver c code = some t) :
    t.journal.starting = s.journal.starting ∧ t.journal.slots = s.journal.slots ∧ t.journal.newest = s.journal.newest
     ∧ t.journal.oldest = s.journal.oldest ∧ t.journal.mark = s.journal.mark ∧ t.journal.cells = s.journal.cells
     ∧ t.journal.holder = s.journal.holder ∧ t.journal.note = s.journal.note ∧ t.journal.release = s.journal.release := by
  revert h
  simp only [State.deliver, State.openMark, State.closeMark, State.tagOpenMark, State.tagCloseMark, State.tipMark,
    State.packMark, State.ejectMark, State.packSweep, State.packCompress]
  (repeat' split) <;> intro h <;> cases h <;> simp


@[simp] theorem State.reach_journal (n : Nat) (s : State) (c : Channel) :
    (s.reach n c).journal.starting = s.journal.starting ∧ (s.reach n c).journal.slots = s.journal.slots
     ∧ (s.reach n c).journal.newest = s.journal.newest ∧ (s.reach n c).journal.oldest = s.journal.oldest
     ∧ (s.reach n c).journal.mark = s.journal.mark ∧ (s.reach n c).journal.cells = s.journal.cells
     ∧ (s.reach n c).journal.holder = s.journal.holder ∧ (s.reach n c).journal.note = s.journal.note
     ∧ (s.reach n c).journal.release = s.journal.release := by
  induction n generalizing s with
  | zero => simp [State.reach]
  | succ n ih =>
    simp only [State.reach]
    split
    · simp
    split
    · simp
    split
    case h_6 =>
      split
      · rename_i h
        have hd := State.deliver_journal h
        split <;> simp_all
      · simp
    case h_5 => split <;> simp [ih]
    case h_7 =>
      split
      · split <;> simp [ih]
      · simp
    all_goals simp

@[simp] theorem State.continueElement_journal (s : State) (c : Channel) (r : Chan) :
    (s.continueElement c r).journal.starting = s.journal.starting
     ∧ (s.continueElement c r).journal.slots = s.journal.slots
     ∧ (s.continueElement c r).journal.newest = s.journal.newest
     ∧ (s.continueElement c r).journal.oldest = s.journal.oldest
     ∧ (s.continueElement c r).journal.mark = s.journal.mark ∧ (s.continueElement c r).journal.cells = s.journal.cells
     ∧ (s.continueElement c r).journal.holder = s.journal.holder
     ∧ (s.continueElement c r).journal.note = s.journal.note
     ∧ (s.continueElement c r).journal.release = s.journal.release := by
  simp only [State.continueElement]
  split
  case h_6 =>
    split
    · have hp := State.passAwait_journal s c
      split <;> rename_i h <;> rw [h] at hp <;> simp_all
    · simp
  all_goals simp

@[simp] theorem State.expire_journal (s : State) (c : Channel) :
    (s.expire c).journal.starting = s.journal.starting ∧ (s.expire c).journal.slots = s.journal.slots
     ∧ (s.expire c).journal.newest = s.journal.newest ∧ (s.expire c).journal.oldest = s.journal.oldest
     ∧ (s.expire c).journal.mark = s.journal.mark ∧ (s.expire c).journal.cells = s.journal.cells
     ∧ (s.expire c).journal.holder = s.journal.holder ∧ (s.expire c).journal.note = s.journal.note
     ∧ (s.expire c).journal.release = s.journal.release := by
  simp only [State.expire]
  (repeat' split) <;> simp

@[simp] theorem State.coilFault_journal (s : State) (c : Channel) (l : Latch) :
    (s.coilFault c l).journal.starting = s.journal.starting ∧ (s.coilFault c l).journal.slots = s.journal.slots
     ∧ (s.coilFault c l).journal.newest = s.journal.newest ∧ (s.coilFault c l).journal.oldest = s.journal.oldest
     ∧ (s.coilFault c l).journal.mark = s.journal.mark ∧ (s.coilFault c l).journal.cells = s.journal.cells
     ∧ (s.coilFault c l).journal.holder = s.journal.holder ∧ (s.coilFault c l).journal.note = s.journal.note
     ∧ (s.coilFault c l).journal.release = s.journal.release := by
  simp only [State.coilFault]
  (repeat' split) <;> simp

@[simp] theorem State.takeLift_journal (h : Header) (f : LiftFields) (s : State) :
    (State.takeLift h f s).journal.starting = s.journal.starting
     ∧ (State.takeLift h f s).journal.slots = s.journal.slots
     ∧ (State.takeLift h f s).journal.newest = s.journal.newest
     ∧ (State.takeLift h f s).journal.oldest = s.journal.oldest ∧ (State.takeLift h f s).journal.mark = s.journal.mark
     ∧ (State.takeLift h f s).journal.cells = s.journal.cells
     ∧ (State.takeLift h f s).journal.holder = s.journal.holder ∧ (State.takeLift h f s).journal.note = s.journal.note
     ∧ (State.takeLift h f s).journal.release = s.journal.release := by
  simp only [State.takeLift, State.acceptLift]
  (repeat' split) <;> simp

@[simp] theorem State.resumeCycle_journal (s : State) (p : ProfilePhase) :
    (s.resumeCycle p).journal.starting = s.journal.starting ∧ (s.resumeCycle p).journal.slots = s.journal.slots
     ∧ (s.resumeCycle p).journal.newest = s.journal.newest ∧ (s.resumeCycle p).journal.oldest = s.journal.oldest
     ∧ (s.resumeCycle p).journal.mark = s.journal.mark ∧ (s.resumeCycle p).journal.cells = s.journal.cells
     ∧ (s.resumeCycle p).journal.holder = s.journal.holder ∧ (s.resumeCycle p).journal.note = s.journal.note
     ∧ (s.resumeCycle p).journal.release = s.journal.release := by
  simp only [State.resumeCycle]
  (repeat' split) <;> simp

@[simp] theorem State.takeResume_journal (h : Header) (s : State) :
    (State.takeResume h s).journal.starting = s.journal.starting
     ∧ (State.takeResume h s).journal.slots = s.journal.slots
     ∧ (State.takeResume h s).journal.newest = s.journal.newest
     ∧ (State.takeResume h s).journal.oldest = s.journal.oldest ∧ (State.takeResume h s).journal.mark = s.journal.mark
     ∧ (State.takeResume h s).journal.cells = s.journal.cells
     ∧ (State.takeResume h s).journal.holder = s.journal.holder ∧ (State.takeResume h s).journal.note = s.journal.note
     ∧ (State.takeResume h s).journal.release = s.journal.release := by
  simp only [State.takeResume]
  (repeat' split) <;> simp

@[simp] theorem State.enterRecover_journal (s : State) (f : Bool) :
    (s.enterRecover f).journal.starting = s.journal.starting ∧ (s.enterRecover f).journal.slots = s.journal.slots
     ∧ (s.enterRecover f).journal.newest = s.journal.newest ∧ (s.enterRecover f).journal.oldest = s.journal.oldest
     ∧ (s.enterRecover f).journal.mark = s.journal.mark ∧ (s.enterRecover f).journal.cells = s.journal.cells
     ∧ (s.enterRecover f).journal.holder = s.journal.holder ∧ (s.enterRecover f).journal.note = s.journal.note
     ∧ (s.enterRecover f).journal.release = s.journal.release := by
  simp only [State.enterRecover]
  (repeat' split) <;> simp

@[simp] theorem State.takeAbort_journal (h : Header) (s : State) :
    (State.takeAbort h s).journal.starting = s.journal.starting
     ∧ (State.takeAbort h s).journal.slots = s.journal.slots ∧ (State.takeAbort h s).journal.newest = s.journal.newest
     ∧ (State.takeAbort h s).journal.oldest = s.journal.oldest ∧ (State.takeAbort h s).journal.mark = s.journal.mark
     ∧ (State.takeAbort h s).journal.cells = s.journal.cells ∧ (State.takeAbort h s).journal.holder = s.journal.holder
     ∧ (State.takeAbort h s).journal.note = s.journal.note ∧ (State.takeAbort h s).journal.release = s.journal.release := by
  simp only [State.takeAbort]
  (repeat' split) <;> simp

@[simp] theorem State.takeCycleClear_journal (h : Header) (s : State) :
    (State.takeCycleClear h s).journal.starting = s.journal.starting
     ∧ (State.takeCycleClear h s).journal.slots = s.journal.slots
     ∧ (State.takeCycleClear h s).journal.newest = s.journal.newest
     ∧ (State.takeCycleClear h s).journal.oldest = s.journal.oldest
     ∧ (State.takeCycleClear h s).journal.mark = s.journal.mark
     ∧ (State.takeCycleClear h s).journal.cells = s.journal.cells
     ∧ (State.takeCycleClear h s).journal.holder = s.journal.holder
     ∧ (State.takeCycleClear h s).journal.note = s.journal.note
     ∧ (State.takeCycleClear h s).journal.release = s.journal.release := by
  simp only [State.takeCycleClear]
  (repeat' split) <;> simp

@[simp] theorem State.takePack_journal (h : Header) (b : Byte) (s : State) :
    (State.takePack h b s).journal.starting = s.journal.starting
     ∧ (State.takePack h b s).journal.slots = s.journal.slots
     ∧ (State.takePack h b s).journal.newest = s.journal.newest
     ∧ (State.takePack h b s).journal.oldest = s.journal.oldest ∧ (State.takePack h b s).journal.mark = s.journal.mark
     ∧ (State.takePack h b s).journal.cells = s.journal.cells
     ∧ (State.takePack h b s).journal.holder = s.journal.holder ∧ (State.takePack h b s).journal.note = s.journal.note
     ∧ (State.takePack h b s).journal.release = s.journal.release := by
  simp only [State.takePack]
  (repeat' split) <;> simp

@[simp] theorem State.takeUnload_journal (h : Header) (b : Byte) (s : State) :
    (State.takeUnload h b s).journal.starting = s.journal.starting
     ∧ (State.takeUnload h b s).journal.slots = s.journal.slots
     ∧ (State.takeUnload h b s).journal.newest = s.journal.newest
     ∧ (State.takeUnload h b s).journal.oldest = s.journal.oldest
     ∧ (State.takeUnload h b s).journal.mark = s.journal.mark
     ∧ (State.takeUnload h b s).journal.cells = s.journal.cells
     ∧ (State.takeUnload h b s).journal.holder = s.journal.holder
     ∧ (State.takeUnload h b s).journal.note = s.journal.note
     ∧ (State.takeUnload h b s).journal.release = s.journal.release := by
  simp only [State.takeUnload]
  (repeat' split) <;> simp

@[simp] theorem State.takeAbortUnload_journal (h : Header) (b : Byte) (s : State) :
    (State.takeAbortUnload h b s).journal.starting = s.journal.starting
     ∧ (State.takeAbortUnload h b s).journal.slots = s.journal.slots
     ∧ (State.takeAbortUnload h b s).journal.newest = s.journal.newest
     ∧ (State.takeAbortUnload h b s).journal.oldest = s.journal.oldest
     ∧ (State.takeAbortUnload h b s).journal.mark = s.journal.mark
     ∧ (State.takeAbortUnload h b s).journal.cells = s.journal.cells
     ∧ (State.takeAbortUnload h b s).journal.holder = s.journal.holder
     ∧ (State.takeAbortUnload h b s).journal.note = s.journal.note
     ∧ (State.takeAbortUnload h b s).journal.release = s.journal.release := by
  simp only [State.takeAbortUnload]
  (repeat' split) <;> simp

@[simp] theorem State.useSettings_journal (s : State) (l : List (Setting × Nat)) :
    (s.useSettings l).journal.starting = s.journal.starting ∧ (s.useSettings l).journal.slots = s.journal.slots
     ∧ (s.useSettings l).journal.newest = s.journal.newest ∧ (s.useSettings l).journal.oldest = s.journal.oldest
     ∧ (s.useSettings l).journal.mark = s.journal.mark ∧ (s.useSettings l).journal.cells = s.journal.cells
     ∧ (s.useSettings l).journal.holder = s.journal.holder ∧ (s.useSettings l).journal.note = s.journal.note
     ∧ (s.useSettings l).journal.release = s.journal.release := by
  simp only [State.useSettings]
  (repeat' split) <;> simp

@[simp] theorem State.takeSettingPut_journal (h : Header) (l : List (Byte × BitVec 16)) (s : State) :
    (State.takeSettingPut h l s).journal.starting = s.journal.starting
     ∧ (State.takeSettingPut h l s).journal.slots = s.journal.slots
     ∧ (State.takeSettingPut h l s).journal.newest = s.journal.newest
     ∧ (State.takeSettingPut h l s).journal.oldest = s.journal.oldest
     ∧ (State.takeSettingPut h l s).journal.mark = s.journal.mark
     ∧ (State.takeSettingPut h l s).journal.cells = s.journal.cells
     ∧ (State.takeSettingPut h l s).journal.holder = s.journal.holder
     ∧ (State.takeSettingPut h l s).journal.note = s.journal.note
     ∧ (State.takeSettingPut h l s).journal.release = s.journal.release := by
  simp only [State.takeSettingPut, State.applySettings]
  (repeat' split) <;> simp

@[simp] theorem State.takeCommit_journal (h : Header) (s : State) :
    (State.takeCommit h s).journal.starting = s.journal.starting
     ∧ (State.takeCommit h s).journal.slots = s.journal.slots
     ∧ (State.takeCommit h s).journal.newest = s.journal.newest
     ∧ (State.takeCommit h s).journal.oldest = s.journal.oldest ∧ (State.takeCommit h s).journal.mark = s.journal.mark
     ∧ (State.takeCommit h s).journal.cells = s.journal.cells
     ∧ (State.takeCommit h s).journal.holder = s.journal.holder ∧ (State.takeCommit h s).journal.note = s.journal.note
     ∧ (State.takeCommit h s).journal.release = s.journal.release := by
  simp only [State.takeCommit, State.lockRequest, State.openRequest, State.unlessWriting, State.startCommit]
  (repeat' split) <;> simp

@[simp] theorem State.finishCommit_journal (s : State) :
    (s.finishCommit).journal.starting = s.journal.starting ∧ (s.finishCommit).journal.slots = s.journal.slots
     ∧ (s.finishCommit).journal.newest = s.journal.newest ∧ (s.finishCommit).journal.oldest = s.journal.oldest
     ∧ (s.finishCommit).journal.mark = s.journal.mark ∧ (s.finishCommit).journal.cells = s.journal.cells
     ∧ (s.finishCommit).journal.holder = s.journal.holder ∧ (s.finishCommit).journal.note = s.journal.note
     ∧ (s.finishCommit).journal.release = s.journal.release := by
  simp only [State.finishCommit]
  (repeat' split) <;> simp

@[simp] theorem State.changePto_journal (s : State) (on : Bool) :
    (s.changePto on).journal.starting = s.journal.starting ∧ (s.changePto on).journal.slots = s.journal.slots
     ∧ (s.changePto on).journal.newest = s.journal.newest ∧ (s.changePto on).journal.oldest = s.journal.oldest
     ∧ (s.changePto on).journal.mark = s.journal.mark ∧ (s.changePto on).journal.cells = s.journal.cells
     ∧ (s.changePto on).journal.holder = s.journal.holder ∧ (s.changePto on).journal.note = s.journal.note
     ∧ (s.changePto on).journal.release = s.journal.release := by
  simp only [State.changePto]
  (repeat' split) <;> simp

/-! ## The Metrology Lock: weighing touches the health attributes alone -/

@[simp] theorem State.noteOutcome_lock (s : State) (o : WindowOutcome) :
    (s.noteOutcome o).lock.reading = s.lock.reading ∧ (s.noteOutcome o).lock.state = s.lock.state
     ∧ (s.noteOutcome o).lock.failed = s.lock.failed ∧ (s.noteOutcome o).lock.cal = s.lock.cal
     ∧ (s.noteOutcome o).lock.reference = s.lock.reference ∧ (s.noteOutcome o).lock.working = s.lock.working
     ∧ (s.noteOutcome o).lock.lockedCheck = s.lock.lockedCheck ∧ (s.noteOutcome o).lock.cec = s.lock.cec
     ∧ (s.noteOutcome o).lock.code = s.lock.code ∧ (s.noteOutcome o).lock.level = s.lock.level
     ∧ (s.noteOutcome o).lock.write = s.lock.write ∧ (s.noteOutcome o).lock.block = s.lock.block
     ∧ (s.noteOutcome o).lock.codeRecord = s.lock.codeRecord ∧ (s.noteOutcome o).lock.counterCell = s.lock.counterCell := by
  simp [State.noteOutcome]

@[simp] theorem State.closeWindow_lock (s : State) :
    (s.closeWindow).lock.reading = s.lock.reading ∧ (s.closeWindow).lock.state = s.lock.state
     ∧ (s.closeWindow).lock.failed = s.lock.failed ∧ (s.closeWindow).lock.cal = s.lock.cal
     ∧ (s.closeWindow).lock.reference = s.lock.reference ∧ (s.closeWindow).lock.working = s.lock.working
     ∧ (s.closeWindow).lock.lockedCheck = s.lock.lockedCheck ∧ (s.closeWindow).lock.cec = s.lock.cec
     ∧ (s.closeWindow).lock.code = s.lock.code ∧ (s.closeWindow).lock.level = s.lock.level
     ∧ (s.closeWindow).lock.write = s.lock.write ∧ (s.closeWindow).lock.block = s.lock.block
     ∧ (s.closeWindow).lock.codeRecord = s.lock.codeRecord ∧ (s.closeWindow).lock.counterCell = s.lock.counterCell := by
  simp only [State.closeWindow]
  (repeat' split) <;> simp

@[simp] theorem State.takeZero_lock (s : State) (w : Window) (r : Int) :
    (s.takeZero w r).lock.reading = s.lock.reading ∧ (s.takeZero w r).lock.state = s.lock.state
     ∧ (s.takeZero w r).lock.failed = s.lock.failed ∧ (s.takeZero w r).lock.cal = s.lock.cal
     ∧ (s.takeZero w r).lock.reference = s.lock.reference ∧ (s.takeZero w r).lock.working = s.lock.working
     ∧ (s.takeZero w r).lock.lockedCheck = s.lock.lockedCheck ∧ (s.takeZero w r).lock.cec = s.lock.cec
     ∧ (s.takeZero w r).lock.code = s.lock.code ∧ (s.takeZero w r).lock.level = s.lock.level
     ∧ (s.takeZero w r).lock.write = s.lock.write ∧ (s.takeZero w r).lock.block = s.lock.block
     ∧ (s.takeZero w r).lock.codeRecord = s.lock.codeRecord ∧ (s.takeZero w r).lock.counterCell = s.lock.counterCell := by
  simp only [State.takeZero]
  (repeat' split) <;> simp

@[simp] theorem State.handCapture_lock (s : State) (w : Window) (c : Capture) :
    (s.handCapture w c).lock.reading = s.lock.reading ∧ (s.handCapture w c).lock.state = s.lock.state
     ∧ (s.handCapture w c).lock.failed = s.lock.failed ∧ (s.handCapture w c).lock.cal = s.lock.cal
     ∧ (s.handCapture w c).lock.reference = s.lock.reference ∧ (s.handCapture w c).lock.working = s.lock.working
     ∧ (s.handCapture w c).lock.lockedCheck = s.lock.lockedCheck ∧ (s.handCapture w c).lock.cec = s.lock.cec
     ∧ (s.handCapture w c).lock.code = s.lock.code ∧ (s.handCapture w c).lock.level = s.lock.level
     ∧ (s.handCapture w c).lock.write = s.lock.write ∧ (s.handCapture w c).lock.block = s.lock.block
     ∧ (s.handCapture w c).lock.codeRecord = s.lock.codeRecord
     ∧ (s.handCapture w c).lock.counterCell = s.lock.counterCell := by
  simp only [State.handCapture]
  (repeat' split) <;> simp

@[simp] theorem State.blockArrival_lock (s : State) (b : Block) :
    (s.blockArrival b).lock.reading = s.lock.reading ∧ (s.blockArrival b).lock.state = s.lock.state
     ∧ (s.blockArrival b).lock.failed = s.lock.failed ∧ (s.blockArrival b).lock.cal = s.lock.cal
     ∧ (s.blockArrival b).lock.reference = s.lock.reference ∧ (s.blockArrival b).lock.working = s.lock.working
     ∧ (s.blockArrival b).lock.lockedCheck = s.lock.lockedCheck ∧ (s.blockArrival b).lock.cec = s.lock.cec
     ∧ (s.blockArrival b).lock.code = s.lock.code ∧ (s.blockArrival b).lock.level = s.lock.level
     ∧ (s.blockArrival b).lock.write = s.lock.write ∧ (s.blockArrival b).lock.block = s.lock.block
     ∧ (s.blockArrival b).lock.codeRecord = s.lock.codeRecord
     ∧ (s.blockArrival b).lock.counterCell = s.lock.counterCell := by
  simp only [State.blockArrival]
  (repeat' split) <;> simp

@[simp] theorem State.workPair_lock (s : State) (a b : BitVec 24) :
    (s.workPair a b).lock.reading = s.lock.reading ∧ (s.workPair a b).lock.state = s.lock.state
     ∧ (s.workPair a b).lock.failed = s.lock.failed ∧ (s.workPair a b).lock.cal = s.lock.cal
     ∧ (s.workPair a b).lock.reference = s.lock.reference ∧ (s.workPair a b).lock.working = s.lock.working
     ∧ (s.workPair a b).lock.lockedCheck = s.lock.lockedCheck ∧ (s.workPair a b).lock.cec = s.lock.cec
     ∧ (s.workPair a b).lock.code = s.lock.code ∧ (s.workPair a b).lock.level = s.lock.level
     ∧ (s.workPair a b).lock.write = s.lock.write ∧ (s.workPair a b).lock.block = s.lock.block
     ∧ (s.workPair a b).lock.codeRecord = s.lock.codeRecord ∧ (s.workPair a b).lock.counterCell = s.lock.counterCell := by
  simp only [State.workPair]
  (repeat' split) <;> simp

@[simp] theorem State.endPhase_lock (s : State) (p : ProfilePhase) :
    ((s.endPhase p).1).lock.reading = s.lock.reading ∧ ((s.endPhase p).1).lock.state = s.lock.state
     ∧ ((s.endPhase p).1).lock.failed = s.lock.failed ∧ ((s.endPhase p).1).lock.cal = s.lock.cal
     ∧ ((s.endPhase p).1).lock.reference = s.lock.reference ∧ ((s.endPhase p).1).lock.working = s.lock.working
     ∧ ((s.endPhase p).1).lock.lockedCheck = s.lock.lockedCheck ∧ ((s.endPhase p).1).lock.cec = s.lock.cec
     ∧ ((s.endPhase p).1).lock.code = s.lock.code ∧ ((s.endPhase p).1).lock.level = s.lock.level
     ∧ ((s.endPhase p).1).lock.write = s.lock.write ∧ ((s.endPhase p).1).lock.block = s.lock.block
     ∧ ((s.endPhase p).1).lock.codeRecord = s.lock.codeRecord
     ∧ ((s.endPhase p).1).lock.counterCell = s.lock.counterCell := by
  simp only [State.endPhase]
  (repeat' split) <;> simp

@[simp] theorem State.enterPhases_lock (n : Nat) (s : State) (p : ProfilePhase) :
    (State.enterPhases n s p).lock.reading = s.lock.reading ∧ (State.enterPhases n s p).lock.state = s.lock.state
     ∧ (State.enterPhases n s p).lock.failed = s.lock.failed ∧ (State.enterPhases n s p).lock.cal = s.lock.cal
     ∧ (State.enterPhases n s p).lock.reference = s.lock.reference
     ∧ (State.enterPhases n s p).lock.working = s.lock.working
     ∧ (State.enterPhases n s p).lock.lockedCheck = s.lock.lockedCheck
     ∧ (State.enterPhases n s p).lock.cec = s.lock.cec ∧ (State.enterPhases n s p).lock.code = s.lock.code
     ∧ (State.enterPhases n s p).lock.level = s.lock.level ∧ (State.enterPhases n s p).lock.write = s.lock.write
     ∧ (State.enterPhases n s p).lock.block = s.lock.block
     ∧ (State.enterPhases n s p).lock.codeRecord = s.lock.codeRecord
     ∧ (State.enterPhases n s p).lock.counterCell = s.lock.counterCell := by
  induction n generalizing s p with
  | zero => simp [State.enterPhases]
  | succ n ih =>
    simp only [State.enterPhases]
    split
    · simp
    · rename_i x _
      have he := State.endPhase_lock (s.startPhase x p) p
      simp only [State.startPhase_frame] at he
      split
      · split <;> rename_i h
        · rw [h] at he
          simp_all
        · rw [h] at he
          simp_all
      · simp

@[simp] theorem State.enterPhase_lock (s : State) (p : ProfilePhase) :
    (s.enterPhase p).lock.reading = s.lock.reading ∧ (s.enterPhase p).lock.state = s.lock.state
     ∧ (s.enterPhase p).lock.failed = s.lock.failed ∧ (s.enterPhase p).lock.cal = s.lock.cal
     ∧ (s.enterPhase p).lock.reference = s.lock.reference ∧ (s.enterPhase p).lock.working = s.lock.working
     ∧ (s.enterPhase p).lock.lockedCheck = s.lock.lockedCheck ∧ (s.enterPhase p).lock.cec = s.lock.cec
     ∧ (s.enterPhase p).lock.code = s.lock.code ∧ (s.enterPhase p).lock.level = s.lock.level
     ∧ (s.enterPhase p).lock.write = s.lock.write ∧ (s.enterPhase p).lock.block = s.lock.block
     ∧ (s.enterPhase p).lock.codeRecord = s.lock.codeRecord ∧ (s.enterPhase p).lock.counterCell = s.lock.counterCell := by
  simp [State.enterPhase]

@[simp] theorem State.cycleEnd_lock (s : State) :
    (s.cycleEnd).lock.reading = s.lock.reading ∧ (s.cycleEnd).lock.state = s.lock.state
     ∧ (s.cycleEnd).lock.failed = s.lock.failed ∧ (s.cycleEnd).lock.cal = s.lock.cal
     ∧ (s.cycleEnd).lock.reference = s.lock.reference ∧ (s.cycleEnd).lock.working = s.lock.working
     ∧ (s.cycleEnd).lock.lockedCheck = s.lock.lockedCheck ∧ (s.cycleEnd).lock.cec = s.lock.cec
     ∧ (s.cycleEnd).lock.code = s.lock.code ∧ (s.cycleEnd).lock.level = s.lock.level
     ∧ (s.cycleEnd).lock.write = s.lock.write ∧ (s.cycleEnd).lock.block = s.lock.block
     ∧ (s.cycleEnd).lock.codeRecord = s.lock.codeRecord ∧ (s.cycleEnd).lock.counterCell = s.lock.counterCell := by
  simp only [State.cycleEnd]
  split
  · rename_i p _
    have he := State.endPhase_lock s p
    split
    · split <;> rename_i h <;> rw [h] at he <;> simp_all
    · simp
  all_goals simp

@[simp] theorem State.failChan_lock (s : State) (c : Channel) (k : FaultKind) (a : Nat) :
    (s.failChan c k a).lock.reading = s.lock.reading ∧ (s.failChan c k a).lock.state = s.lock.state
     ∧ (s.failChan c k a).lock.failed = s.lock.failed ∧ (s.failChan c k a).lock.cal = s.lock.cal
     ∧ (s.failChan c k a).lock.reference = s.lock.reference ∧ (s.failChan c k a).lock.working = s.lock.working
     ∧ (s.failChan c k a).lock.lockedCheck = s.lock.lockedCheck ∧ (s.failChan c k a).lock.cec = s.lock.cec
     ∧ (s.failChan c k a).lock.code = s.lock.code ∧ (s.failChan c k a).lock.level = s.lock.level
     ∧ (s.failChan c k a).lock.write = s.lock.write ∧ (s.failChan c k a).lock.block = s.lock.block
     ∧ (s.failChan c k a).lock.codeRecord = s.lock.codeRecord
     ∧ (s.failChan c k a).lock.counterCell = s.lock.counterCell := by
  simp only [State.failChan]
  (repeat' split) <;> simp

@[simp] theorem State.endChan_lock (s : State) (c : Channel) :
    (s.endChan c).lock.reading = s.lock.reading ∧ (s.endChan c).lock.state = s.lock.state
     ∧ (s.endChan c).lock.failed = s.lock.failed ∧ (s.endChan c).lock.cal = s.lock.cal
     ∧ (s.endChan c).lock.reference = s.lock.reference ∧ (s.endChan c).lock.working = s.lock.working
     ∧ (s.endChan c).lock.lockedCheck = s.lock.lockedCheck ∧ (s.endChan c).lock.cec = s.lock.cec
     ∧ (s.endChan c).lock.code = s.lock.code ∧ (s.endChan c).lock.level = s.lock.level
     ∧ (s.endChan c).lock.write = s.lock.write ∧ (s.endChan c).lock.block = s.lock.block
     ∧ (s.endChan c).lock.codeRecord = s.lock.codeRecord ∧ (s.endChan c).lock.counterCell = s.lock.counterCell := by
  simp only [State.endChan]
  (repeat' split) <;> simp

@[simp] theorem State.advance_lock (s : State) (c : Channel) :
    ((s.advance c).1).lock.reading = s.lock.reading ∧ ((s.advance c).1).lock.state = s.lock.state
     ∧ ((s.advance c).1).lock.failed = s.lock.failed ∧ ((s.advance c).1).lock.cal = s.lock.cal
     ∧ ((s.advance c).1).lock.reference = s.lock.reference ∧ ((s.advance c).1).lock.working = s.lock.working
     ∧ ((s.advance c).1).lock.lockedCheck = s.lock.lockedCheck ∧ ((s.advance c).1).lock.cec = s.lock.cec
     ∧ ((s.advance c).1).lock.code = s.lock.code ∧ ((s.advance c).1).lock.level = s.lock.level
     ∧ ((s.advance c).1).lock.write = s.lock.write ∧ ((s.advance c).1).lock.block = s.lock.block
     ∧ ((s.advance c).1).lock.codeRecord = s.lock.codeRecord ∧ ((s.advance c).1).lock.counterCell = s.lock.counterCell := by
  simp only [State.advance]
  split <;> simp

@[simp] theorem State.completeElement_lock (s : State) (c : Channel) (u : Int) :
    (s.completeElement c u).lock.reading = s.lock.reading ∧ (s.completeElement c u).lock.state = s.lock.state
     ∧ (s.completeElement c u).lock.failed = s.lock.failed ∧ (s.completeElement c u).lock.cal = s.lock.cal
     ∧ (s.completeElement c u).lock.reference = s.lock.reference
     ∧ (s.completeElement c u).lock.working = s.lock.working
     ∧ (s.completeElement c u).lock.lockedCheck = s.lock.lockedCheck ∧ (s.completeElement c u).lock.cec = s.lock.cec
     ∧ (s.completeElement c u).lock.code = s.lock.code ∧ (s.completeElement c u).lock.level = s.lock.level
     ∧ (s.completeElement c u).lock.write = s.lock.write ∧ (s.completeElement c u).lock.block = s.lock.block
     ∧ (s.completeElement c u).lock.codeRecord = s.lock.codeRecord
     ∧ (s.completeElement c u).lock.counterCell = s.lock.counterCell := by
  simp [State.completeElement]

@[simp] theorem State.rampStep_lock (s : State) (c : Channel) (u0 t : Int) (k n : Nat) :
    (s.rampStep c u0 t k n).lock.reading = s.lock.reading ∧ (s.rampStep c u0 t k n).lock.state = s.lock.state
     ∧ (s.rampStep c u0 t k n).lock.failed = s.lock.failed ∧ (s.rampStep c u0 t k n).lock.cal = s.lock.cal
     ∧ (s.rampStep c u0 t k n).lock.reference = s.lock.reference
     ∧ (s.rampStep c u0 t k n).lock.working = s.lock.working
     ∧ (s.rampStep c u0 t k n).lock.lockedCheck = s.lock.lockedCheck ∧ (s.rampStep c u0 t k n).lock.cec = s.lock.cec
     ∧ (s.rampStep c u0 t k n).lock.code = s.lock.code ∧ (s.rampStep c u0 t k n).lock.level = s.lock.level
     ∧ (s.rampStep c u0 t k n).lock.write = s.lock.write ∧ (s.rampStep c u0 t k n).lock.block = s.lock.block
     ∧ (s.rampStep c u0 t k n).lock.codeRecord = s.lock.codeRecord
     ∧ (s.rampStep c u0 t k n).lock.counterCell = s.lock.counterCell := by
  simp only [State.rampStep]
  (repeat' split) <;> simp

@[simp] theorem State.deltaAt_lock (s : State) (c : Channel) (d : Int) (e k : Nat) :
    (s.deltaAt c d e k).lock.reading = s.lock.reading ∧ (s.deltaAt c d e k).lock.state = s.lock.state
     ∧ (s.deltaAt c d e k).lock.failed = s.lock.failed ∧ (s.deltaAt c d e k).lock.cal = s.lock.cal
     ∧ (s.deltaAt c d e k).lock.reference = s.lock.reference ∧ (s.deltaAt c d e k).lock.working = s.lock.working
     ∧ (s.deltaAt c d e k).lock.lockedCheck = s.lock.lockedCheck ∧ (s.deltaAt c d e k).lock.cec = s.lock.cec
     ∧ (s.deltaAt c d e k).lock.code = s.lock.code ∧ (s.deltaAt c d e k).lock.level = s.lock.level
     ∧ (s.deltaAt c d e k).lock.write = s.lock.write ∧ (s.deltaAt c d e k).lock.block = s.lock.block
     ∧ (s.deltaAt c d e k).lock.codeRecord = s.lock.codeRecord
     ∧ (s.deltaAt c d e k).lock.counterCell = s.lock.counterCell := by
  simp only [State.deltaAt]
  (repeat' split) <;> simp

@[simp] theorem State.holdStep_lock (s : State) (c : Channel) (n : Nat) :
    (s.holdStep c n).lock.reading = s.lock.reading ∧ (s.holdStep c n).lock.state = s.lock.state
     ∧ (s.holdStep c n).lock.failed = s.lock.failed ∧ (s.holdStep c n).lock.cal = s.lock.cal
     ∧ (s.holdStep c n).lock.reference = s.lock.reference ∧ (s.holdStep c n).lock.working = s.lock.working
     ∧ (s.holdStep c n).lock.lockedCheck = s.lock.lockedCheck ∧ (s.holdStep c n).lock.cec = s.lock.cec
     ∧ (s.holdStep c n).lock.code = s.lock.code ∧ (s.holdStep c n).lock.level = s.lock.level
     ∧ (s.holdStep c n).lock.write = s.lock.write ∧ (s.holdStep c n).lock.block = s.lock.block
     ∧ (s.holdStep c n).lock.codeRecord = s.lock.codeRecord ∧ (s.holdStep c n).lock.counterCell = s.lock.counterCell := by
  simp only [State.holdStep]
  (repeat' split) <;> simp

@[simp] theorem State.countAwait_lock (s : State) (c : Channel) :
    (s.countAwait c).lock.reading = s.lock.reading ∧ (s.countAwait c).lock.state = s.lock.state
     ∧ (s.countAwait c).lock.failed = s.lock.failed ∧ (s.countAwait c).lock.cal = s.lock.cal
     ∧ (s.countAwait c).lock.reference = s.lock.reference ∧ (s.countAwait c).lock.working = s.lock.working
     ∧ (s.countAwait c).lock.lockedCheck = s.lock.lockedCheck ∧ (s.countAwait c).lock.cec = s.lock.cec
     ∧ (s.countAwait c).lock.code = s.lock.code ∧ (s.countAwait c).lock.level = s.lock.level
     ∧ (s.countAwait c).lock.write = s.lock.write ∧ (s.countAwait c).lock.block = s.lock.block
     ∧ (s.countAwait c).lock.codeRecord = s.lock.codeRecord ∧ (s.countAwait c).lock.counterCell = s.lock.counterCell := by
  simp only [State.countAwait]
  (repeat' split) <;> simp

@[simp] theorem State.passAwait_lock (s : State) (c : Channel) :
    ((s.passAwait c).1).lock.reading = s.lock.reading ∧ ((s.passAwait c).1).lock.state = s.lock.state
     ∧ ((s.passAwait c).1).lock.failed = s.lock.failed ∧ ((s.passAwait c).1).lock.cal = s.lock.cal
     ∧ ((s.passAwait c).1).lock.reference = s.lock.reference ∧ ((s.passAwait c).1).lock.working = s.lock.working
     ∧ ((s.passAwait c).1).lock.lockedCheck = s.lock.lockedCheck ∧ ((s.passAwait c).1).lock.cec = s.lock.cec
     ∧ ((s.passAwait c).1).lock.code = s.lock.code ∧ ((s.passAwait c).1).lock.level = s.lock.level
     ∧ ((s.passAwait c).1).lock.write = s.lock.write ∧ ((s.passAwait c).1).lock.block = s.lock.block
     ∧ ((s.passAwait c).1).lock.codeRecord = s.lock.codeRecord
     ∧ ((s.passAwait c).1).lock.counterCell = s.lock.counterCell := by
  simp [State.passAwait]

theorem State.deliver_lock {s t : State} {c : Channel} {code : Nat} (h : s.deliver c code = some t) :
    t.lock.reading = s.lock.reading ∧ t.lock.state = s.lock.state ∧ t.lock.failed = s.lock.failed ∧ t.lock.cal =
     s.lock.cal ∧ t.lock.reference = s.lock.reference ∧ t.lock.working = s.lock.working ∧ t.lock.lockedCheck =
     s.lock.lockedCheck ∧ t.lock.cec = s.lock.cec ∧ t.lock.code = s.lock.code ∧ t.lock.level = s.lock.level ∧
     t.lock.write = s.lock.write ∧ t.lock.block = s.lock.block ∧ t.lock.codeRecord = s.lock.codeRecord ∧
     t.lock.counterCell = s.lock.counterCell := by
  revert h
  simp only [State.deliver, State.openMark, State.closeMark, State.tagOpenMark, State.tagCloseMark, State.tipMark,
    State.packMark, State.ejectMark, State.packSweep, State.packCompress]
  (repeat' split) <;> intro h <;> cases h <;> simp


@[simp] theorem State.reach_lock (n : Nat) (s : State) (c : Channel) :
    (s.reach n c).lock.reading = s.lock.reading ∧ (s.reach n c).lock.state = s.lock.state
     ∧ (s.reach n c).lock.failed = s.lock.failed ∧ (s.reach n c).lock.cal = s.lock.cal
     ∧ (s.reach n c).lock.reference = s.lock.reference ∧ (s.reach n c).lock.working = s.lock.working
     ∧ (s.reach n c).lock.lockedCheck = s.lock.lockedCheck ∧ (s.reach n c).lock.cec = s.lock.cec
     ∧ (s.reach n c).lock.code = s.lock.code ∧ (s.reach n c).lock.level = s.lock.level
     ∧ (s.reach n c).lock.write = s.lock.write ∧ (s.reach n c).lock.block = s.lock.block
     ∧ (s.reach n c).lock.codeRecord = s.lock.codeRecord ∧ (s.reach n c).lock.counterCell = s.lock.counterCell := by
  induction n generalizing s with
  | zero => simp [State.reach]
  | succ n ih =>
    simp only [State.reach]
    split
    · simp
    split
    · simp
    split
    case h_6 =>
      split
      · rename_i h
        have hd := State.deliver_lock h
        split <;> simp_all
      · simp
    case h_5 => split <;> simp [ih]
    case h_7 =>
      split
      · split <;> simp [ih]
      · simp
    all_goals simp

@[simp] theorem State.continueElement_lock (s : State) (c : Channel) (r : Chan) :
    (s.continueElement c r).lock.reading = s.lock.reading ∧ (s.continueElement c r).lock.state = s.lock.state
     ∧ (s.continueElement c r).lock.failed = s.lock.failed ∧ (s.continueElement c r).lock.cal = s.lock.cal
     ∧ (s.continueElement c r).lock.reference = s.lock.reference
     ∧ (s.continueElement c r).lock.working = s.lock.working
     ∧ (s.continueElement c r).lock.lockedCheck = s.lock.lockedCheck ∧ (s.continueElement c r).lock.cec = s.lock.cec
     ∧ (s.continueElement c r).lock.code = s.lock.code ∧ (s.continueElement c r).lock.level = s.lock.level
     ∧ (s.continueElement c r).lock.write = s.lock.write ∧ (s.continueElement c r).lock.block = s.lock.block
     ∧ (s.continueElement c r).lock.codeRecord = s.lock.codeRecord
     ∧ (s.continueElement c r).lock.counterCell = s.lock.counterCell := by
  simp only [State.continueElement]
  split
  case h_6 =>
    split
    · have hp := State.passAwait_lock s c
      split <;> rename_i h <;> rw [h] at hp <;> simp_all
    · simp
  all_goals simp

@[simp] theorem State.expire_lock (s : State) (c : Channel) :
    (s.expire c).lock.reading = s.lock.reading ∧ (s.expire c).lock.state = s.lock.state
     ∧ (s.expire c).lock.failed = s.lock.failed ∧ (s.expire c).lock.cal = s.lock.cal
     ∧ (s.expire c).lock.reference = s.lock.reference ∧ (s.expire c).lock.working = s.lock.working
     ∧ (s.expire c).lock.lockedCheck = s.lock.lockedCheck ∧ (s.expire c).lock.cec = s.lock.cec
     ∧ (s.expire c).lock.code = s.lock.code ∧ (s.expire c).lock.level = s.lock.level
     ∧ (s.expire c).lock.write = s.lock.write ∧ (s.expire c).lock.block = s.lock.block
     ∧ (s.expire c).lock.codeRecord = s.lock.codeRecord ∧ (s.expire c).lock.counterCell = s.lock.counterCell := by
  simp only [State.expire]
  (repeat' split) <;> simp

@[simp] theorem State.coilFault_lock (s : State) (c : Channel) (l : Latch) :
    (s.coilFault c l).lock.reading = s.lock.reading ∧ (s.coilFault c l).lock.state = s.lock.state
     ∧ (s.coilFault c l).lock.failed = s.lock.failed ∧ (s.coilFault c l).lock.cal = s.lock.cal
     ∧ (s.coilFault c l).lock.reference = s.lock.reference ∧ (s.coilFault c l).lock.working = s.lock.working
     ∧ (s.coilFault c l).lock.lockedCheck = s.lock.lockedCheck ∧ (s.coilFault c l).lock.cec = s.lock.cec
     ∧ (s.coilFault c l).lock.code = s.lock.code ∧ (s.coilFault c l).lock.level = s.lock.level
     ∧ (s.coilFault c l).lock.write = s.lock.write ∧ (s.coilFault c l).lock.block = s.lock.block
     ∧ (s.coilFault c l).lock.codeRecord = s.lock.codeRecord ∧ (s.coilFault c l).lock.counterCell = s.lock.counterCell := by
  simp only [State.coilFault]
  (repeat' split) <;> simp

@[simp] theorem State.takeLift_lock (h : Header) (f : LiftFields) (s : State) :
    (State.takeLift h f s).lock.reading = s.lock.reading ∧ (State.takeLift h f s).lock.state = s.lock.state
     ∧ (State.takeLift h f s).lock.failed = s.lock.failed ∧ (State.takeLift h f s).lock.cal = s.lock.cal
     ∧ (State.takeLift h f s).lock.reference = s.lock.reference ∧ (State.takeLift h f s).lock.working = s.lock.working
     ∧ (State.takeLift h f s).lock.lockedCheck = s.lock.lockedCheck ∧ (State.takeLift h f s).lock.cec = s.lock.cec
     ∧ (State.takeLift h f s).lock.code = s.lock.code ∧ (State.takeLift h f s).lock.level = s.lock.level
     ∧ (State.takeLift h f s).lock.write = s.lock.write ∧ (State.takeLift h f s).lock.block = s.lock.block
     ∧ (State.takeLift h f s).lock.codeRecord = s.lock.codeRecord
     ∧ (State.takeLift h f s).lock.counterCell = s.lock.counterCell := by
  simp only [State.takeLift, State.acceptLift]
  (repeat' split) <;> simp

@[simp] theorem State.resumeCycle_lock (s : State) (p : ProfilePhase) :
    (s.resumeCycle p).lock.reading = s.lock.reading ∧ (s.resumeCycle p).lock.state = s.lock.state
     ∧ (s.resumeCycle p).lock.failed = s.lock.failed ∧ (s.resumeCycle p).lock.cal = s.lock.cal
     ∧ (s.resumeCycle p).lock.reference = s.lock.reference ∧ (s.resumeCycle p).lock.working = s.lock.working
     ∧ (s.resumeCycle p).lock.lockedCheck = s.lock.lockedCheck ∧ (s.resumeCycle p).lock.cec = s.lock.cec
     ∧ (s.resumeCycle p).lock.code = s.lock.code ∧ (s.resumeCycle p).lock.level = s.lock.level
     ∧ (s.resumeCycle p).lock.write = s.lock.write ∧ (s.resumeCycle p).lock.block = s.lock.block
     ∧ (s.resumeCycle p).lock.codeRecord = s.lock.codeRecord ∧ (s.resumeCycle p).lock.counterCell = s.lock.counterCell := by
  simp only [State.resumeCycle]
  (repeat' split) <;> simp

@[simp] theorem State.takeResume_lock (h : Header) (s : State) :
    (State.takeResume h s).lock.reading = s.lock.reading ∧ (State.takeResume h s).lock.state = s.lock.state
     ∧ (State.takeResume h s).lock.failed = s.lock.failed ∧ (State.takeResume h s).lock.cal = s.lock.cal
     ∧ (State.takeResume h s).lock.reference = s.lock.reference ∧ (State.takeResume h s).lock.working = s.lock.working
     ∧ (State.takeResume h s).lock.lockedCheck = s.lock.lockedCheck ∧ (State.takeResume h s).lock.cec = s.lock.cec
     ∧ (State.takeResume h s).lock.code = s.lock.code ∧ (State.takeResume h s).lock.level = s.lock.level
     ∧ (State.takeResume h s).lock.write = s.lock.write ∧ (State.takeResume h s).lock.block = s.lock.block
     ∧ (State.takeResume h s).lock.codeRecord = s.lock.codeRecord
     ∧ (State.takeResume h s).lock.counterCell = s.lock.counterCell := by
  simp only [State.takeResume]
  (repeat' split) <;> simp

@[simp] theorem State.enterRecover_lock (s : State) (f : Bool) :
    (s.enterRecover f).lock.reading = s.lock.reading ∧ (s.enterRecover f).lock.state = s.lock.state
     ∧ (s.enterRecover f).lock.failed = s.lock.failed ∧ (s.enterRecover f).lock.cal = s.lock.cal
     ∧ (s.enterRecover f).lock.reference = s.lock.reference ∧ (s.enterRecover f).lock.working = s.lock.working
     ∧ (s.enterRecover f).lock.lockedCheck = s.lock.lockedCheck ∧ (s.enterRecover f).lock.cec = s.lock.cec
     ∧ (s.enterRecover f).lock.code = s.lock.code ∧ (s.enterRecover f).lock.level = s.lock.level
     ∧ (s.enterRecover f).lock.write = s.lock.write ∧ (s.enterRecover f).lock.block = s.lock.block
     ∧ (s.enterRecover f).lock.codeRecord = s.lock.codeRecord
     ∧ (s.enterRecover f).lock.counterCell = s.lock.counterCell := by
  simp only [State.enterRecover]
  (repeat' split) <;> simp

@[simp] theorem State.takeAbort_lock (h : Header) (s : State) :
    (State.takeAbort h s).lock.reading = s.lock.reading ∧ (State.takeAbort h s).lock.state = s.lock.state
     ∧ (State.takeAbort h s).lock.failed = s.lock.failed ∧ (State.takeAbort h s).lock.cal = s.lock.cal
     ∧ (State.takeAbort h s).lock.reference = s.lock.reference ∧ (State.takeAbort h s).lock.working = s.lock.working
     ∧ (State.takeAbort h s).lock.lockedCheck = s.lock.lockedCheck ∧ (State.takeAbort h s).lock.cec = s.lock.cec
     ∧ (State.takeAbort h s).lock.code = s.lock.code ∧ (State.takeAbort h s).lock.level = s.lock.level
     ∧ (State.takeAbort h s).lock.write = s.lock.write ∧ (State.takeAbort h s).lock.block = s.lock.block
     ∧ (State.takeAbort h s).lock.codeRecord = s.lock.codeRecord
     ∧ (State.takeAbort h s).lock.counterCell = s.lock.counterCell := by
  simp only [State.takeAbort]
  (repeat' split) <;> simp

/-! ## The Weigh Engine: motion leaves the tracked zero, the residual and the readings -/

@[simp] theorem State.dropWindow_weigh (s : State) :
    (s.dropWindow).weigh.reading = s.weigh.reading ∧ (s.dropWindow).weigh.latestPair = s.weigh.latestPair
     ∧ (s.dropWindow).weigh.latestBlock = s.weigh.latestBlock ∧ (s.dropWindow).weigh.zt = s.weigh.zt
     ∧ (s.dropWindow).weigh.residual = s.weigh.residual ∧ (s.dropWindow).weigh.enabled = s.weigh.enabled := by
  simp [State.dropWindow, Weigh.closed]

@[simp] theorem State.weighHalt_weigh (s : State) :
    (s.weighHalt).weigh.reading = s.weigh.reading ∧ (s.weighHalt).weigh.latestPair = s.weigh.latestPair
     ∧ (s.weighHalt).weigh.latestBlock = s.weigh.latestBlock ∧ (s.weighHalt).weigh.zt = s.weigh.zt
     ∧ (s.weighHalt).weigh.residual = s.weigh.residual ∧ (s.weighHalt).weigh.enabled = s.weigh.enabled := by
  simp only [State.weighHalt]
  (repeat' split) <;> simp

@[simp] theorem State.weighResume_weigh (s : State) :
    (s.weighResume).weigh.reading = s.weigh.reading ∧ (s.weighResume).weigh.latestPair = s.weigh.latestPair
     ∧ (s.weighResume).weigh.latestBlock = s.weigh.latestBlock ∧ (s.weighResume).weigh.zt = s.weigh.zt
     ∧ (s.weighResume).weigh.residual = s.weigh.residual ∧ (s.weighResume).weigh.enabled = s.weigh.enabled := by
  simp [State.weighResume]

@[simp] theorem State.testEnable_weigh (s : State) :
    (s.testEnable).weigh.reading = s.weigh.reading ∧ (s.testEnable).weigh.latestPair = s.weigh.latestPair
     ∧ (s.testEnable).weigh.latestBlock = s.weigh.latestBlock ∧ (s.testEnable).weigh.zt = s.weigh.zt
     ∧ (s.testEnable).weigh.residual = s.weigh.residual := by
  simp only [State.testEnable, Weigh.enable]
  split <;> simp

@[simp] theorem State.openWindow_weigh (s : State) (k : WindowKind) :
    (s.openWindow k).weigh.reading = s.weigh.reading ∧ (s.openWindow k).weigh.latestPair = s.weigh.latestPair
     ∧ (s.openWindow k).weigh.latestBlock = s.weigh.latestBlock ∧ (s.openWindow k).weigh.zt = s.weigh.zt
     ∧ (s.openWindow k).weigh.residual = s.weigh.residual ∧ (s.openWindow k).weigh.enabled = s.weigh.enabled := by
  simp only [State.openWindow, Weigh.openWindow]
  split <;> simp

@[simp] theorem State.closeWindow_weigh (s : State) :
    (s.closeWindow).weigh.reading = s.weigh.reading ∧ (s.closeWindow).weigh.latestPair = s.weigh.latestPair
     ∧ (s.closeWindow).weigh.latestBlock = s.weigh.latestBlock ∧ (s.closeWindow).weigh.zt = s.weigh.zt
     ∧ (s.closeWindow).weigh.residual = s.weigh.residual ∧ (s.closeWindow).weigh.enabled = s.weigh.enabled := by
  simp only [State.closeWindow, Weigh.closed]
  (repeat' split) <;> simp

@[simp] theorem State.enterStuck_weigh (s : State) :
    (s.enterStuck).weigh.reading = s.weigh.reading ∧ (s.enterStuck).weigh.latestPair = s.weigh.latestPair
     ∧ (s.enterStuck).weigh.latestBlock = s.weigh.latestBlock ∧ (s.enterStuck).weigh.zt = s.weigh.zt
     ∧ (s.enterStuck).weigh.residual = s.weigh.residual ∧ (s.enterStuck).weigh.enabled = s.weigh.enabled := by
  simp [State.enterStuck]

@[simp] theorem State.halt_weigh (s : State) (p : ProfilePhase) (c : Causes) (f : Six (Option FaultKind)) :
    (s.halt p c f).weigh.reading = s.weigh.reading ∧ (s.halt p c f).weigh.latestPair = s.weigh.latestPair
     ∧ (s.halt p c f).weigh.latestBlock = s.weigh.latestBlock ∧ (s.halt p c f).weigh.zt = s.weigh.zt
     ∧ (s.halt p c f).weigh.residual = s.weigh.residual ∧ (s.halt p c f).weigh.enabled = s.weigh.enabled := by
  simp [State.halt]

@[simp] theorem State.addCause_weigh (s : State) (c : InterlockCause) :
    (s.addCause c).weigh.reading = s.weigh.reading ∧ (s.addCause c).weigh.latestPair = s.weigh.latestPair
     ∧ (s.addCause c).weigh.latestBlock = s.weigh.latestBlock ∧ (s.addCause c).weigh.zt = s.weigh.zt
     ∧ (s.addCause c).weigh.residual = s.weigh.residual ∧ (s.addCause c).weigh.enabled = s.weigh.enabled := by
  simp only [State.addCause]
  (repeat' split) <;> simp

@[simp] theorem State.cycleFault_weigh (s : State) (c : Channel) (k : FaultKind) :
    (s.cycleFault c k).weigh.reading = s.weigh.reading ∧ (s.cycleFault c k).weigh.latestPair = s.weigh.latestPair
     ∧ (s.cycleFault c k).weigh.latestBlock = s.weigh.latestBlock ∧ (s.cycleFault c k).weigh.zt = s.weigh.zt
     ∧ (s.cycleFault c k).weigh.residual = s.weigh.residual ∧ (s.cycleFault c k).weigh.enabled = s.weigh.enabled := by
  simp only [State.cycleFault]
  (repeat' split) <;> simp

@[simp] theorem State.reportStarts_weigh (s : State) (l : List Channel) :
    (s.reportStarts l).weigh.reading = s.weigh.reading ∧ (s.reportStarts l).weigh.latestPair = s.weigh.latestPair
     ∧ (s.reportStarts l).weigh.latestBlock = s.weigh.latestBlock ∧ (s.reportStarts l).weigh.zt = s.weigh.zt
     ∧ (s.reportStarts l).weigh.residual = s.weigh.residual ∧ (s.reportStarts l).weigh.enabled = s.weigh.enabled := by
  unfold State.reportStarts
  induction l generalizing s with
  | nil => simp
  | cons c r ih =>
    simp only [List.foldl_cons, ih]
    (repeat' split) <;> simp

@[simp] theorem State.stageCycle_weigh (s : State) :
    (s.stageCycle).weigh.reading = s.weigh.reading ∧ (s.stageCycle).weigh.latestPair = s.weigh.latestPair
     ∧ (s.stageCycle).weigh.latestBlock = s.weigh.latestBlock ∧ (s.stageCycle).weigh.zt = s.weigh.zt
     ∧ (s.stageCycle).weigh.residual = s.weigh.residual := by
  simp only [State.stageCycle]
  (repeat' split) <;> simp

@[simp] theorem State.endPhase_weigh (s : State) (p : ProfilePhase) :
    ((s.endPhase p).1).weigh.reading = s.weigh.reading ∧ ((s.endPhase p).1).weigh.latestPair = s.weigh.latestPair
     ∧ ((s.endPhase p).1).weigh.latestBlock = s.weigh.latestBlock ∧ ((s.endPhase p).1).weigh.zt = s.weigh.zt
     ∧ ((s.endPhase p).1).weigh.residual = s.weigh.residual := by
  simp only [State.endPhase]
  (repeat' split) <;> simp

@[simp] theorem State.enterPhases_weigh (n : Nat) (s : State) (p : ProfilePhase) :
    (State.enterPhases n s p).weigh.reading = s.weigh.reading
     ∧ (State.enterPhases n s p).weigh.latestPair = s.weigh.latestPair
     ∧ (State.enterPhases n s p).weigh.latestBlock = s.weigh.latestBlock
     ∧ (State.enterPhases n s p).weigh.zt = s.weigh.zt ∧ (State.enterPhases n s p).weigh.residual = s.weigh.residual := by
  induction n generalizing s p with
  | zero => simp [State.enterPhases]
  | succ n ih =>
    simp only [State.enterPhases]
    split
    · simp
    · rename_i x _
      have he := State.endPhase_weigh (s.startPhase x p) p
      simp only [State.startPhase_frame] at he
      split
      · split <;> rename_i h
        · rw [h] at he
          simp_all
        · rw [h] at he
          simp_all
      · simp

@[simp] theorem State.enterPhase_weigh (s : State) (p : ProfilePhase) :
    (s.enterPhase p).weigh.reading = s.weigh.reading ∧ (s.enterPhase p).weigh.latestPair = s.weigh.latestPair
     ∧ (s.enterPhase p).weigh.latestBlock = s.weigh.latestBlock ∧ (s.enterPhase p).weigh.zt = s.weigh.zt
     ∧ (s.enterPhase p).weigh.residual = s.weigh.residual := by
  simp [State.enterPhase]

@[simp] theorem State.cycleEnd_weigh (s : State) :
    (s.cycleEnd).weigh.reading = s.weigh.reading ∧ (s.cycleEnd).weigh.latestPair = s.weigh.latestPair
     ∧ (s.cycleEnd).weigh.latestBlock = s.weigh.latestBlock ∧ (s.cycleEnd).weigh.zt = s.weigh.zt
     ∧ (s.cycleEnd).weigh.residual = s.weigh.residual := by
  simp only [State.cycleEnd]
  split
  · rename_i p _
    have he := State.endPhase_weigh s p
    split
    · split <;> rename_i h <;> rw [h] at he <;> simp_all
    · simp
  all_goals simp

@[simp] theorem State.recomputeSpeed_weigh (s : State) (f : Bool) :
    (s.recomputeSpeed f).weigh.reading = s.weigh.reading ∧ (s.recomputeSpeed f).weigh.latestPair = s.weigh.latestPair
     ∧ (s.recomputeSpeed f).weigh.latestBlock = s.weigh.latestBlock ∧ (s.recomputeSpeed f).weigh.zt = s.weigh.zt
     ∧ (s.recomputeSpeed f).weigh.residual = s.weigh.residual ∧ (s.recomputeSpeed f).weigh.enabled = s.weigh.enabled := by
  simp only [State.recomputeSpeed]
  (repeat' split) <;> simp

@[simp] theorem State.failChan_weigh (s : State) (c : Channel) (k : FaultKind) (a : Nat) :
    (s.failChan c k a).weigh.reading = s.weigh.reading ∧ (s.failChan c k a).weigh.latestPair = s.weigh.latestPair
     ∧ (s.failChan c k a).weigh.latestBlock = s.weigh.latestBlock ∧ (s.failChan c k a).weigh.zt = s.weigh.zt
     ∧ (s.failChan c k a).weigh.residual = s.weigh.residual := by
  simp only [State.failChan]
  (repeat' split) <;> simp

@[simp] theorem State.endChan_weigh (s : State) (c : Channel) :
    (s.endChan c).weigh.reading = s.weigh.reading ∧ (s.endChan c).weigh.latestPair = s.weigh.latestPair
     ∧ (s.endChan c).weigh.latestBlock = s.weigh.latestBlock ∧ (s.endChan c).weigh.zt = s.weigh.zt
     ∧ (s.endChan c).weigh.residual = s.weigh.residual := by
  simp only [State.endChan]
  (repeat' split) <;> simp

@[simp] theorem State.advance_weigh (s : State) (c : Channel) :
    ((s.advance c).1).weigh.reading = s.weigh.reading ∧ ((s.advance c).1).weigh.latestPair = s.weigh.latestPair
     ∧ ((s.advance c).1).weigh.latestBlock = s.weigh.latestBlock ∧ ((s.advance c).1).weigh.zt = s.weigh.zt
     ∧ ((s.advance c).1).weigh.residual = s.weigh.residual := by
  simp only [State.advance]
  split <;> simp

@[simp] theorem State.completeElement_weigh (s : State) (c : Channel) (u : Int) :
    (s.completeElement c u).weigh.reading = s.weigh.reading
     ∧ (s.completeElement c u).weigh.latestPair = s.weigh.latestPair
     ∧ (s.completeElement c u).weigh.latestBlock = s.weigh.latestBlock ∧ (s.completeElement c u).weigh.zt = s.weigh.zt
     ∧ (s.completeElement c u).weigh.residual = s.weigh.residual := by
  simp [State.completeElement]

@[simp] theorem State.rampStep_weigh (s : State) (c : Channel) (u0 t : Int) (k n : Nat) :
    (s.rampStep c u0 t k n).weigh.reading = s.weigh.reading
     ∧ (s.rampStep c u0 t k n).weigh.latestPair = s.weigh.latestPair
     ∧ (s.rampStep c u0 t k n).weigh.latestBlock = s.weigh.latestBlock ∧ (s.rampStep c u0 t k n).weigh.zt = s.weigh.zt
     ∧ (s.rampStep c u0 t k n).weigh.residual = s.weigh.residual := by
  simp only [State.rampStep]
  (repeat' split) <;> simp

@[simp] theorem State.deltaAt_weigh (s : State) (c : Channel) (d : Int) (e k : Nat) :
    (s.deltaAt c d e k).weigh.reading = s.weigh.reading ∧ (s.deltaAt c d e k).weigh.latestPair = s.weigh.latestPair
     ∧ (s.deltaAt c d e k).weigh.latestBlock = s.weigh.latestBlock ∧ (s.deltaAt c d e k).weigh.zt = s.weigh.zt
     ∧ (s.deltaAt c d e k).weigh.residual = s.weigh.residual := by
  simp only [State.deltaAt]
  (repeat' split) <;> simp

@[simp] theorem State.holdStep_weigh (s : State) (c : Channel) (n : Nat) :
    (s.holdStep c n).weigh.reading = s.weigh.reading ∧ (s.holdStep c n).weigh.latestPair = s.weigh.latestPair
     ∧ (s.holdStep c n).weigh.latestBlock = s.weigh.latestBlock ∧ (s.holdStep c n).weigh.zt = s.weigh.zt
     ∧ (s.holdStep c n).weigh.residual = s.weigh.residual := by
  simp only [State.holdStep]
  (repeat' split) <;> simp

@[simp] theorem State.countAwait_weigh (s : State) (c : Channel) :
    (s.countAwait c).weigh.reading = s.weigh.reading ∧ (s.countAwait c).weigh.latestPair = s.weigh.latestPair
     ∧ (s.countAwait c).weigh.latestBlock = s.weigh.latestBlock ∧ (s.countAwait c).weigh.zt = s.weigh.zt
     ∧ (s.countAwait c).weigh.residual = s.weigh.residual := by
  simp only [State.countAwait]
  (repeat' split) <;> simp

@[simp] theorem State.passAwait_weigh (s : State) (c : Channel) :
    ((s.passAwait c).1).weigh.reading = s.weigh.reading ∧ ((s.passAwait c).1).weigh.latestPair = s.weigh.latestPair
     ∧ ((s.passAwait c).1).weigh.latestBlock = s.weigh.latestBlock ∧ ((s.passAwait c).1).weigh.zt = s.weigh.zt
     ∧ ((s.passAwait c).1).weigh.residual = s.weigh.residual := by
  simp [State.passAwait]

theorem State.deliver_weigh {s t : State} {c : Channel} {code : Nat} (h : s.deliver c code = some t) :
    t.weigh.reading = s.weigh.reading ∧ t.weigh.latestPair = s.weigh.latestPair ∧ t.weigh.latestBlock =
     s.weigh.latestBlock ∧ t.weigh.zt = s.weigh.zt ∧ t.weigh.residual = s.weigh.residual := by
  revert h
  simp only [State.deliver, State.openMark, State.closeMark, State.tagOpenMark, State.tagCloseMark, State.tipMark,
    State.packMark, State.ejectMark, State.packSweep, State.packCompress]
  (repeat' split) <;> intro h <;> cases h <;> simp


@[simp] theorem State.reach_weigh (n : Nat) (s : State) (c : Channel) :
    (s.reach n c).weigh.reading = s.weigh.reading ∧ (s.reach n c).weigh.latestPair = s.weigh.latestPair
     ∧ (s.reach n c).weigh.latestBlock = s.weigh.latestBlock ∧ (s.reach n c).weigh.zt = s.weigh.zt
     ∧ (s.reach n c).weigh.residual = s.weigh.residual := by
  induction n generalizing s with
  | zero => simp [State.reach]
  | succ n ih =>
    simp only [State.reach]
    split
    · simp
    split
    · simp
    split
    case h_6 =>
      split
      · rename_i h
        have hd := State.deliver_weigh h
        split <;> simp_all
      · simp
    case h_5 => split <;> simp [ih]
    case h_7 =>
      split
      · split <;> simp [ih]
      · simp
    all_goals simp

@[simp] theorem State.continueElement_weigh (s : State) (c : Channel) (r : Chan) :
    (s.continueElement c r).weigh.reading = s.weigh.reading
     ∧ (s.continueElement c r).weigh.latestPair = s.weigh.latestPair
     ∧ (s.continueElement c r).weigh.latestBlock = s.weigh.latestBlock ∧ (s.continueElement c r).weigh.zt = s.weigh.zt
     ∧ (s.continueElement c r).weigh.residual = s.weigh.residual := by
  simp only [State.continueElement]
  split
  case h_6 =>
    split
    · have hp := State.passAwait_weigh s c
      split <;> rename_i h <;> rw [h] at hp <;> simp_all
    · simp
  all_goals simp

@[simp] theorem State.expire_weigh (s : State) (c : Channel) :
    (s.expire c).weigh.reading = s.weigh.reading ∧ (s.expire c).weigh.latestPair = s.weigh.latestPair
     ∧ (s.expire c).weigh.latestBlock = s.weigh.latestBlock ∧ (s.expire c).weigh.zt = s.weigh.zt
     ∧ (s.expire c).weigh.residual = s.weigh.residual := by
  simp only [State.expire]
  (repeat' split) <;> simp

@[simp] theorem State.coilFault_weigh (s : State) (c : Channel) (l : Latch) :
    (s.coilFault c l).weigh.reading = s.weigh.reading ∧ (s.coilFault c l).weigh.latestPair = s.weigh.latestPair
     ∧ (s.coilFault c l).weigh.latestBlock = s.weigh.latestBlock ∧ (s.coilFault c l).weigh.zt = s.weigh.zt
     ∧ (s.coilFault c l).weigh.residual = s.weigh.residual := by
  simp only [State.coilFault]
  (repeat' split) <;> simp

@[simp] theorem State.takeLift_weigh (h : Header) (f : LiftFields) (s : State) :
    (State.takeLift h f s).weigh.reading = s.weigh.reading
     ∧ (State.takeLift h f s).weigh.latestPair = s.weigh.latestPair
     ∧ (State.takeLift h f s).weigh.latestBlock = s.weigh.latestBlock ∧ (State.takeLift h f s).weigh.zt = s.weigh.zt
     ∧ (State.takeLift h f s).weigh.residual = s.weigh.residual := by
  simp only [State.takeLift, State.acceptLift]
  (repeat' split) <;> simp

@[simp] theorem State.abandon_weigh (s : State) :
    (s.abandon).weigh.reading = s.weigh.reading ∧ (s.abandon).weigh.latestPair = s.weigh.latestPair
     ∧ (s.abandon).weigh.latestBlock = s.weigh.latestBlock ∧ (s.abandon).weigh.zt = s.weigh.zt
     ∧ (s.abandon).weigh.residual = s.weigh.residual ∧ (s.abandon).weigh.enabled = s.weigh.enabled := by
  simp [State.abandon]

@[simp] theorem State.resumeCycle_weigh (s : State) (p : ProfilePhase) :
    (s.resumeCycle p).weigh.reading = s.weigh.reading ∧ (s.resumeCycle p).weigh.latestPair = s.weigh.latestPair
     ∧ (s.resumeCycle p).weigh.latestBlock = s.weigh.latestBlock ∧ (s.resumeCycle p).weigh.zt = s.weigh.zt
     ∧ (s.resumeCycle p).weigh.residual = s.weigh.residual := by
  simp only [State.resumeCycle]
  (repeat' split) <;> simp

@[simp] theorem State.takeResume_weigh (h : Header) (s : State) :
    (State.takeResume h s).weigh.reading = s.weigh.reading
     ∧ (State.takeResume h s).weigh.latestPair = s.weigh.latestPair
     ∧ (State.takeResume h s).weigh.latestBlock = s.weigh.latestBlock ∧ (State.takeResume h s).weigh.zt = s.weigh.zt
     ∧ (State.takeResume h s).weigh.residual = s.weigh.residual := by
  simp only [State.takeResume]
  (repeat' split) <;> simp

@[simp] theorem State.enterRecover_weigh (s : State) (f : Bool) :
    (s.enterRecover f).weigh.reading = s.weigh.reading ∧ (s.enterRecover f).weigh.latestPair = s.weigh.latestPair
     ∧ (s.enterRecover f).weigh.latestBlock = s.weigh.latestBlock ∧ (s.enterRecover f).weigh.zt = s.weigh.zt
     ∧ (s.enterRecover f).weigh.residual = s.weigh.residual := by
  simp only [State.enterRecover]
  (repeat' split) <;> simp

@[simp] theorem State.takeAbort_weigh (h : Header) (s : State) :
    (State.takeAbort h s).weigh.reading = s.weigh.reading
     ∧ (State.takeAbort h s).weigh.latestPair = s.weigh.latestPair
     ∧ (State.takeAbort h s).weigh.latestBlock = s.weigh.latestBlock ∧ (State.takeAbort h s).weigh.zt = s.weigh.zt
     ∧ (State.takeAbort h s).weigh.residual = s.weigh.residual := by
  simp only [State.takeAbort]
  (repeat' split) <;> simp

@[simp] theorem State.takeCycleClear_weigh (h : Header) (s : State) :
    (State.takeCycleClear h s).weigh.reading = s.weigh.reading
     ∧ (State.takeCycleClear h s).weigh.latestPair = s.weigh.latestPair
     ∧ (State.takeCycleClear h s).weigh.latestBlock = s.weigh.latestBlock
     ∧ (State.takeCycleClear h s).weigh.zt = s.weigh.zt ∧ (State.takeCycleClear h s).weigh.residual = s.weigh.residual := by
  simp only [State.takeCycleClear]
  (repeat' split) <;> simp

@[simp] theorem State.takeChassis_weigh (f : ChassisFields) (s : State) :
    (State.takeChassis f s).weigh.reading = s.weigh.reading
     ∧ (State.takeChassis f s).weigh.latestPair = s.weigh.latestPair
     ∧ (State.takeChassis f s).weigh.latestBlock = s.weigh.latestBlock ∧ (State.takeChassis f s).weigh.zt = s.weigh.zt
     ∧ (State.takeChassis f s).weigh.residual = s.weigh.residual
     ∧ (State.takeChassis f s).weigh.enabled = s.weigh.enabled := by
  simp [State.takeChassis]

@[simp] theorem State.finishCommit_weigh (s : State) :
    (s.finishCommit).weigh.reading = s.weigh.reading ∧ (s.finishCommit).weigh.latestPair = s.weigh.latestPair
     ∧ (s.finishCommit).weigh.latestBlock = s.weigh.latestBlock ∧ (s.finishCommit).weigh.zt = s.weigh.zt
     ∧ (s.finishCommit).weigh.residual = s.weigh.residual := by
  simp only [State.finishCommit]
  (repeat' split) <;> simp

@[simp] theorem State.chassisSilent_weigh (s : State) :
    (s.chassisSilent).weigh.reading = s.weigh.reading ∧ (s.chassisSilent).weigh.latestPair = s.weigh.latestPair
     ∧ (s.chassisSilent).weigh.latestBlock = s.weigh.latestBlock ∧ (s.chassisSilent).weigh.zt = s.weigh.zt
     ∧ (s.chassisSilent).weigh.residual = s.weigh.residual ∧ (s.chassisSilent).weigh.enabled = s.weigh.enabled := by
  simp [State.chassisSilent]

@[simp] theorem State.expirePermit_weigh (s : State) :
    (s.expirePermit).weigh.reading = s.weigh.reading ∧ (s.expirePermit).weigh.latestPair = s.weigh.latestPair
     ∧ (s.expirePermit).weigh.latestBlock = s.weigh.latestBlock ∧ (s.expirePermit).weigh.zt = s.weigh.zt
     ∧ (s.expirePermit).weigh.residual = s.weigh.residual ∧ (s.expirePermit).weigh.enabled = s.weigh.enabled := by
  simp [State.expirePermit]

@[simp] theorem State.changePto_weigh (s : State) (on : Bool) :
    (s.changePto on).weigh.reading = s.weigh.reading ∧ (s.changePto on).weigh.latestPair = s.weigh.latestPair
     ∧ (s.changePto on).weigh.latestBlock = s.weigh.latestBlock ∧ (s.changePto on).weigh.zt = s.weigh.zt
     ∧ (s.changePto on).weigh.residual = s.weigh.residual ∧ (s.changePto on).weigh.enabled = s.weigh.enabled := by
  simp only [State.changePto]
  (repeat' split) <;> simp

end Sys2Proof.Machine
end

