-- ==== Sys2Proof/Laws/Memory.lean ====
section
/-! SUPPORT. The laws of the memories of cells at addresses: a read after a write, the canonical form kept by every
operation, two memories in canonical form that read alike are equal (R50, R153). -/

namespace Sys2Proof.Machine

variable {w : Nat} {erased : Nat → BitVec w}

/-- The canonical form, as a statement about the list: addresses strictly rising, no entry erased. -/
theorem cellsWf_iff (m : List (Nat × BitVec w)) :
    cellsWf erased m = true ↔ m.Pairwise (fun e f => e.1 < f.1) ∧ ∀ e ∈ m, e.2 ≠ erased e.1 := by
  induction m with
  | nil => simp [cellsWf]
  | cons e r ih =>
    obtain ⟨a, v⟩ := e
    simp only [cellsWf, Bool.and_eq_true, bne_iff_ne, ih, List.pairwise_cons, List.mem_cons, forall_eq_or_imp]
    cases r with
    | nil => simp
    | cons f r =>
      obtain ⟨b, y⟩ := f
      simp only [decide_eq_true_eq, List.pairwise_cons, List.mem_cons, forall_eq_or_imp]
      constructor
      · rintro ⟨⟨h1, h2⟩, ⟨h3, h4⟩, h5⟩
        exact ⟨⟨⟨h2, fun e he => Nat.lt_trans h2 (h3 e he)⟩, h3, h4⟩, h1, h5⟩
      · rintro ⟨⟨⟨h2, -⟩, h3, h4⟩, h1, h5⟩
        exact ⟨⟨h1, h2⟩, ⟨h3, h4⟩, h5⟩

/-- An address that stands nowhere in the list reads as erased. -/
theorem readCell_of_not_mem {m : List (Nat × BitVec w)} {a : Nat} (h : ∀ e ∈ m, e.1 ≠ a) :
    readCell erased m a = erased a := by
  induction m with
  | nil => rfl
  | cons e r ih =>
    simp only [readCell, if_neg (h e (by simp))]
    exact ih fun f hf => h f (by simp [hf])

/-- An entry of a canonical memory is what stands at its address. -/
theorem readCell_of_mem {m : List (Nat × BitVec w)} (hm : cellsWf erased m = true) {e : Nat × BitVec w} (h : e ∈ m) :
    readCell erased m e.1 = e.2 := by
  have hp := ((cellsWf_iff m).mp hm).1
  clear hm
  induction m with
  | nil => cases h
  | cons f r ih =>
    rcases List.mem_cons.mp h with rfl | h
    · simp [readCell]
    · have := (List.pairwise_cons.mp hp).1 e h
      simp only [readCell, if_neg (show f.1 ≠ e.1 by omega)]
      exact ih h (List.pairwise_cons.mp hp).2

/-- An entry after a write: the one written, or one that stood there under another address. -/
theorem mem_writeCell {m : List (Nat × BitVec w)} {a : Nat} {v : BitVec w} {e : Nat × BitVec w}
    (h : e ∈ writeCell erased m a v) : (e = (a, v) ∧ v ≠ erased a) ∨ e ∈ m := by
  induction m with
  | nil =>
    simp only [writeCell] at h
    split at h <;> simp_all
  | cons f r ih =>
    obtain ⟨k, x⟩ := f
    simp only [writeCell] at h
    split at h
    · split at h <;> simp_all
    · split at h
      · split at h <;> simp_all
        rcases h with h | h <;> simp_all
      · rcases List.mem_cons.mp h with h | h
        · exact .inr (by simp [h])
        · rcases ih h with h | h
          · exact .inl h
          · exact .inr (by simp [h])

/-- A write keeps the canonical form. -/
theorem writeCell_wf {m : List (Nat × BitVec w)} (hm : cellsWf erased m = true) (a : Nat) (v : BitVec w) :
    cellsWf erased (writeCell erased m a v) = true := by
  rw [cellsWf_iff] at hm ⊢
  refine ⟨?_, fun e he => ?_⟩
  · obtain ⟨hp, -⟩ := hm
    induction m with
    | nil => simp only [writeCell]; split <;> simp
    | cons f r ih =>
      obtain ⟨k, x⟩ := f
      have ⟨h1, h2⟩ := List.pairwise_cons.mp hp
      simp only [writeCell]
      split
      · split
        · exact hp
        · refine List.pairwise_cons.mpr ⟨fun e he => ?_, hp⟩
          rcases List.mem_cons.mp he with rfl | he
          · assumption
          · have := h1 e he; simp only at this ⊢; omega
      · split
        · subst a
          split
          · exact h2
          · exact List.pairwise_cons.mpr ⟨h1, h2⟩
        · refine List.pairwise_cons.mpr ⟨fun e he => ?_, ih h2⟩
          rcases mem_writeCell he with ⟨rfl, -⟩ | he
          · simp only; omega
          · exact h1 e he
  · rcases mem_writeCell he with ⟨rfl, h⟩ | h
    · exact h
    · exact hm.2 e h

/-- What stands at an address after a write. -/
theorem readCell_writeCell {m : List (Nat × BitVec w)} (hm : cellsWf erased m = true) (a b : Nat) (v : BitVec w) :
    readCell erased (writeCell erased m a v) b = if b = a then v else readCell erased m b := by
  have hp := ((cellsWf_iff m).mp hm).1
  clear hm
  induction m with
  | nil =>
    simp only [writeCell]
    by_cases e : b = a
    · subst e; by_cases h : v = erased b <;> simp [h, readCell]
    · have e' : ¬a = b := fun h => e h.symm
      by_cases h : v = erased a <;> simp [h, e, e', readCell]
  | cons f r ih =>
    obtain ⟨k, x⟩ := f
    have ⟨h1, h2⟩ := List.pairwise_cons.mp hp
    have ih := ih h2
    simp only [writeCell]
    split
    · rename_i hak
      split
      · rename_i hv
        by_cases e : b = a
        · subst e
          rw [if_pos rfl, hv]
          refine readCell_of_not_mem fun e he => ?_
          rcases List.mem_cons.mp he with rfl | he
          · simp only; omega
          · have := h1 e he; simp only at this; omega
        · rw [if_neg e]
      · by_cases e : b = a
        · subst e; simp [readCell]
        · rw [readCell, if_neg (fun h => e h.symm), if_neg e]
    · split
      · subst a
        split
        · rename_i hv
          by_cases e : b = k
          · subst e
            rw [if_pos rfl, hv]
            exact readCell_of_not_mem fun e he => by have := h1 e he; simp only at this; omega
          · rw [if_neg e, readCell, if_neg (fun h => e h.symm)]
        · by_cases e : b = k
          · subst e; simp [readCell]
          · rw [if_neg e, readCell, readCell, if_neg (fun h => e h.symm), if_neg (fun h => e h.symm)]
      · simp only [readCell, ih]
        by_cases e : k = b
        · subst e; rw [if_pos rfl, if_neg (by omega), if_pos rfl]
        · rw [if_neg e, if_neg e]

/-- Writes at consecutive addresses keep the canonical form. -/
theorem writeCells_wf (vs : List (BitVec w)) {m : List (Nat × BitVec w)} (hm : cellsWf erased m = true) (a : Nat) :
    cellsWf erased (writeCells erased m a vs) = true := by
  induction vs generalizing m a with
  | nil => exact hm
  | cons v vs ih => exact ih (writeCell_wf hm a v) (a + 1)

/-- What stands at an address after writes at consecutive addresses. -/
theorem readCell_writeCells (vs : List (BitVec w)) {m : List (Nat × BitVec w)} (hm : cellsWf erased m = true) (a b : Nat) :
    readCell erased (writeCells erased m a vs) b =
      if h : a ≤ b ∧ b < a + vs.length then vs[b - a]'(by omega) else readCell erased m b := by
  induction vs generalizing m a with
  | nil =>
    rw [dif_neg (by simp only [List.length_nil]; omega)]
    rfl
  | cons v vs ih =>
    simp only [writeCells, ih (writeCell_wf hm a v), readCell_writeCell hm, List.length_cons]
    by_cases h : b = a
    · subst h
      rw [dif_neg (by omega), dif_pos (by omega), if_pos rfl]
      simp
    · by_cases h2 : a ≤ b ∧ b < a + (vs.length + 1)
      · rw [dif_pos (by omega), dif_pos h2]
        have e : b - a = (b - (a + 1)) + 1 := by omega
        simp only [e, List.getElem_cons_succ]
      · rw [dif_neg (by omega), dif_neg h2, if_neg h]

/-- Entries taken out leave the canonical form. -/
theorem filter_wf {m : List (Nat × BitVec w)} (hm : cellsWf erased m = true) (p : Nat × BitVec w → Bool) :
    cellsWf erased (m.filter p) = true := by
  rw [cellsWf_iff] at hm ⊢
  exact ⟨hm.1.filter p, fun e he => hm.2 e (List.mem_of_mem_filter he)⟩

/-- An erase keeps the canonical form. -/
theorem eraseRange_wf {m : List (Nat × BitVec w)} (hm : cellsWf erased m = true) (lo hi : Nat) :
    cellsWf erased (eraseRange lo hi m) = true := filter_wf hm _

/-- What stands at an address after an erase. -/
theorem readCell_eraseRange (m : List (Nat × BitVec w)) (lo hi a : Nat) :
    readCell erased (eraseRange lo hi m) a = if lo ≤ a ∧ a < hi then erased a else readCell erased m a := by
  simp only [eraseRange]
  induction m with
  | nil => simp [readCell]
  | cons e r ih =>
    obtain ⟨k, x⟩ := e
    simp only [List.filter_cons]
    split
    · rename_i h
      simp only [Bool.not_eq_true', Bool.and_eq_false_iff, decide_eq_false_iff_not] at h
      simp only [readCell, ih]
      by_cases hk : k = a
      · subst hk; rw [if_pos rfl, if_neg (by omega), if_pos rfl]
      · rw [if_neg hk, if_neg hk]
    · rename_i h
      simp only [Bool.not_eq_true', Bool.and_eq_false_iff, decide_eq_false_iff_not] at h
      rw [ih]
      by_cases hk : k = a
      · subst hk; rw [if_pos (by omega), if_pos (by omega)]
      · simp only [readCell, if_neg hk]

/-- Two canonical memories that read alike at every address are equal. -/
theorem cells_ext {m n : List (Nat × BitVec w)} (hm : cellsWf erased m = true) (hn : cellsWf erased n = true)
    (h : ∀ a, readCell erased m a = readCell erased n a) : m = n := by
  have key : ∀ {m n : List (Nat × BitVec w)}, cellsWf erased m = true → cellsWf erased n = true →
      (∀ a, readCell erased m a = readCell erased n a) → ∀ e ∈ m, e ∈ n := by
    intro m n hm hn h e he
    have h1 := readCell_of_mem hm he
    have h2 := ((cellsWf_iff m).mp hm).2 e he
    by_contra hne
    have : readCell erased n e.1 = erased e.1 := by
      refine readCell_of_not_mem fun f hf hfe => ?_
      have h3 := readCell_of_mem hn hf
      rw [hfe, ← h, h1] at h3
      exact hne (by rw [show e = f from Prod.ext hfe.symm h3]; exact hf)
    exact h2 (by rw [← h1, h, this])
  have hm' := ((cellsWf_iff m).mp hm).1
  have hn' := ((cellsWf_iff n).mp hn).1
  refine List.Perm.eq_of_pairwise (fun a b _ _ h1 h2 => absurd h1 (by omega)) hm' hn' ?_
  rw [List.perm_ext_iff_of_nodup (hm'.imp fun h => by rintro rfl; omega) (hn'.imp fun h => by rintro rfl; omega)]
  exact fun e => ⟨key hm hn h e, key hn hm (fun a => (h a).symm) e⟩

/-- Reset lists nothing in any memory. -/
theorem reset_memories :
    cellsWf erasedWord State.reset.store.words = true ∧ cellsWf erasedSlot State.reset.journal.slots = true :=
  ⟨rfl, rfl⟩

end Sys2Proof.Machine
end

