-- ==== Sys2Proof/Laws/Reclaim.lean ====
section
/-! SUPPORT. What the reclaim test and the start of an erase do to the sectors (R161, R162). -/

namespace Sys2Proof.Machine

/-! ## Sectors -/

theorem Journal.sector_setSector (j : Journal) (k m : Nat) (x : Sector) :
    (j.setSector k x).sector m = if m = k ∧ k < j.sectors.length then x else j.sector m := by
  simp only [Journal.setSector, Journal.sector, List.getD_eq_getElem?_getD, List.getElem?_set]
  by_cases h : k = m
  · subst h
    by_cases hk : k < j.sectors.length <;> simp [hk]
  · simp [h, Ne.symm h]

/-- A sector that is not BLANK stands in the list. -/
theorem Journal.lt_of_sector {j : Journal} {k : Nat} (h : (j.sector k).state ≠ .blank) : k < j.sectors.length := by
  by_contra hk
  exact h (by simp [Journal.sector, List.getD_eq_getElem?_getD, List.getElem?_eq_none (Nat.le_of_not_lt hk)])

/-! ## The newest record's sector (R162) -/

theorem Journal.mem_records (j : Journal) (e : Nat × SlotBits) :
    e ∈ j.records ↔ e ∈ j.slots ∧ patternOf e.2 = .valid ∧ (j.sector (e.1 / 128)).retained = true := by
  simp [Journal.records, sectorOf, Config.slotsPerSector, and_comm]

/-- The newest record's sector holds a VALID record of the newest number. -/
theorem Journal.newestSector_spec {j : Journal} {k : Nat} (h : j.newestSector = some k) :
    ∃ e ∈ j.slots, e.1 / 128 = k ∧ patternOf e.2 = .valid ∧ j.newest = some (slotSeq e.2) := by
  simp only [Journal.newestSector] at h
  split at h
  · cases h
  · rename_i n hn
    obtain ⟨e, he, hk⟩ := Option.map_eq_some_iff.mp h
    have hm := (j.mem_records e).mp (List.mem_of_find?_eq_some he)
    have hs := List.find?_some he
    exact ⟨e, hm.1, hk, hm.2.1, by rw [hn]; simp at hs; rw [hs]⟩

/-- A spent sector does not hold the newest record. -/
theorem Journal.Spent.newestSector {j : Journal} {k : Nat} (h : j.Spent k) : j.newestSector ≠ some k := by
  intro hk
  obtain ⟨e, he, hs, hv, hn⟩ := Journal.newestSector_spec hk
  exact (h e he hs hv).2 hn

theorem Journal.allReleased_iff (j : Journal) (k : Nat) :
    j.allReleased k = true ↔ ∀ e ∈ j.slots, e.1 / 128 = k → patternOf e.2 = .valid → slotSeq e.2 ≤ j.mark := by
  simp only [Journal.allReleased, List.all_eq_true, sectorOf, Config.slotsPerSector, Bool.or_eq_true, Bool.not_eq_true',
    Bool.and_eq_false_iff, beq_eq_false_iff_ne, decide_eq_true_eq]
  exact forall₂_congr fun e _ => ⟨fun h a b => by tauto, fun h => by
    by_cases a : e.1 / 128 = k <;> by_cases b : patternOf e.2 = .valid <;> simp_all⟩

/-! ## The test (R162) -/

/-- The test of a sector changes that sector alone, from FULL to RECLAIMABLE. -/
theorem Journal.testReclaim_spec (j : Journal) (k : Nat) :
    j.testReclaim k = { j with sectors := (j.testReclaim k).sectors }
      ∧ (∀ m, m ≠ k → (j.testReclaim k).sector m = j.sector m)
      ∧ ((j.testReclaim k).sector k = j.sector k
          ∨ (j.sector k).state = .full ∧ j.allReleased k = true ∧ j.newestSector ≠ some k
            ∧ (j.testReclaim k).sector k = ⟨.reclaimable, false⟩)
      ∧ ((j.sector k).state = .full → j.allReleased k = true → j.newestSector ≠ some k →
          (j.testReclaim k).sector k = ⟨.reclaimable, false⟩) := by
  simp only [Journal.testReclaim, Bool.and_eq_true, beq_iff_eq, bne_iff_ne]
  split
  · rename_i h
    have hk : k < j.sectors.length := Journal.lt_of_sector (by simp [h.1.1])
    exact ⟨rfl, fun m hm => by simp [Journal.sector_setSector, hm],
      .inr ⟨h.1.1, h.1.2, h.2, by simp [Journal.sector_setSector, hk]⟩, fun _ _ _ => by simp [Journal.sector_setSector, hk]⟩
  · rename_i h
    exact ⟨rfl, fun _ _ => rfl, .inl rfl, fun a b c => absurd ⟨⟨a, b⟩, c⟩ h⟩

/-- What makes a FULL sector RECLAIMABLE says that it is spent, where the newest number stands in one sector. -/
theorem Journal.spent_of_released {j : Journal} {k : Nat} (hd : j.NewestOnce) (hf : (j.sector k).state = .full)
    (hr : j.allReleased k = true) (hn : j.newestSector ≠ some k) : j.Spent k := by
  intro e he hk hv
  refine ⟨(j.allReleased_iff k).mp hr e he hk hv, fun hn' => hn ?_⟩
  have hret : (j.sector (e.1 / 128)).retained = true := by
    have : (j.sector k).disregarded = false := by
      by_contra hc
      exact absurd (hd.1 k (by simpa using hc)) (by simp [hf])
    simp [hk, Sector.retained, hf, this]
  simp only [Journal.newestSector, hn']
  cases hfind : j.find (slotSeq e.2) with
  | none => exact absurd ((List.find?_eq_none.mp hfind) e ((j.mem_records e).mpr ⟨he, hv, hret⟩)) (by simp)
  | some f =>
    have hm := (j.mem_records f).mp (List.mem_of_find?_eq_some hfind)
    have hs := List.find?_some hfind
    simp only [beq_iff_eq] at hs
    simp [sectorOf, Config.slotsPerSector,
      hd.2 e ((j.mem_records e).mpr ⟨he, hv, hret⟩) f (List.mem_of_find?_eq_some hfind) hn' hs, hk]

/-- The test of a sector keeps the retained records, where no FULL one is disregarded. -/
theorem Journal.testReclaim_records {j : Journal} 
    (hd : ∀ k, (j.sector k).disregarded = true → (j.sector k).state = .reclaimable) (k : Nat) : (∀ m, ((j.testReclaim k).sector m).disregarded = true → ((j.testReclaim k).sector m).state = .reclaimable)
      ∧ (∀ m, ((j.testReclaim k).sector m).retained = (j.sector m).retained) ∧ (j.testReclaim k).records = j.records := by
  obtain ⟨he, ho, hs, -⟩ := j.testReclaim_spec k
  have hret : ∀ m, ((j.testReclaim k).sector m).retained = (j.sector m).retained := by
    intro m
    by_cases hk : m = k
    · subst hk
      rcases hs with hs | ⟨hf, -, -, hs⟩
      · rw [hs]
      · have : (j.sector m).disregarded = false := by
          by_contra hc
          exact absurd (hd m (by simpa using hc)) (by simp [hf])
        simp [hs, Sector.retained, hf, this]
    · rw [ho m hk]
  refine ⟨fun m hm => ?_, hret, ?_⟩
  · by_cases hk : m = k
    · subst hk
      rcases hs with hs | hs
      · rw [hs] at hm ⊢; exact hd _ hm
      · simp [hs.2.2.2]
    · rw [ho m hk] at hm ⊢; exact hd _ hm
  · simp only [Journal.records, hret, Journal.testReclaim_slots]

theorem Journal.testReclaim_newestOnce {j : Journal} (hd : j.NewestOnce) (k : Nat) : (j.testReclaim k).NewestOnce := by
  obtain ⟨h1, -, h3⟩ := Journal.testReclaim_records hd.1 k
  refine ⟨h1, ?_⟩
  rw [h3, (j.testReclaim_spec k).1]
  exact hd.2

/-- The test of several sectors: no other changes; a spent FULL one becomes RECLAIMABLE; and only a FULL one does, spent where
numbers are distinct. -/
theorem Journal.foldl_testReclaim (l : List Nat) (hl : l.Nodup) (j : Journal) :
    l.foldl Journal.testReclaim j = { j with sectors := (l.foldl Journal.testReclaim j).sectors }
      ∧ (∀ k, k ∉ l → (l.foldl Journal.testReclaim j).sector k = j.sector k)
      ∧ (∀ k ∈ l, (j.sector k).state = .full → j.Spent k → (l.foldl Journal.testReclaim j).sector k = ⟨.reclaimable, false⟩)
      ∧ ∀ k ∈ l, (l.foldl Journal.testReclaim j).sector k = j.sector k
          ∨ (j.sector k).state = .full ∧ (j.NewestOnce → j.Spent k)
            ∧ (l.foldl Journal.testReclaim j).sector k = ⟨.reclaimable, false⟩ := by
  induction l generalizing j with
  | nil => exact ⟨rfl, fun _ _ => rfl, by simp, by simp⟩
  | cons a r ih =>
    obtain ⟨ha, hr⟩ := List.nodup_cons.mp hl
    have hne : ∀ k ∈ r, k ≠ a := fun k hk he => ha (he ▸ hk)
    obtain ⟨h1, h2, h3, h4⟩ := ih hr (j.testReclaim a)
    obtain ⟨g1, g2, g3, g4⟩ := j.testReclaim_spec a
    have hsp : ∀ k, (j.testReclaim a).Spent k ↔ j.Spent k := fun k => by rw [g1]; rfl
    refine ⟨?_, fun k hk => ?_, fun k hk hf hs => ?_, fun k hk => ?_⟩
    · simp only [List.foldl_cons]; rw [h1, g1]
    · simp only [List.mem_cons, not_or] at hk
      rw [List.foldl_cons, h2 k hk.2, g2 k hk.1]
    · rw [List.foldl_cons]
      rcases List.mem_cons.mp hk with rfl | hk
      · rw [h2 k ha]
        exact g4 hf ((j.allReleased_iff k).mpr fun e he hk hv => (hs e he hk hv).1) hs.newestSector
      · exact h3 k hk (by rw [g2 k (hne k hk)]; exact hf) ((hsp k).mpr hs)
    · rw [List.foldl_cons]
      rcases List.mem_cons.mp hk with rfl | hk
      · rw [h2 k ha]
        rcases g3 with g | g
        · exact .inl g
        · exact .inr ⟨g.1, fun hd => j.spent_of_released hd g.1 g.2.1 g.2.2.1, g.2.2.2⟩
      · have := h4 k hk
        rw [g2 k (hne k hk)] at this
        exact this.imp_right fun h => ⟨h.1, fun hd => (hsp k).mp (h.2.1 (j.testReclaim_newestOnce hd a)), h.2.2⟩

/-- The test of every FULL sector (R162). -/
theorem Journal.testAll_spec (j : Journal) :
    j.testAll = { j with sectors := j.testAll.sectors }
      ∧ (∀ k, ¬ k < 32 → j.testAll.sector k = j.sector k)
      ∧ (∀ k < 32, (j.sector k).state = .full → j.Spent k → j.testAll.sector k = ⟨.reclaimable, false⟩)
      ∧ ∀ k < 32, j.testAll.sector k = j.sector k
          ∨ (j.sector k).state = .full ∧ (j.NewestOnce → j.Spent k) ∧ j.testAll.sector k = ⟨.reclaimable, false⟩ := by
  simpa [Journal.testAll, Config.sectors] using Journal.foldl_testReclaim (List.range 32) List.nodup_range j

/-! ## The start of an erase (R161, R162) -/

theorem leastOf_spec (l : List Nat) :
    (∀ n, leastOf l = some n → n ∈ l ∧ ∀ m ∈ l, n ≤ m) ∧ ∀ m ∈ l, ∃ n, leastOf l = some n ∧ n ≤ m := by
  have key : ∀ (r : List Nat) (a : Nat), r.foldl min a ∈ a :: r ∧ ∀ m ∈ a :: r, r.foldl min a ≤ m := by
    intro r
    induction r with
    | nil => simp
    | cons b r ih =>
      intro a
      obtain ⟨h1, h2⟩ := ih (min a b)
      simp only [List.foldl_cons, List.mem_cons, forall_eq_or_imp] at h1 h2 ⊢
      refine ⟨?_, by omega, by omega, h2.2⟩
      rcases h1 with h1 | h1
      · omega
      · exact .inr (.inr h1)
  cases l with
  | nil => simp [leastOf]
  | cons a r =>
    refine ⟨fun n hn => ?_, fun m hm => ⟨_, rfl, (key r a).2 m hm⟩⟩
    cases hn
    exact key r a

/-- The lowest retained number is that of a retained record (R155). -/
theorem Journal.lowestRetained_stands (j : Journal) : ({ j with oldest := j.lowestRetained } : Journal).OldestStands := by
  obtain ⟨h1, h2⟩ := leastOf_spec (j.records.map fun e => slotSeq e.2)
  refine ⟨fun n hn => ?_, fun e he hv hr => ?_⟩
  · obtain ⟨e, he, hs⟩ := List.mem_map.mp (h1 n hn).1
    have := (j.mem_records e).mp he
    exact ⟨e, this.1, this.2.1, this.2.2, hs⟩
  · exact h2 _ (List.mem_map.mpr ⟨e, (j.mem_records e).mpr ⟨he, hv, hr⟩, rfl⟩)

/-- The first of the lowest by `f`. -/
theorem foldl_lowest (f : Nat → Nat) (r : List Nat) (a : Nat) :
    r.foldl (fun a b => if f b < f a then b else a) a ∈ a :: r
      ∧ ∀ m ∈ a :: r, f (r.foldl (fun a b => if f b < f a then b else a) a) ≤ f m := by
  induction r generalizing a with
  | nil => simp
  | cons b r ih =>
    rw [List.foldl_cons]
    obtain ⟨h1, h2⟩ := ih (if f b < f a then b else a)
    have hc : (if f b < f a then b else a) ∈ [a, b] ∧ f (if f b < f a then b else a) ≤ f a
        ∧ f (if f b < f a then b else a) ≤ f b := by
      split <;> simp <;> omega
    generalize (if f b < f a then b else a) = c at h1 h2 hc ⊢
    generalize List.foldl (fun a b => if f b < f a then b else a) c r = d at h1 h2 ⊢
    simp only [List.mem_cons, forall_eq_or_imp, List.not_mem_nil, or_false] at h1 h2 hc ⊢
    refine ⟨?_, by omega, by omega, h2.2⟩
    rcases h1 with rfl | h1
    · tauto
    · exact .inr (.inr h1)

/-- The sectors that can be erased. -/
theorem Journal.mem_reclaimable (j : Journal) (k : Nat) :
    k ∈ (List.range Config.sectors).filter (fun k => (j.sector k).state == .reclaimable)
      ↔ k < 32 ∧ (j.sector k).state = .reclaimable := by
  simp [Config.sectors]

/-- The sector erased next is RECLAIMABLE. -/
theorem Journal.nextErase_mem {j : Journal} {k : Nat} (h : j.nextErase = some k) :
    k < 32 ∧ (j.sector k).state = .reclaimable := by
  rw [← j.mem_reclaimable]
  simp only [Journal.nextErase] at h
  split at h
  · rename_i m hm
    cases h
    exact List.mem_of_find?_eq_some hm
  · split at h
    · cases h
    · rename_i hc
      rw [hc, ← Option.some.inj h]
      exact (foldl_lowest j.lowestIn _ _).1

/-- With a RECLAIMABLE sector one is erased next. -/
theorem Journal.nextErase_isSome {j : Journal} {k : Nat} (hk : k < 32) (h : (j.sector k).state = .reclaimable) :
    ∃ m, j.nextErase = some m := by
  have hm := (j.mem_reclaimable k).mpr ⟨hk, h⟩
  simp only [Journal.nextErase]
  split
  · exact ⟨_, rfl⟩
  · split
    · rename_i hc; rw [hc] at hm; cases hm
    · exact ⟨_, rfl⟩

/-- A sector whose content is disregarded comes first, the lowest-numbered of them. -/
theorem Journal.nextErase_disregarded {j : Journal} {k : Nat} (hk : k < 32) (h : j.sector k = ⟨.reclaimable, true⟩)
    (hl : ∀ m < k, j.sector m ≠ ⟨.reclaimable, true⟩) : j.nextErase = some k := by
  have : ((List.range Config.sectors).filter fun k => (j.sector k).state == .reclaimable).find?
      (fun k => (j.sector k).disregarded) = some k := by
    rw [List.find?_filter, List.find?_eq_some_iff_append]
    refine ⟨by simp [h], List.range k, (List.range' (k + 1) (31 - k)), ?_, fun m hm => ?_⟩
    · have : Config.sectors = k + (1 + (31 - k)) := by simp only [Config.sectors]; omega
      rw [this, List.range_add, List.range_add]
      simp [List.range'_eq_map_range, List.range_succ_eq_map, Nat.add_assoc]
    · have := hl m (List.mem_range.mp hm)
      by_contra hc
      exact this (by cases hx : j.sector m; simp_all)
  simp only [Journal.nextErase, this]

/-- With no content disregarded the sector of the lowest numbers is erased next. -/
theorem Journal.nextErase_lowest {j : Journal} {k : Nat} (hd : ∀ m < 32, (j.sector m).disregarded = false)
    (hl : j.Lowest (fun m => m < 32 ∧ (j.sector m).state = .reclaimable) k) : j.nextErase = some k := by
  obtain ⟨hk, e, he, hs, hv, hm⟩ := hl
  have hin : ∀ m, m < 32 → (j.sector m).state = .reclaimable → ∀ f, f ∈ j.slots → f.1 / 128 = m → patternOf f.2 = .valid →
      slotSeq f.2 ∈ ((j.records.filter fun e => sectorOf e.1 == m).map fun e => slotSeq e.2) := by
    intro m h1 h2 f hf hfm hfv
    refine List.mem_map.mpr ⟨f, List.mem_filter.mpr ⟨(j.mem_records f).mpr ⟨hf, hfv, ?_⟩, ?_⟩, rfl⟩
    · simp [hfm, Sector.retained, h2, hd m h1]
    · simp [sectorOf, Config.slotsPerSector, hfm]
  have hlow : ∀ m, m < 32 → (j.sector m).state = .reclaimable → m ≠ k → j.lowestIn k < j.lowestIn m := by
    intro m h1 h2 hmk
    obtain ⟨⟨f, hf, hfm, hfv⟩, hlt⟩ := hm m ⟨h1, h2⟩ hmk
    obtain ⟨a, ha, hae⟩ := (leastOf_spec _).2 _ (hin k hk.1 hk.2 e he hs hv)
    obtain ⟨b, hb, -⟩ := (leastOf_spec _).2 _ (hin m h1 h2 f hf hfm hfv)
    obtain ⟨g, hg, hgs⟩ := List.mem_map.mp ((leastOf_spec _).1 b hb).1
    obtain ⟨hg, hgm⟩ := List.mem_filter.mp hg
    have hg := (j.mem_records g).mp hg
    have := hlt g hg.1 (by simpa [sectorOf, Config.slotsPerSector] using hgm) hg.2.1
    simp only [Journal.lowestIn, ha, hb, Option.getD_some]
    omega
  have hkm := (j.mem_reclaimable k).mpr hk
  have hnd : ((List.range Config.sectors).filter fun k => (j.sector k).state == .reclaimable).find?
      (fun k => (j.sector k).disregarded) = none :=
    List.find?_eq_none.mpr fun m hm => by simp [hd m ((j.mem_reclaimable m).mp hm).1]
  simp only [Journal.nextErase, hnd]
  split
  · rename_i hc; rw [hc] at hkm; cases hkm
  · rename_i a r hc
    obtain ⟨h1, h2⟩ := foldl_lowest j.lowestIn r a
    rw [← hc] at h1 h2
    have h1 := (j.mem_reclaimable _).mp h1
    by_contra hne
    exact absurd (h2 k hkm) (Nat.not_le.mpr (hlow _ h1.1 h1.2 fun h => hne (by rw [h])))

/-- With an erase in flight nothing starts. -/
theorem Journal.startErase_busy {j : Journal} (h : j.erase ≠ none) : j.startErase = j := by
  simp only [Journal.startErase]
  split
  · simp_all
  · rfl

/-- With no RECLAIMABLE sector nothing starts. -/
theorem Journal.startErase_none {j : Journal} (h : j.nextErase = none) : j.startErase = j := by
  simp only [Journal.startErase]
  split
  · simp_all
  · rfl

/-- An erase starts at the sector that is next: its sector, the note and oldest retained change, and nothing else. -/
theorem Journal.startErase_some {j : Journal} {k : Nat} (he : j.erase = none) (h : j.nextErase = some k) :
    j.startErase.Erases k ∧ j.startErase.OldestStands ∧ (∀ m, m ≠ k → j.startErase.sector m = j.sector m)
      ∧ j.startErase = { j with sectors := j.startErase.sectors, note := some k, erase := j.startErase.erase
                                oldest := j.startErase.oldest } := by
  have hk : k < j.sectors.length := Journal.lt_of_sector (by simp [(Journal.nextErase_mem h).2])
  have hs : j.startErase = { (j.setSector k ⟨.erasing, false⟩) with
      note := some k, erase := some ⟨k, j.writing.isNone && j.queue.isEmpty⟩
      oldest := ({ (j.setSector k ⟨.erasing, false⟩) with
        note := some k, erase := some ⟨k, j.writing.isNone && j.queue.isEmpty⟩ } : Journal).lowestRetained } := by
    simp only [Journal.startErase, he, h]
  refine ⟨⟨?_, by rw [hs], by rw [hs]; rfl⟩, ?_, fun m hm => ?_, ?_⟩
  · rw [hs]
    exact (j.sector_setSector k k _).trans (by simp [hk])
  · rw [hs]
    exact Journal.lowestRetained_stands _
  · rw [hs]
    exact (j.sector_setSector k m _).trans (by simp [hm])
  · rw [hs]; rfl

end Sys2Proof.Machine
end

