-- ==== Sys2Proof/Laws/Room.lean ====
section
/-! SUPPORT. Room for an answer: what the part sends of its own never takes a port's room away, since it gives way to an
answer (R187). -/

namespace Sys2Proof.Machine

theorem State.room_of_links {s t : State} (h : t.links = s.links) : t.room = s.room := by
  funext p; simp only [State.room, State.port_of_links h]

/-- A queue that takes an unasked message keeps its room. -/
theorem room_queueUnasked (tx : List TxMsg) (m : TxMsg) (hm : m.discardable = true)
    (h : tx.length < Config.txCapacity ∨ tx.any TxMsg.discardable = true) :
    (queueUnasked tx m).length < Config.txCapacity ∨ (queueUnasked tx m).any TxMsg.discardable = true := by
  simp only [queueUnasked]
  split
  · right; simp [hm]
  · exact h

/-- A port that takes an unasked message keeps its room. -/
theorem State.room_unasked (s : State) (p q : Port) (m : TxMsg) (hm : m.discardable = true) (h : s.room q = true) :
    (s.setPort p { s.port p with tx := queueUnasked (s.port p).tx m }).room q = true := by
  simp only [State.room, State.port_setPort, Bool.and_eq_true, Bool.or_eq_true, decide_eq_true_eq] at h ⊢
  split
  · subst q; exact ⟨h.1, room_queueUnasked _ _ hm h.2⟩
  · exact h

@[simp] theorem State.indicate_room (s : State) (i : Indication) (p : Port) (h : s.room p = true) :
    (s.indicate i).room p = true := by
  rw [State.indicate_eq]
  split
  · exact State.room_unasked s .body p _ rfl h
  · exact h

@[simp] theorem State.sendPayload_room (s : State) (m : PayloadMsg) (p : Port) (h : s.room p = true) :
    (s.sendPayload m).room p = true := by
  rw [State.sendPayload_eq]
  split
  · exact State.room_unasked s .chassis p _ rfl h
  · exact h

@[simp] theorem State.popped_room (s : State) (h : Header) : (s.popped h).room = s.room := by
  funext p
  simp only [State.room, State.popped_port]
  split <;> rfl

@[simp] theorem State.setPins_room (s : State) (x : Pins) : (s.setPins x).room = s.room := rfl
@[simp] theorem State.setSettings_room (s : State) (x : SettingsBlock) : (s.setSettings x).room = s.room := rfl
@[simp] theorem State.setLcc_room (s : State) (x : Lcc) : (s.setLcc x).room = s.room := rfl
@[simp] theorem State.setChans_room (s : State) (x : Six Chan) : (s.setChans x).room = s.room := rfl
@[simp] theorem State.setStore_room (s : State) (x : Store) : (s.setStore x).room = s.room := rfl
@[simp] theorem State.setShadow_room (s : State) (x : Shadow) : (s.setShadow x).room = s.room := rfl
@[simp] theorem State.setSlotMap_room (s : State) (x : SlotSets) : (s.setSlotMap x).room = s.room := rfl
@[simp] theorem State.setDrive_room (s : State) (x : Drive) : (s.setDrive x).room = s.room := rfl
@[simp] theorem State.setWeigh_room (s : State) (x : Weigh) : (s.setWeigh x).room = s.room := rfl
@[simp] theorem State.setLock_room (s : State) (x : Lock) : (s.setLock x).room = s.room := rfl
@[simp] theorem State.setHouses_room (s : State) (x : Houses) : (s.setHouses x).room = s.room := rfl
@[simp] theorem State.setComps_room (s : State) (x : Two Comp) : (s.setComps x).room = s.room := rfl
@[simp] theorem State.setJournal_room (s : State) (x : Journal) : (s.setJournal x).room = s.room := rfl
@[simp] theorem State.setInter_room (s : State) (x : Interlocks) : (s.setInter x).room = s.room := rfl
@[simp] theorem State.setFreeIx_room (s : State) (x : Nat) : (s.setFreeIx x).room = s.room := rfl
@[simp] theorem State.setChan_room (s : State) (c : Channel) (r : Chan) : (s.setChan c r).room = s.room := rfl
@[simp] theorem State.setComp_room (s : State) (c : Compartment) (r : Comp) : (s.setComp c r).room = s.room := rfl
@[simp] theorem State.mapCtx_room (s : State) (f : LiftCtx → LiftCtx) : (s.mapCtx f).room = s.room := rfl

@[simp] theorem State.alert_room (s : State) (a : Alert) (q : Port) (hr : s.room q = true) :
    (s.alert a).room q = true := by
  simp [*, State.alert]

@[simp] theorem State.sendPhase_room (s : State) (q : Port) (hr : s.room q = true) :
    (s.sendPhase).room q = true := by
  simp [*, State.sendPhase]

@[simp] theorem State.refresh_room (s : State) : (s.refresh).room = s.room :=
  State.room_of_links (by simp)

@[simp] theorem State.recomputeQa_room (s : State) : (s.recomputeQa).room = s.room :=
  State.room_of_links (by simp)

@[simp] theorem State.stopTimers_room (s : State) (m : Option Words) : (s.stopTimers m).room = s.room :=
  State.room_of_links (by simp)

@[simp] theorem State.setCoil_room (s : State) (c : Channel) (d : Side) (x : Coil) : (s.setCoil c d x).room = s.room :=
  State.room_of_links (by simp)

@[simp] theorem State.setLatch_room (s : State) (c : Channel) (l : Latch) : (s.setLatch c l).room = s.room :=
  State.room_of_links (by simp)

@[simp] theorem State.clearLatch_room (s : State) (c : Channel) : (s.clearLatch c).room = s.room :=
  State.room_of_links (by simp)

@[simp] theorem State.emitPayload_room (s : State) (q : Port) (hr : s.room q = true) :
    (s.emitPayload).room q = true := by
  simp [*, State.emitPayload]

@[simp] theorem State.raiseAlarm_room (s : State) (q : Port) (hr : s.room q = true) :
    (s.raiseAlarm).room q = true := by
  simp only [State.raiseAlarm]
  (repeat' split) <;> simp [*]

@[simp] theorem State.testSnapshot_room (s : State) (q : Port) (hr : s.room q = true) :
    (s.testSnapshot).room q = true := by
  simp only [State.testSnapshot]
  (repeat' split) <;> simp [*]

@[simp] theorem State.clearSnapshot_room (s : State) (q : Port) (hr : s.room q = true) :
    (s.clearSnapshot).room q = true := by
  simp only [State.clearSnapshot]
  (repeat' split) <;> simp [*]

@[simp] theorem State.testLow_room (s : State) (q : Port) (hr : s.room q = true) :
    (s.testLow).room q = true := by
  simp only [State.testLow]
  (repeat' split) <;> simp [*]

@[simp] theorem State.grant_room (s : State) (q : Port) (hr : s.room q = true) :
    (s.grant).room q = true := by
  simp [*, State.grant]

@[simp] theorem State.returnReservation_room (s : State) : (s.returnReservation).room = s.room :=
  State.room_of_links (by simp)

@[simp] theorem State.stage_room (s : State) (r : Record) (q : Port) (hr : s.room q = true) :
    (s.stage r).room q = true := by
  simp [*, State.stage]

@[simp] theorem State.mapChan_room (s : State) (c : Channel) (f : Chan → Chan) : (s.mapChan c f).room = s.room :=
  State.room_of_links (by simp)

@[simp] theorem State.mapChans_room (s : State) (l : List Channel) (f : Chan → Chan) : (s.mapChans l f).room = s.room :=
  State.room_of_links (by simp)

@[simp] theorem State.startChan_room (s : State) (c : Channel) (o : Origin) (a e : Nat) : (s.startChan c o a e).room = s.room :=
  State.room_of_links (by simp)

@[simp] theorem State.mapPackers_room (s : State) (w : Origin → Bool) (f : Chan → Chan) : (s.mapPackers w f).room = s.room :=
  State.room_of_links (by simp)

@[simp] theorem State.packersPtoOff_room (s : State) : (s.packersPtoOff).room = s.room :=
  State.room_of_links (by simp)

@[simp] theorem State.packersPtoOn_room (s : State) : (s.packersPtoOn).room = s.room :=
  State.room_of_links (by simp)

@[simp] theorem State.packersExpired_room (s : State) : (s.packersExpired).room = s.room :=
  State.room_of_links (by simp)

@[simp] theorem State.packersHeld_room (s : State) : (s.packersHeld).room = s.room :=
  State.room_of_links (by simp)

@[simp] theorem State.closeTags_room (s : State) : (s.closeTags).room = s.room :=
  State.room_of_links (by simp)

@[simp] theorem State.dropTags_room (s : State) : (s.dropTags).room = s.room :=
  State.room_of_links (by simp)

@[simp] theorem State.tagSeen_room (s : State) (tag : TagId) (b : Byte) : (s.tagSeen tag b).room = s.room :=
  State.room_of_links (by simp)

@[simp] theorem State.dropWindow_room (s : State) : (s.dropWindow).room = s.room :=
  State.room_of_links (by simp)

@[simp] theorem State.weighHalt_room (s : State) : (s.weighHalt).room = s.room :=
  State.room_of_links (by simp)

@[simp] theorem State.weighResume_room (s : State) : (s.weighResume).room = s.room :=
  State.room_of_links (by simp)

@[simp] theorem State.testEnable_room (s : State) : (s.testEnable).room = s.room :=
  State.room_of_links (by simp)

@[simp] theorem State.openWindow_room (s : State) (k : WindowKind) : (s.openWindow k).room = s.room :=
  State.room_of_links (by simp)

@[simp] theorem State.noteOutcome_room (s : State) (o : WindowOutcome) : (s.noteOutcome o).room = s.room :=
  State.room_of_links (by simp)

@[simp] theorem State.closeWindow_room (s : State) : (s.closeWindow).room = s.room :=
  State.room_of_links (by simp)

@[simp] theorem State.takeZero_room (s : State) (w : Window) (r : Int) : (s.takeZero w r).room = s.room :=
  State.room_of_links (by simp)

@[simp] theorem State.handCapture_room (s : State) (w : Window) (c : Capture) : (s.handCapture w c).room = s.room :=
  State.room_of_links (by simp)

@[simp] theorem State.blockArrival_room (s : State) (b : Block) : (s.blockArrival b).room = s.room :=
  State.room_of_links (by simp)

@[simp] theorem State.workPair_room (s : State) (a b : BitVec 24) : (s.workPair a b).room = s.room :=
  State.room_of_links (by simp)

@[simp] theorem State.handOver_room (s : State) (c : Compartment) (x : Comp) (q : Port) (hr : s.room q = true) :
    (s.handOver c x).room q = true := by
  simp only [State.handOver]
  (repeat' split) <;> simp [*]

@[simp] theorem State.recompute_room (s : State) (c : Compartment) (q : Port) (hr : s.room q = true) :
    (s.recompute c).room q = true := by
  simp only [State.recompute]
  (repeat' split) <;> simp [*]

@[simp] theorem State.contribute_room (s : State) (c : Compartment) (n : Nat) (q : Port) (hr : s.room q = true) :
    (s.contribute c n).room q = true := by
  simp [*, State.contribute]

@[simp] theorem State.packRetract_room (s : State) (c : Compartment) (q : Port) (hr : s.room q = true) :
    (s.packRetract c).room q = true := by
  simp [*, State.packRetract]

@[simp] theorem State.stageUnload_room (s : State) (c : Compartment) (q : Port) (hr : s.room q = true) :
    (s.stageUnload c).room q = true := by
  simp [*, State.stageUnload]

@[simp] theorem State.settleEject_room (s : State) (c : Compartment) (t : Bool) (g : Stage) (o : EjectOutcome) (q : Port) (hr : s.room q = true) :
    (s.settleEject c t g o).room q = true := by
  simp only [State.settleEject]
  (repeat' split) <;> simp [*]

@[simp] theorem State.packFault_room (s : State) (c : Compartment) (f : FaultAt) (q : Port) (hr : s.room q = true) :
    (s.packFault c f).room q = true := by
  simp only [State.packFault]
  (repeat' split) <;> simp [*]

@[simp] theorem State.reportPackStart_room (s : State) (c : Compartment) (q : Port) (hr : s.room q = true) :
    (s.reportPackStart c).room q = true := by
  simp only [State.reportPackStart]
  (repeat' split) <;> simp [*]

@[simp] theorem State.startPack_room (s : State) (c : Compartment) (a : Nat) (q : Port) (hr : s.room q = true) :
    (s.startPack c a).room q = true := by
  simp only [State.startPack]
  (repeat' split) <;> simp [*]

@[simp] theorem State.testDue_room (s : State) (c : Compartment) (q : Port) (hr : s.room q = true) :
    (s.testDue c).room q = true := by
  simp only [State.testDue]
  (repeat' split) <;> simp [*]

@[simp] theorem State.testDueAll_room (s : State) (q : Port) (hr : s.room q = true) :
    (s.testDueAll).room q = true := by
  simp [*, State.testDueAll]

@[simp] theorem State.startEject_room (s : State) (c : Compartment) (a : Nat) (q : Port) (hr : s.room q = true) :
    (s.startEject c a).room q = true := by
  simp only [State.startEject]
  (repeat' split) <;> simp [*]

@[simp] theorem State.restoreTotals_room (s : State) : (s.restoreTotals).room = s.room :=
  State.room_of_links (by simp)

@[simp] theorem State.clearPacker_room (s : State) (c : Compartment) : (s.clearPacker c).room = s.room :=
  State.room_of_links (by simp)

@[simp] theorem State.enterStuck_room (s : State) (q : Port) (hr : s.room q = true) :
    (s.enterStuck).room q = true := by
  simp [*, State.enterStuck]

@[simp] theorem State.halt_room (s : State) (p : ProfilePhase) (c : Causes) (f : Six (Option FaultKind)) (q : Port) (hr : s.room q = true) :
    (s.halt p c f).room q = true := by
  simp [*, State.halt]

@[simp] theorem State.addCause_room (s : State) (c : InterlockCause) (q : Port) (hr : s.room q = true) :
    (s.addCause c).room q = true := by
  simp only [State.addCause]
  (repeat' split) <;> simp [*]

@[simp] theorem State.removeCause_room (s : State) (c : InterlockCause) (q : Port) (hr : s.room q = true) :
    (s.removeCause c).room q = true := by
  simp only [State.removeCause]
  (repeat' split) <;> simp [*]

@[simp] theorem State.cycleFault_room (s : State) (c : Channel) (k : FaultKind) (q : Port) (hr : s.room q = true) :
    (s.cycleFault c k).room q = true := by
  simp only [State.cycleFault]
  (repeat' split) <;> simp [*]

@[simp] theorem State.startChans_room (s : State) (l : List (Channel × Nat)) (e : Nat) : (l.foldl (fun t a => t.startChan a.1 .cycle a.2 e) s).room = s.room :=
  State.room_of_links (by simp)

@[simp] theorem State.startPhase_room (s : State) (x : LiftCtx) (p : ProfilePhase) (q : Port) (hr : s.room q = true) :
    (s.startPhase x p).room q = true := by
  simp [*, State.startPhase]

@[simp] theorem State.reportStarts_room (s : State) (l : List Channel) (q : Port) (hr : s.room q = true) :
    (s.reportStarts l).room q = true := by
  unfold State.reportStarts
  induction l generalizing s with
  | nil => exact hr
  | cons c r ih =>
    rw [List.foldl_cons]
    apply ih
    split <;> simp [*]

@[simp] theorem State.stageLift_room (s : State) (x : LiftCtx) (q : Port) (hr : s.room q = true) :
    (s.stageLift x).room q = true := by
  simp only [State.stageLift]
  (repeat' split) <;> simp [*]

@[simp] theorem State.stageRefused_room (s : State) (x : LiftCtx) (q : Port) (hr : s.room q = true) :
    (s.stageRefused x).room q = true := by
  simp [*, State.stageRefused]

@[simp] theorem State.stageAborted_room (s : State) (x : LiftCtx) (q : Port) (hr : s.room q = true) :
    (s.stageAborted x).room q = true := by
  simp [*, State.stageAborted]

@[simp] theorem State.stageCycle_room (s : State) (q : Port) (hr : s.room q = true) :
    (s.stageCycle).room q = true := by
  simp only [State.stageCycle]
  split
  · exact hr
  · apply State.testSnapshot_room
    rw [State.testEnable_room]
    apply State.sendPhase_room
    rw [State.setLcc_room, State.dropTags_room]
    split <;> (try rw [State.setHouses_room]) <;> split <;> simp [*]

@[simp] theorem State.takeDecision_room (s : State) (x : LiftCtx) : (s.takeDecision x).room = s.room :=
  State.room_of_links (by simp)

@[simp] theorem State.recomputeSpeed_room (s : State) (f : Bool) (q : Port) (hr : s.room q = true) :
    (s.recomputeSpeed f).room q = true := by
  simp only [State.recomputeSpeed]
  (repeat' split) <;> simp [*]

@[simp] theorem State.beginAwait_room (s : State) (c : Channel) (t : Nat) : (s.beginAwait c t).room = s.room :=
  State.room_of_links (by simp)

@[simp] theorem State.renewPermit_room (s : State) (q : Port) (hr : s.room q = true) :
    (s.renewPermit).room q = true := by
  simp only [State.renewPermit]
  (repeat' split) <;> simp [*]

@[simp] theorem State.abandon_room (s : State) : (s.abandon).room = s.room :=
  State.room_of_links (by simp)

@[simp] theorem State.setWorking_room (s : State) (p : Params) : (s.setWorking p).room = s.room :=
  State.room_of_links (by simp)

@[simp] theorem State.takeChassis_room (f : ChassisFields) (s : State) (q : Port) (hr : s.room q = true) :
    (State.takeChassis f s).room q = true := by
  simp [*, State.takeChassis]

@[simp] theorem State.readMetrology_room (s : State) : (s.readMetrology).room = s.room :=
  State.room_of_links (by simp)

@[simp] theorem State.setPressure_room (s : State) (c : Compartment) (p : Nat) : (s.setPressure c p).room = s.room :=
  State.room_of_links (by simp)

@[simp] theorem State.readPressure_room (s : State) (c : Compartment) (p : Nat) : (s.readPressure c p).room = s.room :=
  State.room_of_links (by simp)

@[simp] theorem State.chassisSilent_room (s : State) (q : Port) (hr : s.room q = true) :
    (s.chassisSilent).room q = true := by
  simp [*, State.chassisSilent]

@[simp] theorem State.expirePermit_room (s : State) (q : Port) (hr : s.room q = true) :
    (s.expirePermit).room q = true := by
  simp [*, State.expirePermit]

@[simp] theorem State.changePto_room (s : State) (on : Bool) (q : Port) (hr : s.room q = true) :
    (s.changePto on).room q = true := by
  simp only [State.changePto]
  (repeat' split) <;> simp [*]

end Sys2Proof.Machine
end

