-- ==== Sys2Proof/Laws/Scan.lean ====
section
/-! SUPPORT. The start-up scan in the terms of its rules: the classes of the sectors, the walk, the slots it voids (R168,
R169). -/

namespace Sys2Proof.Machine

/-! ## Classes (R168) -/

theorem Journal.patterns_getElem? (j : Journal) (k i : Nat) :
    (j.patterns k)[i]? = if i < 128 then some (j.patternAt k i) else none := by
  simp only [Journal.patterns, Config.slotsPerSector, List.getElem?_map]
  by_cases h : i < 128 <;> simp [h]

@[simp] theorem Journal.patterns_length (j : Journal) (k : Nat) : (j.patterns k).length = 128 := by
  simp [Journal.patterns, Config.slotsPerSector]

theorem Journal.mem_patterns (j : Journal) (k : Nat) (p : Pattern) : p ∈ j.patterns k ↔ ∃ i < 128, j.patternAt k i = p := by
  simp [Journal.patterns, Config.slotsPerSector]

/-- A list of patterns is well formed when it runs VALID or VOID, then at most one DAMAGED, then BLANK. -/
theorem wellFormed_iff (l : List Pattern) : wellFormed l = true ↔
    ∃ a b, a ≤ b ∧ b ≤ a + 1 ∧ b ≤ l.length ∧ (∀ i < a, l[i]? = some .valid ∨ l[i]? = some .void)
      ∧ (∀ i, a ≤ i → i < b → l[i]? = some .damaged) ∧ ∀ i, b ≤ i → i < l.length → l[i]? = some .blank := by
  have hb : ∀ (r : List Pattern), r.all (· == .blank) = true ↔ ∀ i, i < r.length → r[i]? = some .blank := by
    intro r
    rw [List.all_eq_true]
    refine ⟨fun h i hi => ?_, fun h p hp => ?_⟩
    · rw [List.getElem?_eq_getElem hi, eq_of_beq (h _ (List.getElem_mem hi))]
    · obtain ⟨i, hi, rfl⟩ := List.getElem_of_mem hp
      have := h i hi
      rw [List.getElem?_eq_getElem hi] at this
      simp [Option.some.inj this]
  induction l with
  | nil => exact ⟨fun _ => ⟨0, 0, by simp⟩, fun _ => rfl⟩
  | cons p r ih =>
    have step : (p = .valid ∨ p = .void) → (wellFormed r = true ↔
        ∃ a b, a ≤ b ∧ b ≤ a + 1 ∧ b ≤ (p :: r).length
          ∧ (∀ i < a, (p :: r)[i]? = some .valid ∨ (p :: r)[i]? = some .void)
          ∧ (∀ i, a ≤ i → i < b → (p :: r)[i]? = some .damaged)
          ∧ ∀ i, b ≤ i → i < (p :: r).length → (p :: r)[i]? = some .blank) := by
      intro hp
      refine ih.trans ?_
      constructor
      · rintro ⟨a, b, h1, h2, h3, h4, h5, h6⟩
        refine ⟨a + 1, b + 1, by omega, by omega, by simpa using h3, fun i hi => ?_, fun i hi hi' => ?_, fun i hi hi' => ?_⟩
        · cases i with
          | zero => simpa using hp
          | succ i => simpa using h4 i (by omega)
        · obtain ⟨i, rfl⟩ : ∃ n, i = n + 1 := ⟨i - 1, by omega⟩
          simpa using h5 i (by omega) (by omega)
        · obtain ⟨i, rfl⟩ : ∃ n, i = n + 1 := ⟨i - 1, by omega⟩
          simpa using h6 i (by omega) (by simpa using hi')
      · rintro ⟨a, b, h1, h2, h3, h4, h5, h6⟩
        have ha : a ≠ 0 := by
          rintro rfl
          rcases Nat.eq_zero_or_pos b with rfl | hb'
          · have := h6 0 (Nat.le_refl _) (by simp); simp at this; simp [this] at hp
          · have := h5 0 (Nat.le_refl _) hb'; simp at this; simp [this] at hp
        refine ⟨a - 1, b - 1, by omega, by omega, by simp at h3; omega, fun i hi => ?_, fun i hi hi' => ?_, fun i hi hi' => ?_⟩
        · simpa using h4 (i + 1) (by omega)
        · simpa using h5 (i + 1) (by omega) (by omega)
        · simpa using h6 (i + 1) (by omega) (by simpa using hi')
    cases p with
    | valid => simpa only [wellFormed] using step (.inl rfl)
    | void => simpa only [wellFormed] using step (.inr rfl)
    | damaged =>
      simp only [wellFormed, hb]
      constructor
      · intro h
        refine ⟨0, 1, by omega, by omega, by simp, by simp, fun i _ hi => ?_, fun i hi hi' => ?_⟩
        · obtain rfl : i = 0 := by omega
          rfl
        · obtain ⟨i, rfl⟩ : ∃ n, i = n + 1 := ⟨i - 1, by omega⟩
          simpa using h i (by simpa using hi')
      · rintro ⟨a, b, h1, h2, h3, h4, h5, h6⟩ i hi
        have ha : a = 0 := by
          by_contra ha
          have := h4 0 (by omega)
          simp at this
        have hb' : b ≤ 1 := by omega
        simpa using h6 (i + 1) (by omega) (by simpa using hi)
    | blank =>
      simp only [wellFormed, hb]
      constructor
      · intro h
        refine ⟨0, 0, by omega, by omega, by simp, by simp, fun i _ hi => by omega, fun i hi hi' => ?_⟩
        cases i with
        | zero => rfl
        | succ i => simpa using h i (by simpa using hi')
      · rintro ⟨a, b, h1, h2, h3, h4, h5, h6⟩ i hi
        have ha : a = 0 := by
          by_contra ha
          have := h4 0 (by omega)
          simp at this
        have hb' : b = 0 := by
          by_contra hb'
          have := h5 0 (by omega) (by omega)
          simp at this
        simpa using h6 (i + 1) (by omega) (by simpa using hi)

theorem Journal.wellFormed_patterns (j : Journal) (k : Nat) : wellFormed (j.patterns k) = true ↔ j.WellFormedAt k := by
  rw [wellFormed_iff]
  simp only [Journal.patterns_getElem?, Journal.patterns_length, Journal.WellFormedAt]
  refine exists₂_congr fun a b => and_congr_right fun h1 => and_congr_right fun h2 => and_congr_right fun h3 => ?_
  refine and_congr (forall₂_congr fun i hi => ?_) (and_congr (forall₃_congr fun i _ hi => ?_) (forall₃_congr fun i _ hi => ?_))
  all_goals rw [if_pos (by omega)]; simp

theorem Journal.all_blank (j : Journal) (k : Nat) : (j.patterns k).all (· == .blank) = true ↔ j.AllBlank k := by
  rw [List.all_eq_true]
  exact ⟨fun h i hi => eq_of_beq (h _ ((j.mem_patterns k _).mpr ⟨i, hi, rfl⟩)),
    fun h p hp => by obtain ⟨i, hi, rfl⟩ := (j.mem_patterns k p).mp hp; simp [h i hi]⟩

theorem Journal.AllBlank.wellFormed {j : Journal} {k : Nat} (h : j.AllBlank k) : j.WellFormedAt k :=
  ⟨0, 0, Nat.le_refl _, by omega, by omega, by omega, by omega, fun i _ hi => h i hi⟩

theorem patternOf_blank : patternOf blankSlot = .blank := by simp [patternOf]

/-- A slot is BLANK when it holds all ones (R153). -/
theorem patternOf_eq_blank (x : SlotBits) : patternOf x = .blank ↔ x = blankSlot := by
  refine ⟨fun h => ?_, fun h => h ▸ patternOf_blank⟩
  by_contra hne
  rw [patternOf, if_neg hne] at h
  split at h
  · cases h
  · split at h <;> cases h

/-- A sector with no slot listed is BLANK. -/
theorem Journal.allBlank_of_unlisted {j : Journal} {k : Nat} (h : ∀ e ∈ j.slots, e.1 / 128 ≠ k) : j.AllBlank k := by
  intro i hi
  have : readSlot j.slots (k * 128 + i) = blankSlot := readCell_of_not_mem fun e he hk => h e he (by omega)
  simp only [Journal.patternAt, this, patternOf_blank]

/-- A sector's class, by its slots and the erase note (R168). -/
theorem Journal.classOf_spec (j : Journal) (k : Nat) :
    (j.note = some k → j.classOf k = .interrupted)
      ∧ (j.note ≠ some k → (j.AllBlank k → j.classOf k = .blank)
        ∧ (¬ j.AllBlank k → j.WellFormedAt k → j.classOf k = .wellFormed)
        ∧ (¬ j.WellFormedAt k → j.classOf k = .malformed)) := by
  refine ⟨fun h => by simp [Journal.classOf, h], fun h => ?_⟩
  have hc : j.classOf k = if (j.slots.all fun e => sectorOf e.1 != k) = true then .blank else
      if (j.patterns k).all (· == .blank) = true then .blank else if wellFormed (j.patterns k) then .wellFormed
      else .malformed := by
    simp only [Journal.classOf, if_neg h]
  have hu : (j.slots.all fun e => sectorOf e.1 != k) = true → j.AllBlank k := by
    intro hu
    refine Journal.allBlank_of_unlisted fun e he => ?_
    simpa [sectorOf, Config.slotsPerSector] using List.all_eq_true.mp hu e he
  rw [hc]
  refine ⟨fun hb => ?_, fun hb hw => ?_, fun hw => ?_⟩
  · rw [if_pos ((j.all_blank k).mpr hb), ite_self]
  · rw [if_neg fun h => hb (hu h), if_neg fun h => hb ((j.all_blank k).mp h), if_pos ((j.wellFormed_patterns k).mpr hw)]
  · have hb : ¬ j.AllBlank k := fun hb => hw hb.wellFormed
    rw [if_neg fun h => hb (hu h), if_neg fun h => hb ((j.all_blank k).mp h),
      if_neg fun h => hw ((j.wellFormed_patterns k).mp h)]

theorem Journal.walkable_iff (j : Journal) (k : Nat) : j.walkable k = true ↔ j.Fresh k := by
  obtain ⟨h1, h2⟩ := j.classOf_spec k
  simp only [Journal.walkable, Journal.Fresh]
  by_cases hn : j.note = some k
  · simp [h1 hn, hn]
  · obtain ⟨hb, hw, hm⟩ := h2 hn
    by_cases hb' : j.AllBlank k
    · simp only [hb hb', true_iff]
      exact ⟨hn, hb'.wellFormed, fun i hi => by rw [hb' i hi]; nofun⟩
    · by_cases hw' : j.WellFormedAt k
      · simp only [hw hb' hw', List.all_eq_true, bne_iff_ne]
        exact ⟨fun h => ⟨hn, hw', fun i hi => h _ ((j.mem_patterns k _).mpr ⟨i, hi, rfl⟩)⟩,
          fun h p hp => by obtain ⟨i, hi, rfl⟩ := (j.mem_patterns k p).mp hp; exact h.2.2 i hi⟩
      · simp [hm hw', hw']

/-! ## The walk (R169) -/

/-- The walk through a list of patterns: the DAMAGED slots before the first unwritten one, and whether there is one. -/
theorem walk_spec (u : Bool) (l : List Pattern) (i : Nat) :
    (∀ v, v ∈ (walk u i l).1 ↔ ∃ n, v = i + n ∧ l[n]? = some .damaged ∧ (u = true → ∀ m < n, l[m]? ≠ some .blank))
      ∧ ((walk u i l).2.isSome = true ↔ u = true ∧ ∃ n : Nat, l[n]? = some Pattern.blank) := by
  induction l generalizing i with
  | nil => simp [walk]
  | cons p r ih =>
    obtain ⟨h1, h2⟩ := ih (i + 1)
    have skip : (p ≠ .blank ∨ u = false) → p ≠ .damaged →
        ((∀ v, v ∈ (walk u (i + 1) r).1 ↔
            ∃ n, v = i + n ∧ (p :: r)[n]? = some .damaged ∧ (u = true → ∀ m < n, (p :: r)[m]? ≠ some .blank))
          ∧ ((walk u (i + 1) r).2.isSome = true ↔ u = true ∧ ∃ n : Nat, (p :: r)[n]? = some Pattern.blank)) := by
      intro hp hd
      refine ⟨fun v => ?_, ?_⟩
      · rw [h1]
        constructor
        · rintro ⟨n, rfl, hn, hm⟩
          refine ⟨n + 1, by omega, by simpa using hn, fun hu m hm' => ?_⟩
          cases m with
          | zero => simpa using hp.resolve_right (by simp [hu])
          | succ m => simpa using hm hu m (by omega)
        · rintro ⟨n, rfl, hn, hm⟩
          cases n with
          | zero => simp [hd] at hn
          | succ n => exact ⟨n, by omega, by simpa using hn, fun hu m hm' => by simpa using hm hu (m + 1) (by omega)⟩
      · rw [h2]
        refine and_congr_right fun hu => ⟨fun ⟨n, hn⟩ => ⟨n + 1, by simpa using hn⟩, fun ⟨n, hn⟩ => ?_⟩
        cases n with
        | zero => simp at hn; simp [hn, hu] at hp
        | succ n => exact ⟨n, by simpa using hn⟩
    cases p with
    | valid => exact skip (.inl nofun) nofun
    | void => exact skip (.inl nofun) nofun
    | damaged =>
      simp only [walk, List.mem_cons]
      refine ⟨fun v => ?_, ?_⟩
      · rw [h1]
        constructor
        · rintro (rfl | ⟨n, rfl, hn, hm⟩)
          · exact ⟨0, rfl, rfl, by omega⟩
          · refine ⟨n + 1, by omega, by simpa using hn, fun hu m hm' => ?_⟩
            cases m with
            | zero => simp
            | succ m => simpa using hm hu m (by omega)
        · rintro ⟨n, rfl, hn, hm⟩
          cases n with
          | zero => exact .inl rfl
          | succ n => exact .inr ⟨n, by omega, by simpa using hn, fun hu m hm' => by simpa using hm hu (m + 1) (by omega)⟩
      · rw [h2]
        refine and_congr_right fun hu => ⟨fun ⟨n, hn⟩ => ⟨n + 1, by simpa using hn⟩, fun ⟨n, hn⟩ => ?_⟩
        cases n with
        | zero => simp at hn
        | succ n => exact ⟨n, by simpa using hn⟩
    | blank =>
      cases u with
      | false => exact skip (.inr rfl) nofun
      | true =>
        simp only [walk, if_true]
        refine ⟨fun v => ⟨nofun, ?_⟩, by simpa using ⟨0, rfl⟩⟩
        rintro ⟨n, rfl, hn, hm⟩
        cases n with
        | zero => simp at hn
        | succ n => exact absurd rfl (hm trivial 0 (by omega))

/-- In a well-formed sector no DAMAGED slot stands after a BLANK one. -/
theorem Journal.WellFormedAt.blank_after {j : Journal} {k i m : Nat} (h : j.WellFormedAt k) (hi : i < 128)
    (hd : j.patternAt k i = .damaged) (hm : m < i) : j.patternAt k m ≠ .blank := by
  obtain ⟨a, b, h1, h2, h3, h4, h5, h6⟩ := h
  intro hb
  have hia : ¬ i < a := fun h => by rcases h4 i h with h | h <;> simp [hd] at h
  have hib : i < b := by
    by_contra hib
    have := h6 i (by omega) hi
    rw [hd] at this
    cases this
  rcases h4 m (by omega) with h | h <;> simp [hb] at h

/-! ## The slots voided (R169) -/

/-- An entry of a canonical memory is what reads there, if that is not erased. -/
theorem mem_iff_readSlot {m : Slots} (hm : cellsWf erasedSlot m = true) (e : Nat × SlotBits) :
    e ∈ m ↔ readSlot m e.1 = e.2 ∧ e.2 ≠ blankSlot := by
  refine ⟨fun h => ⟨readCell_of_mem hm h, ((cellsWf_iff m).mp hm).2 e h⟩, fun ⟨h1, h2⟩ => ?_⟩
  by_contra hn
  by_cases hex : ∃ f ∈ m, f.1 = e.1
  · obtain ⟨f, hf, hfe⟩ := hex
    have h3 : readSlot m f.1 = f.2 := readCell_of_mem hm hf
    rw [hfe, h1] at h3
    exact hn (by rwa [show e = f from Prod.ext hfe.symm h3])
  · have h3 : readSlot m e.1 = blankSlot := readCell_of_not_mem fun f hf hfe => hex ⟨f, hf, hfe⟩
    exact h2 (h1.symm.trans h3)

theorem foldl_void (l : List Nat) (f : Nat → Nat) (m : Slots) (hm : cellsWf erasedSlot m = true) :
    cellsWf erasedSlot (l.foldl (fun m i => writeCell erasedSlot m (f i) 0#512) m) = true
      ∧ ∀ n, readSlot (l.foldl (fun m i => writeCell erasedSlot m (f i) 0#512) m) n
        = if n ∈ l.map f then 0#512 else readSlot m n := by
  induction l generalizing m with
  | nil => exact ⟨hm, fun n => by simp⟩
  | cons a r ih =>
    obtain ⟨h1, h2⟩ := ih _ (writeCell_wf hm (f a) 0#512)
    refine ⟨h1, fun n => ?_⟩
    simp only [List.foldl_cons, h2, List.map_cons, List.mem_cons]
    have := readCell_writeCell hm (f a) n 0#512
    by_cases hr : n ∈ r.map f
    · simp [hr]
    · by_cases ha : n = f a
      · subst ha; simp [readSlot, this]
      · simp only [hr, ha, or_self, if_false]
        simp only [readSlot, this, if_neg ha]

/-! ## Where the walk starts (R153, R169) -/

/-- The first sector in ring order after `m` of which `p` holds. -/
theorem find_ringAfter {p : Nat → Bool} {m k : Nat} (hm : m < 32) (hk : k < 32) (hp : p k = true)
    (hb : ∀ q < 32, (q + 31 - m) % 32 < (k + 31 - m) % 32 → p q = false) : (ringAfter m).find? p = some k := by
  rw [List.find?_eq_some_iff_getElem]
  refine ⟨hp, (k + 31 - m) % 32, by simp [ringAfter, Config.sectors]; omega, ?_, fun i hi => ?_⟩
  · simp only [ringAfter, Config.sectors, List.getElem_map, List.getElem_range]
    omega
  · simp only [ringAfter, Config.sectors, List.getElem_map, List.getElem_range, Bool.not_eq_true']
    exact hb _ (by omega) (by omega)

theorem find_ringAfter_none {p : Nat → Bool} {m : Nat} (hb : ∀ q < 32, p q = false) : (ringAfter m).find? p = none := by
  rw [List.find?_eq_none]
  intro q hq
  obtain ⟨i, hi, rfl⟩ := List.mem_map.mp hq
  rw [hb ((m + 1 + i) % Config.sectors) (Nat.mod_lt _ (by decide : 0 < Config.sectors))]
  nofun

theorem Journal.freshAfter_walk {j : Journal} {m : Nat} (hm : m < 32) {w : Option (Nat × Nat)} (h : j.FreshAfter m w) :
    ((ringAfter m).find? j.walkable).map (fun k => (k, 0)) = w := by
  have hw : ∀ k, ¬ j.Fresh k → j.walkable k = false := fun k hk => by
    rw [← Bool.not_eq_true, j.walkable_iff]; exact hk
  cases w with
  | none => rw [find_ringAfter_none fun q hq => hw q (h q hq)]; rfl
  | some w =>
    obtain ⟨k, p⟩ := w
    obtain ⟨rfl, hk, hf, hq⟩ := h
    rw [find_ringAfter hm hk ((j.walkable_iff k).mpr hf) fun q h1 h2 => hw q (hq q h1 h2)]; rfl

theorem Journal.mem_scanned (j : Journal) (e : Nat × SlotBits) : e ∈ j.scanned ↔ j.Reads e := by
  simp [Journal.scanned, Journal.Reads, sectorOf, Config.slotsPerSector, and_comm]

theorem greatestOf_spec (l : List Nat) :
    (∀ n, n ∈ l → (∀ m ∈ l, m ≤ n) → greatestOf l = some n) ∧ (l = [] → greatestOf l = none) := by
  have key : ∀ (r : List Nat) (a : Nat), r.foldl max a ∈ a :: r ∧ ∀ m ∈ a :: r, m ≤ r.foldl max a := by
    intro r
    induction r with
    | nil => simp
    | cons b r ih =>
      intro a
      obtain ⟨h1, h2⟩ := ih (max a b)
      simp only [List.foldl_cons, List.mem_cons, forall_eq_or_imp] at h1 h2 ⊢
      refine ⟨?_, by omega, by omega, h2.2⟩
      rcases h1 with h1 | h1
      · omega
      · exact .inr (.inr h1)
  refine ⟨fun n hn hm => ?_, fun h => by rw [h]; rfl⟩
  cases l with
  | nil => cases hn
  | cons a r =>
    obtain ⟨h1, h2⟩ := key r a
    simp only [greatestOf, Option.some.injEq]
    exact Nat.le_antisymm (hm _ h1) (h2 n hn)

/-- The newest record that the scan reads gives newest written. -/
theorem Journal.greatest_scanned {j : Journal} {e : Nat × SlotBits} (h : j.ReadsNewest e) :
    greatestOf (j.scanned.map fun e => slotSeq e.2) = some (slotSeq e.2) := by
  refine (greatestOf_spec _).1 _ (List.mem_map.mpr ⟨e, (j.mem_scanned e).mpr h.2.1, rfl⟩) fun m hm => ?_
  obtain ⟨f, hf, rfl⟩ := List.mem_map.mp hm
  by_cases hfe : f = e
  · rw [hfe]
  · exact Nat.le_of_lt (h.2.2 f ((j.mem_scanned f).mp hf) hfe)

theorem Journal.greatest_none {j : Journal} (h : ∀ e, ¬ j.Reads e) :
    greatestOf (j.scanned.map fun e => slotSeq e.2) = none :=
  (greatestOf_spec _).2 (by rw [List.map_eq_nil_iff, List.eq_nil_iff_forall_not_mem]
                            exact fun e he => h e ((j.mem_scanned e).mp he))

/-- The walk starts where R169 says. -/
theorem Journal.walkStart_eq {j : Journal} {w : Option (Nat × Nat)} (h : j.WalksFrom w) : j.walkStart = w := by
  have hf : ∀ e, j.ReadsNewest e → (j.scanned.find? fun f => slotSeq f.2 == slotSeq e.2) = some e := by
    intro e he
    cases hx : j.scanned.find? fun f => slotSeq f.2 == slotSeq e.2 with
    | none => exact absurd (List.find?_eq_none.mp hx e ((j.mem_scanned e).mpr he.2.1)) (by simp)
    | some f =>
      have h1 := (j.mem_scanned f).mp (List.mem_of_find?_eq_some hx)
      have h2 : slotSeq f.2 = slotSeq e.2 := by simpa using List.find?_some hx
      by_cases hfe : f = e
      · rw [hfe]
      · have := he.2.2 f h1 hfe; omega
  rcases h with ⟨e, he, hl, rfl⟩ | ⟨e, he, hl, hw⟩ | ⟨hn, hw⟩
  · simp only [Journal.walkStart, Journal.greatest_scanned he, hf e he]
    exact if_neg (show ¬ e.1 % 128 = 127 by omega)
  · simp only [Journal.walkStart, Journal.greatest_scanned he, hf e he]
    exact (if_pos hl).trans (Journal.freshAfter_walk (show e.1 / 128 < 32 by have := he.1; omega) hw)
  · simp only [Journal.walkStart, Journal.greatest_none hn]
    exact Journal.freshAfter_walk (by decide) hw

/-- The walk stays in a sector that is there and that the erase note does not name. -/
theorem Journal.WalksFrom.sector {j : Journal} {k p : Nat} (h : j.WalksFrom (some (k, p))) : k < 32 ∧ j.note ≠ some k := by
  have fresh : ∀ m, j.FreshAfter m (some (k, p)) → k < 32 ∧ j.note ≠ some k := fun m h => ⟨h.2.1, h.2.2.1.1⟩
  rcases h with ⟨e, he, hl, hw⟩ | ⟨e, he, hl, hw⟩ | ⟨hn, hw⟩
  · cases hw
    exact ⟨by have := he.1; omega, he.2.1.2.2⟩
  · exact fresh _ hw
  · exact fresh _ hw

theorem Journal.not_malformed {j : Journal} {k : Nat} (hn : j.note ≠ some k) :
    (j.classOf k != .malformed) = true ↔ j.WellFormedAt k := by
  obtain ⟨hb, hw, hm⟩ := (j.classOf_spec k).2 hn
  by_cases hw' : j.WellFormedAt k
  · by_cases hb' : j.AllBlank k
    · simp [hb hb', hw']
    · simp [hw hb' hw', hw']
  · simp [hm hw', hw']

/-- What the walk voids and whether it finds the frontier (R169). -/
theorem Journal.walked_spec {j : Journal} {w : Option (Nat × Nat)} (h : j.WalksFrom w) :
    (w = none → j.walked = none)
      ∧ ∀ k p, w = some (k, p) → ∃ vs f, j.walked = some (k, vs, f)
          ∧ (∀ n, n ∈ vs.map (k * 128 + ·) ↔ j.Torn w n) ∧ (f.isSome = true ↔ j.FrontierAt w k) := by
  have hs := Journal.walkStart_eq h
  refine ⟨fun hw => by simp [Journal.walked, hs, hw], fun k p hw => ?_⟩
  subst hw
  obtain ⟨hk, hn⟩ := h.sector
  obtain ⟨h1, h2⟩ := walk_spec (j.classOf k != .malformed) ((j.patterns k).drop p) p
  simp only [List.getElem?_drop, Journal.patterns_getElem?, Journal.not_malformed hn] at h1 h2
  refine ⟨_, _, by simp only [Journal.walked, hs, Option.map_some]; rfl, fun n => ?_, ?_⟩
  · simp only [List.mem_map, h1]
    constructor
    · rintro ⟨v, ⟨i, rfl, hd, -⟩, rfl⟩
      split at hd
      · exact ⟨k, p, rfl, by omega, by omega, Option.some.inj hd⟩
      · cases hd
    · rintro ⟨k', p', hkp, hnk, hp, hd⟩
      cases hkp
      have hr : n = k * 128 + n % 128 := by omega
      have hd' : j.patternAt k (n % 128) = .damaged := by rw [Journal.patternAt, ← hr]; exact hd
      refine ⟨n % 128, ⟨n % 128 - p, by omega, ?_, fun hw m hm => ?_⟩, hr.symm⟩
      · rw [if_pos (by omega), show p + (n % 128 - p) = n % 128 by omega, hd']
      · rw [if_pos (by omega)]
        exact fun hb => hw.blank_after (by omega) hd' (by omega) (Option.some.inj hb)
  · rw [h2]
    constructor
    · rintro ⟨hw, i, hi⟩
      split at hi
      · exact ⟨p, p + i, rfl, hw, by omega, by omega, Option.some.inj hi⟩
      · cases hi
    · rintro ⟨p', i, hkp, hw, hp, hi, hb⟩
      cases hkp
      exact ⟨hw, i - p, by rw [if_pos (by omega), show p + (i - p) = i by omega, hb]⟩

/-- The slots after the scan: the torn ones VOID, the others as they stood (R169). -/
theorem Journal.voided_spec {j : Journal} {w : Option (Nat × Nat)} (h : j.WalksFrom w) (hm : cellsWf erasedSlot j.slots = true) :
    cellsWf erasedSlot j.voided = true
      ∧ ∀ n, (j.Torn w n → readSlot j.voided n = 0#512) ∧ (¬ j.Torn w n → readSlot j.voided n = readSlot j.slots n) := by
  obtain ⟨hn, hs⟩ := Journal.walked_spec h
  match w with
  | none =>
    simp only [Journal.voided, hn rfl]
    exact ⟨hm, fun n => ⟨nofun, fun _ => trivial⟩⟩
  | some (k, p) =>
    obtain ⟨vs, f, hw, hv, -⟩ := hs k p rfl
    simp only [Journal.voided, hw]
    obtain ⟨h1, h2⟩ := foldl_void vs (k * 128 + ·) j.slots hm
    refine ⟨h1, fun n => ⟨fun ht => (h2 n).trans (if_pos ((hv n).mpr ht)),
      fun ht => (h2 n).trans (if_neg fun hn => ht ((hv n).mp hn))⟩⟩

theorem patternOf_zero : patternOf 0#512 = .void := by
  simp [patternOf, blankSlot]

/-- The scan voids no record and makes none. -/
theorem Journal.valid_voided {j : Journal} {w : Option (Nat × Nat)} (h : j.WalksFrom w) (hm : cellsWf erasedSlot j.slots = true)
    (e : Nat × SlotBits) (hv : patternOf e.2 = .valid) : e ∈ j.voided ↔ e ∈ j.slots := by
  obtain ⟨h1, h2⟩ := Journal.voided_spec h hm
  rw [mem_iff_readSlot h1, mem_iff_readSlot hm]
  refine and_congr_left fun _ => ?_
  by_cases ht : j.Torn w e.1
  · rw [(h2 e.1).1 ht]
    obtain ⟨k, p, -, -, -, hd⟩ := ht
    refine ⟨fun he => ?_, fun he => ?_⟩
    · rw [← he, patternOf_zero] at hv; cases hv
    · rw [he, hv] at hd; cases hd
  · rw [(h2 e.1).2 ht]

/-- A sector's state after the scan, before the reclaim test (R168, R169). -/
theorem Journal.scannedSector_spec {j : Journal} {w : Option (Nat × Nat)} (h : j.WalksFrom w) (k : Nat) :
    (j.FrontierAt w k → j.scannedSector j.walked k = ⟨.active, false⟩)
      ∧ (j.note = some k → j.scannedSector j.walked k = ⟨.reclaimable, true⟩)
      ∧ (j.note ≠ some k → ¬ j.FrontierAt w k → (j.AllBlank k → j.scannedSector j.walked k = ⟨.blank, false⟩)
        ∧ (¬ j.AllBlank k → j.scannedSector j.walked k = ⟨.full, false⟩)) := by
  obtain ⟨hn, hs⟩ := Journal.walked_spec h
  obtain ⟨hi, hc⟩ := j.classOf_spec k
  have ha : (match j.walked with
      | some (k', _, some _) => k == k'
      | _ => false) = true ↔ j.FrontierAt w k := by
    match w with
    | none =>
      rw [hn rfl]
      exact ⟨nofun, fun ⟨_, _, h, _⟩ => nomatch h⟩
    | some (k', p) =>
      obtain ⟨vs, f, hw, -, hf⟩ := hs k' p rfl
      rw [hw]
      cases f with
      | none =>
        refine ⟨nofun, fun hfr => ?_⟩
        obtain ⟨p', i, hw', -⟩ := id hfr
        cases hw'
        exact absurd (hf.mpr hfr) nofun
      | some n =>
        simp only [beq_iff_eq]
        refine ⟨fun hk => hk ▸ hf.mp rfl, fun ⟨p', i, hw', _⟩ => ?_⟩
        cases hw'; rfl
  refine ⟨fun hf => ?_, fun hk => by simp [Journal.scannedSector, hi hk], fun hk hf => ⟨fun hb => ?_, fun hb => ?_⟩⟩
  · obtain ⟨p, i, hw, hwf, -⟩ := id hf
    have hk : j.note ≠ some k := by subst hw; exact h.sector.2
    by_cases hb : j.AllBlank k
    · simp only [Journal.scannedSector, (hc hk).1 hb]
      exact if_pos (ha.mpr hf)
    · simp only [Journal.scannedSector, (hc hk).2.1 hb hwf]
      exact if_pos (ha.mpr hf)
  · simp only [Journal.scannedSector, (hc hk).1 hb]
    exact if_neg fun h => hf (ha.mp h)
  · by_cases hwf : j.WellFormedAt k
    · simp only [Journal.scannedSector, (hc hk).2.1 hb hwf]
      exact if_neg fun h => hf (ha.mp h)
    · simp only [Journal.scannedSector, (hc hk).2.2 hwf]

/-- The journal after the scan: the reclaim test of one whose slots, sectors and items R169 gives. -/
theorem Journal.scan_eq (j : Journal) : ∃ v : Journal, j.scan = v.testAll ∧ v.slots = j.voided
    ∧ (∀ k, v.sector k = if k < 32 then j.scannedSector j.walked k else ⟨.blank, false⟩)
    ∧ v.newest = greatestOf (j.scanned.map fun e => slotSeq e.2) ∧ v.cells = j.cells ∧ v.holder = holderOf j.cells v.mark
    ∧ v.note = none ∧ v.erase = none ∧ v.writing = none ∧ v.queue = [] ∧ v.free = v.countFree ∧ v.OldestStands := by
  refine ⟨_, rfl, rfl, fun k => ?_, rfl, rfl, rfl, rfl, rfl, rfl, rfl, rfl, Journal.lowestRetained_stands _⟩
  simp only [Journal.sector, Config.sectors, List.getD_eq_getElem?_getD, List.getElem?_map]
  by_cases h : k < 32 <;> simp [h]

/-- Only the sector that the erase note names is disregarded after the scan (R168). -/
theorem Journal.scannedSector_disregarded {j : Journal} {k : Nat} {w : Option (Nat × List Nat × Option Nat)}
    (h : (j.scannedSector w k).disregarded = true) : j.note = some k := by
  by_contra hn
  obtain ⟨hb, hf, hm⟩ := (j.classOf_spec k).2 hn
  simp only [Journal.scannedSector] at h
  by_cases hb' : j.AllBlank k
  · rw [hb hb'] at h
    simp only at h
    (repeat' split at h) <;> cases h
  · by_cases hw' : j.WellFormedAt k
    · rw [hf hb' hw'] at h
      simp only at h
      (repeat' split at h) <;> cases h
    · rw [hm hw'] at h
      simp at h

end Sys2Proof.Machine
end

