-- ==== Sys2Proof/Laws/Tells.lean ====
section
/-! SUPPORT. What the shared operations queue on the body link: PHASE, RECORD, alerts and answers, in their order. -/

namespace Sys2Proof.Machine

open Sys2Proof

/-- A port on its bus as before, whose transmit queue has the messages after what stood in it, where it had room for them. -/
def PortState.Gains (x y : PortState) (l : List TxMsg) : Prop :=
  y.onBus = x.onBus ∧ (x.onBus = true → x.tx.length + l.length ≤ Config.txCapacity → y.tx = x.tx ++ l)

/-- The body link of a state gains messages. -/
abbrev Gains (s t : State) (l : List TxMsg) : Prop := s.links.body.Gains t.links.body l

theorem PortState.Gains.nil (x : PortState) : x.Gains x [] := ⟨rfl, fun _ _ => by simp⟩

theorem Gains.of_links {s t : State} (h : t.links.body = s.links.body) : Gains s t [] := by
  rw [Gains, h]; exact .nil _

/-- Messages queued after messages. -/
theorem PortState.Gains.trans {x y z : PortState} {l m : List TxMsg} (h1 : x.Gains y l) (h2 : y.Gains z m) :
    x.Gains z (l ++ m) := by
  refine ⟨h2.1.trans h1.1, fun hb hl => ?_⟩
  rw [List.length_append] at hl
  have e := h1.2 hb (by omega)
  rw [h2.2 (by rw [h1.1, hb]) (by rw [e, List.length_append]; omega), e, List.append_assoc]

/-- The body link of a state has gained the messages. -/
theorem Gains.tells {s t u : State} {l : List TxMsg} (hs : s.links.body.onBus = u.links.body.onBus)
    (ht : s.links.body.tx = u.links.body.tx) (h : Gains s t l) : Tells u t l := by
  intro hb hl; rw [← ht]; exact h.2 (hs.trans hb) (ht ▸ hl)

theorem State.popped_body (s : State) (h : Header) :
    (s.popped h).links.body.onBus = s.links.body.onBus ∧ (s.popped h).links.body.tx = s.links.body.tx := by
  have := State.popped_port s h .body
  simp only [State.port] at this
  rw [this]; split <;> exact ⟨rfl, rfl⟩

theorem Gains.tells_popped {s t : State} {h : Header} {l : List TxMsg} (hg : Gains (s.popped h) t l) : Tells s t l :=
  hg.tells (s.popped_body h).1 (s.popped_body h).2

/-- An indication (R188). -/
theorem State.indicate_gains (s : State) (i : Indication) : Gains s (s.indicate i) [.indication i] := by
  rw [Gains, State.indicate_eq]
  split
  · refine ⟨rfl, fun _ hl => ?_⟩
    simp only [List.length_singleton] at hl
    simp [State.setPort, queueUnasked, show s.links.body.tx.length < Config.txCapacity by omega]
  · exact ⟨rfl, fun hb => absurd hb ‹_›⟩

theorem State.alert_gains (s : State) (a : Alert) : Gains s (s.alert a) [alertTold a] := s.indicate_gains _

theorem State.sendPhase_gains (s : State) : Gains s s.sendPhase [.indication (.phase s.lcc.phaseMsg)] := s.indicate_gains _

/-- An answer of one frame to a request of the body link (R187). -/
theorem State.answer_gains (s : State) (h : Header) (k : Byte) (c : Code) (d : AnswerData) (hp : h.src.port = .body)
    (hn : partCount s.freeIx d ≤ 1) : Gains s (s.answer h k c d) [.answer h k c 1 1 d] := by
  have e : (s.answer h k c d).links.body = (s.answer h k c d).port h.src.port := by rw [hp]; rfl
  have e' : s.links.body = s.port h.src.port := by rw [hp]; rfl
  by_cases hb : (s.port h.src.port).onBus = true
  · rw [Gains, e, State.answer_port s h k c d (by rw [hp]; decide) hb, e']
    refine ⟨rfl, fun _ hl => ?_⟩
    simp only [List.length_singleton] at hl
    simp only [queueParts, if_pos hn, queueAnswer]
    rw [if_pos (by omega)]
  · rw [Gains, e', e]
    refine ⟨((State.answer_keeps s h k c d).2.1 _).2.2.1, fun hb' => absurd hb' hb⟩

/-- An answer on another port. -/
theorem State.answer_gains_other (s : State) (h : Header) (k : Byte) (c : Code) (d : AnswerData) (hp : h.src.port ≠ .body) :
    Gains s (s.answer h k c d) [] :=
  Gains.of_links ((State.answer_keeps s h k c d).1 .body fun e => hp e.symm)

/-- PAYLOAD goes to the chassis link (R179). -/
theorem State.emitPayload_gains (s : State) : Gains s s.emitPayload [] := by
  refine Gains.of_links ?_
  simp only [State.emitPayload, State.setInter_links, State.sendPayload_eq]
  split <;> rfl

/-- PAYLOAD leaves the speed state and the snapshot (R178, R179). -/
@[simp] theorem State.emitPayload_watch (s : State) :
    s.emitPayload.inter.speedOver = s.inter.speedOver ∧ s.emitPayload.inter.snapshot = s.inter.snapshot := by
  simp [State.emitPayload]

@[simp] theorem State.handOver_watch (s : State) (c : Compartment) (x : Comp) :
    (s.handOver c x).inter.speedOver = s.inter.speedOver ∧ (s.handOver c x).inter.snapshot = s.inter.snapshot := by
  simp only [State.handOver]; split <;> simp

/-- The staging of a LIFT record leaves the speed state and the snapshot. -/
@[simp] theorem State.stageLift_watch (s : State) (x : LiftCtx) :
    (s.stageLift x).inter.speedOver = s.inter.speedOver ∧ (s.stageLift x).inter.snapshot = s.inter.snapshot := by
  simp only [State.stageLift, State.contribute]; split <;> simp

theorem State.handOver_gains (s : State) (c : Compartment) (x : Comp) : Gains s (s.handOver c x) [] := by
  simp only [State.handOver]
  split
  · exact Gains.of_links rfl
  · exact (Gains.of_links rfl : Gains s (s.setComp c x) []).trans (State.emitPayload_gains _)

theorem State.contribute_gains (s : State) (c : Compartment) (n : Nat) : Gains s (s.contribute c n) [] := s.handOver_gains _ _

/-- A record staged is told (R159). -/
theorem State.stage_gains (s : State) (r : Record) : Gains s (s.stage r) [recordTold s.journal.nextSeq r.kind] := by
  have h : ∀ j : Journal, Gains s ((s.setJournal j).indicate (.record s.journal.nextSeq r.kind))
      [recordTold s.journal.nextSeq r.kind] := fun j =>
    PortState.Gains.trans (l := []) (Gains.of_links (s := s) (t := s.setJournal j) rfl) (State.indicate_gains _ _)
  exact h _

theorem State.stageUnload_gains (s : State) (c : Compartment) :
    Gains s (s.stageUnload c) [recordTold s.journal.nextSeq .unload] := by
  have h : ∀ (x : Comp) (r : Record), r.kind = .unload →
      Gains s ((s.handOver c x).stage r) [recordTold s.journal.nextSeq .unload] := fun x r hr => by
    have := PortState.Gains.trans (s.handOver_gains c x) (State.stage_gains (s.handOver c x) r)
    simpa [hr] using this
  exact h _ _ rfl

/-- A reservation granted, and JOURNAL_LOW where it is crossed (R157, R163). -/
theorem State.grant_gains (s : State) : Gains s s.grant s.lowTold := by
  unfold State.grant State.testLow State.lowTold
  by_cases hl : s.journal.low = true <;> by_cases hf : s.journal.free < s.journal.reserved + 1 + 256
  · rw [if_pos (by simp [hl]), if_neg (by simp [hl])]; exact Gains.of_links rfl
  · rw [if_pos (by simp [hl]), if_neg (by simp [hl])]; exact Gains.of_links rfl
  · rw [if_neg (by simp [hl, Journal.ample, Config.lowMargin]; omega), if_pos (by simp [hl, hf])]
    exact PortState.Gains.trans (l := []) (Gains.of_links rfl) (State.alert_gains _ _)
  · rw [if_pos (by simp [hl, Journal.ample, Config.lowMargin]; omega), if_neg (by simp [hf])]; exact Gains.of_links rfl

/-- The end of an ejection (R149, R150). -/
theorem State.settleEject_gains (s : State) (c : Compartment) (b : Bool) (g : Stage) (o : EjectOutcome) :
    Gains s (s.settleEject c b g o) (if b = true then [recordTold s.journal.nextSeq .unload] else []) := by
  cases b
  · exact Gains.of_links (by simp [State.settleEject])
  · exact (State.stageUnload_gains s c).trans (Gains.of_links rfl)

/-- A test of the engine or of the snapshot that raises no alarm. -/
theorem State.testSnapshot_gains (s : State) (h : s.staysQuiet) : Gains s s.testSnapshot [] := by
  simp only [State.testSnapshot]
  split
  · split
    · exact Gains.of_links rfl
    · rcases h with h | h | h <;> simp_all
  · exact Gains.of_links rfl

/-- The pin, the context and IDLE after a record (R14, R122, R10). -/
theorem State.tail_gains {s t : State} {l : List TxMsg} (o : Option TagId) (ht : Gains s t l) (hi : t.staysQuiet) :
    Gains s (((match o with
      | some tag => t.setHouses (t.houses.pin tag false)
      | none => t).dropTags.setLcc Lcc.reset).sendPhase.testEnable.testSnapshot) (l ++ [phaseTold .idle]) := by
  refine PortState.Gains.trans ht ?_
  have main : ∀ u : State, Gains t u [] → u.staysQuiet →
      Gains t (((u.dropTags.setLcc Lcc.reset).sendPhase).testEnable.testSnapshot) [phaseTold .idle] := by
    intro u hp hq
    have h1 : Gains t ((u.dropTags.setLcc Lcc.reset).sendPhase) [phaseTold .idle] :=
      PortState.Gains.trans (l := []) (PortState.Gains.trans (l := []) (m := []) hp
        (Gains.of_links (by simp))) (State.sendPhase_gains _)
    have h2 := State.testSnapshot_gains (u.dropTags.setLcc Lcc.reset).sendPhase.testEnable (by
      simpa [State.staysQuiet] using hq)
    have h3 : Gains (u.dropTags.setLcc Lcc.reset).sendPhase (u.dropTags.setLcc Lcc.reset).sendPhase.testEnable [] :=
      Gains.of_links (by simp)
    exact PortState.Gains.trans (m := []) h1 (PortState.Gains.trans (l := []) (m := []) h3 h2)
  cases o
  · exact main t (Gains.of_links rfl) hi
  · exact main _ (Gains.of_links rfl) hi

/-- What staging a lift tells: RECORD, then PHASE of IDLE (R10, R14, R159). -/
theorem State.stageCycle_gains (s : State) (x : LiftCtx) (hx : s.lcc.ctx = some x) (h : s.staysQuiet) :
    Gains s s.stageCycle [recordTold s.journal.nextSeq (match x.path with
      | .lift => .lift
      | .refused => .refused
      | .aborted => .aborted), phaseTold .idle] := by
  have hst : Gains s (match x.path with
      | .lift => s.stageLift x
      | .refused => s.stageRefused x
      | .aborted => s.stageAborted x) [recordTold s.journal.nextSeq (match x.path with
      | .lift => .lift
      | .refused => .refused
      | .aborted => .aborted)] := by
    cases x.path
    · have key : ∀ (t : State) (r : Record), t.links = s.links → t.journal = s.journal → r.kind = .lift →
          Gains s ((t.contribute x.target (contribution (netOf s.lock.working x))).stage r)
            [recordTold s.journal.nextSeq .lift] := by
        intro t r h1 h2 h3
        have h := ((Gains.of_links (by rw [h1]) : Gains s t []).trans (t.contribute_gains x.target
          (contribution (netOf s.lock.working x)))).trans (State.stage_gains _ r)
        simpa [h2, h3] using h
      simp only [State.stageLift]
      split
      · refine key _ _ ?_ ?_ ?_ <;> simp [State.liftRecord, State.blankRecord]
      · refine key _ _ ?_ ?_ ?_ <;> simp [State.liftRecord, State.blankRecord]
    · exact State.stage_gains _ _
    · exact State.stage_gains _ _
  have hi : (match x.path with
      | .lift => s.stageLift x
      | .refused => s.stageRefused x
      | .aborted => s.stageAborted x).staysQuiet := by
    cases x.path <;> simpa [State.staysQuiet] using h
  simp only [State.stageCycle, hx]
  exact State.tail_gains x.pin hst hi

/-! ## Halts, causes and faults -/

/-- A gain carried on over an operation that leaves the ports. -/
theorem Gains.after {s t u : State} {l : List TxMsg} (h : Gains s t l) (e : u.links = t.links) : Gains s u l := by
  rw [Gains, e]; exact h

/-- A gain over an operation that left the ports before it. -/
theorem Gains.before {s t u : State} {l : List TxMsg} (h : Gains t u l) (e : t.links = s.links) : Gains s u l := by
  rw [Gains, ← e]; exact h

theorem State.enterStuck_gains (s : State) : Gains s s.enterStuck [phaseTold .stuck] := by
  simp only [State.enterStuck]
  exact (State.sendPhase_gains _).before (by simp)

/-- PHASE sent from a state with the ports of `s`, its message given. -/
theorem Gains.phase {s t : State} {m : PhaseMsg} (e : t.links = s.links) (h : t.lcc.phaseMsg = m) :
    Gains s t.sendPhase [.indication (.phase m)] := by
  rw [← h]; exact t.sendPhase_gains.before e

theorem State.halt_gains (s : State) (p : ProfilePhase) (c : Causes) (f : Six (Option FaultKind)) :
    Gains s (s.halt p c f) [haltTold (some p) c f] :=
  Gains.phase (by simp) (by simp [Lcc.phaseMsg])

/-- An interlock cause that arrives (R18, R19). -/
theorem State.addCause_gains (s : State) (c : InterlockCause) :
    Gains s (s.addCause c) (match s.lcc.phase with
      | .run p => [haltTold (some p) (Causes.none.put c true) (Six.all none)]
      | .halted => if s.lcc.causes.has c then []
          else [haltTold s.lcc.haltedPhase (s.lcc.causes.put c true) s.lcc.faults]
      | .idle | .stuck => []) := by
  simp only [State.addCause]
  cases hp : s.lcc.phase
  case run p => exact s.halt_gains _ _ _
  case halted =>
    dsimp only
    split
    · exact Gains.of_links rfl
    · exact Gains.phase rfl (by simp [Lcc.phaseMsg])
  all_goals exact Gains.of_links rfl

/-- An interlock cause that goes away (R19). -/
theorem State.removeCause_gains (s : State) (c : InterlockCause) :
    Gains s (s.removeCause c) (if s.lcc.phase = .halted ∧ s.lcc.causes.has c = true then
      [haltTold s.lcc.haltedPhase (s.lcc.causes.put c false) s.lcc.faults] else []) := by
  simp only [State.removeCause]
  split
  · rename_i h
    exact Gains.phase rfl (by simp [Lcc.phaseMsg, h.1])
  · exact Gains.of_links rfl

/-- A channel of the cycle has entered FAULT (R18, R19, R22). -/
theorem State.cycleFault_gains (s : State) (c : Channel) (k : FaultKind) :
    Gains s (s.cycleFault c k) (match s.lcc.phase with
      | .run .recover => [phaseTold .stuck]
      | .run p => [haltTold (some p) ⟨false, false, false, true⟩ ((Six.all none).put c (some k))]
      | .halted => if s.lcc.haltedPhase = some .recover then [phaseTold .stuck]
          else [haltTold s.lcc.haltedPhase { s.lcc.causes with fault := true } (s.lcc.faults.put c (some k))]
      | .idle | .stuck => []) := by
  simp only [State.cycleFault]
  cases hp : s.lcc.phase
  case run p => cases p <;> first | exact s.enterStuck_gains | exact s.halt_gains _ _ _
  case halted =>
    dsimp only
    split
    · exact s.enterStuck_gains
    · exact Gains.phase rfl (by simp [Lcc.phaseMsg])
  all_goals exact Gains.of_links rfl

/-- A profile phase entered sends PHASE (R10). -/
theorem State.startPhase_gains (s : State) (x : LiftCtx) (p : ProfilePhase) :
    Gains s (s.startPhase x p) [phaseTold (.run p)] := by
  simp only [State.startPhase]
  refine Gains.after (t := _) ?_ ((State.startChans_frame _ _ _).2.2.2.1)
  exact Gains.phase (by simp) (by simp [Lcc.phaseMsg])

end Sys2Proof.Machine
end

