-- ==== Sys2Proof/Tests/Slice0.lean ====
section
/-! SUPPORT. Tests of the model on the manual's worked cases, the smoke tests of the well-formedness checks, and a witness
for the hypotheses of each statement. -/

set_option maxRecDepth 20000

namespace Sys2Proof.Tests

open Sys2Proof.Machine

/-! ## Helpers -/

/-- The next state of a command; a command that does not run leaves the reset state. -/
def after (i : Instr) (s : State) : State :=
  match exec i s with
  | .next t => t
  | .fault _ | .refused _ => State.reset

/-- A header of a master. -/
def hdr (n : Node) : Header := ⟨n, 0#3, 7#8⟩

/-- The state with a request alone in its port's queue. -/
def ask (n : Node) (r : Request) (s : State) : State := s.setPort n.port { s.port n.port with rx := [⟨hdr n, r⟩] }

/-- An element word: its kind and its fields (R195). -/
def word (kind fields : Nat) : Word32 := BitVec.ofNat 32 (kind * 2 ^ 28 + fields)

/-- The words that the tests play: an END at 50, a SET of 250 at 100 and an END after it, a pack and an ejection entry, a
set entry of REACH in every phase of set 0. -/
def words : Words :=
  [(50, word 8 0), (100, word 1 250), (101, word 8 0), (16384, 100#32), (16392, 100#32), (16396, 100#32),
   (16402, 100#32), (16420, 100#32), (16426, 100#32), (17154, 100#32), (17156, 100#32)]

/-- The store or shadow with words. -/
def copied (m : Words) : Shadow := { state := .ready, content := some (copyOf m), check := some 5#32 }

/-- A part that has started up, its truck at rest with the permit held, its shadow loaded with `words`. -/
def ready : State :=
  { State.reset with
    settings := { SettingsBlock.reset with reading := false }
    shadow := copied words
    store := { words := words, check := some 5#32, state := .valid, verifying := false, job := none }
    lock := { Lock.reset with reading := false, cal := .valid, lockedCheck := some 5#32 }
    weigh := { Weigh.reset with enabled := true, reading := ⟨0, 0, true⟩ }
    journal := { Journal.reset with starting := false, free := 4096 }
    inter := { Interlocks.reset with
      permitHeld := true, permitTimer := some 250, present := true, silenceTimer := some 1000,
      report := ⟨some 0, some 900, some true, some 30⟩, reported := true, speedOver := false, pto := true } }

/-- A channel that plays from element 100. -/
def playing (o : Origin) : Chan := Chan.started o 100 255

/-- The lift's context in the tests. -/
def ctx : LiftCtx := { LiftCtx.accepted .refuse .a 0 255 with lastPhase := .retract }

/-- A lift in a phase, REACH at the element `i` of the shadow. -/
def lifting (p : ProfilePhase) (i : Nat) : State :=
  { ready with
    lcc := { Lcc.reset with phase := .run p, started := [.reach], ctx := some ctx }
    chans := (Six.all Chan.reset).put .reach { playing .cycle with pointer := i }
    journal := { ready.journal with reserved := 1 } }

/-- A lift in APPROACH whose REACH stands at an element `w` with `v` after it, its progress `q`. -/
def at2 (w v : Word32) (q : Progress) : State :=
  { lifting .approach 100 with
    shadow := copied [(100, w), (101, v)]
    chans := (Six.all Chan.reset).put .reach { playing .cycle with progress := q } }

/-- The sensors in the tests. -/
def still : Sensors := Pins.reset.sensors

/-! ## The manual's worked values -/

/-- R193: the check values of the two check words. -/
theorem test_crc32 : crc32 ([49, 50, 51, 52, 53, 54, 55, 56, 57].map (BitVec.ofNat 8)) = 0xCBF43926#32 := by decide
theorem test_crc16 : crc16 ([49, 50, 51, 52, 53, 54, 55, 56, 57].map (BitVec.ofNat 8)) = 0x29B1#16 := by decide

/-- R58: the element checks of 12345678 (hex), all zero and all ones. -/
theorem test_element_check :
    elementCheck 0x12345678#32 = 7#4 ∧ elementCheck 0#32 = 15#4 ∧ elementCheck 0xFFFFFFFF#32 = 15#4 := by decide

/-- R34: the RAMP from 500 to −300 in three steps. -/
theorem test_ramp : [1, 2, 3].map (fun k => rampAt 500 (-300) k 3) = [234, -33, -300] := by decide

/-- R35: the DELTA4 from 950 at scale code 2. -/
theorem test_delta4 :
    deltaStep 950 7 2 = 1000 ∧ deltaStep 1000 7 2 = 1000 ∧ deltaStep 1000 (-8) 2 = 872 ∧ deltaStep 872 0 2 = 872 := by
  decide

/-- R48: the envelope 200. -/
theorem test_envelope :
    [900, 150, -300, 800].map (fun u => { playing .cycle with u := u, envelope := 200 }.driveCommand)
      = [705, 117, -235, 627] := by decide

/-- The ratings and commands of the worked case of the Valve Drive. -/
def caseQ : Channel → Nat
  | .reach => 400
  | .lift => 500
  | .grip => 100
  | .packA => 600
  | .divert | .packB => 0
def caseG : Channel → Int
  | .reach => 600
  | .lift => 900
  | .grip => -300
  | .packA => 800
  | .divert | .packB => 0

/-- R66, R68: the worked case of the Valve Drive: budget, sum, scale and shared commands. -/
theorem test_sharing :
    let r := shareFlow (900 * 60 / 100) caseQ caseG
    r.budget = 510 ∧ r.total = 1170 ∧ r.scale = some 446 ∧ r.chans.reach.shared = 261 ∧ r.chans.lift.shared = 391
      ∧ r.chans.packA.shared = 348 ∧ r.chans.grip.shared = -300 := by decide

/-- R69, R65: the duties, delays and on-times of the worked case. -/
theorem test_duties :
    dutyOf (BitVec.ofNat 32 (920 * 65536 + 180)) 261 = 373 ∧ dutyOf (BitVec.ofNat 32 (950 * 65536 + 200)) 391 = 493
      ∧ dutyOf (BitVec.ofNat 32 (900 * 65536 + 150)) 300 = 375 ∧ dutyOf (BitVec.ofNat 32 (1000 * 65536 + 220)) 348 = 491
      ∧ coilDelay (coilPosition .grip .b) 5000 = 4166 ∧ coilDelay (coilPosition .packA .a) 4000 = 1333
      ∧ onTime 373 5000 = 1865 ∧ onTime 491 4000 = 1964 := by decide

/-- R70: the OPEN thresholds. -/
theorem test_open_threshold : openThreshold 100 = 30 ∧ openThreshold 400 = 120 := by decide

/-- R77, R78: the worked case of Weighing. -/
theorem test_weighing :
    cellMass 260000#24 120000 9830 = 20999 ∧ cellMass 251500#24 98000 8900 = 20846
      ∧ tiltFactor 300 = 65626 ∧ tiltFactor (-100) = 65546 ∧ tiltOf ⟨300, 100, true⟩ = 65636
      ∧ correctTilt 41845 ⟨300, 100, true⟩ = 41909 := by decide

/-- R89: R(x) of the manual's table. -/
theorem test_rounding :
    [(29435, 200), (29500, 200), (41890, 200), (-300, 200), (-50, 200), (12750, 500)].map
      (fun e : Int × Int => roundTo e.2 e.1) = [29400, 29600, 41800, -400, 0, 13000] := by decide

/-- R83: the sixteen blocks of the worked case are settled, and their capture is 41,890 g. -/
theorem test_capture :
    let l := [41930, 41810, 41880, 41905, 41871, 41899, 41912, 41884, 41893, 41901, 41876, 41897, 41890, 41903, 41888,
      41904].map fun v => (⟨v, 0, 0⟩ : Block)
    settled l Params.factory = true ∧ (captureOf l ⟨300, 100, true⟩ .legal).value = 41890 := by decide

/-- R115: CELL_BALANCE of the worked case, and of an unloaded pair. -/
theorem test_balance : balanceOf 20999 20846 = 0 ∧ balanceOf 80 20 = 60 ∧ balanceOf 5 (-5) = 100 := by decide

/-- R113: the lifts of the worked sequence on zero drift: Zt, count, crossed and zero point after each. -/
theorem test_zero_health :
    let step := fun (x : Int × ZeroHealth) (r : Int) =>
      let o := zeroOutcome Params.factory x.1 r
      let zt := if o = .inBand then x.1 + r else x.1
      (zt, x.2.take o zt r)
    [60, 140, 150, 90, 160, 155, 170, 20].foldl
        (fun (acc : List (Int × Nat × Bool × Option Int) × (Int × ZeroHealth)) r =>
          let y := step acc.2 r
          (acc.1 ++ [(y.1, y.2.count, y.2.crossed, y.2.point)], y)) ([], (40, ZeroHealth.reset))
      |>.1 = [(100, 0, false, some 100), (100, 1, false, some 240), (100, 2, false, some 250), (190, 0, false, some 190),
        (190, 1, false, some 350), (190, 2, false, some 345), (190, 3, true, some 360), (210, 0, true, some 210)] := by
  decide

/-- R120, R121: the crowded kerb: the list, the overflow and the result; and a thirteenth frame. -/
theorem test_tags :
    let seen := [1, 1, 2, 1, 3, 2, 4, 5, 1, 2, 2, 5].foldl (fun (x : Houses) n => x.see (BitVec.ofNat 64 n) 9)
      { Houses.reset with windowOpen := true }
    seen.tagList.map (fun e => (e.tag.toNat, e.count)) = [(1, 4), (2, 4), (3, 1), (4, 1)] ∧ seen.overflow = 2
      ∧ tagResult seen.tagList = .ambiguous ∧ tagResult (seen.see 1#64 9).tagList = .winner 1#64 := by decide

/-- A household of the tests. -/
def house (ta : Tariff) (a : Option Nat) : Entry :=
  { tag := 9#64, account := 77, status := .active, takesRefuse := true, takesRecycle := false, slot := 0, tariff := ta,
    allowance := a, excess := .refuse, liftLimit := some 5, liftsToday := 0, lastTime := none, pinned := false }

/-- R132: the manual's table of billing. -/
theorem test_billing :
    billOf (house .byWeight (some 20000)) (some 29400) true = ⟨20000, 9400, some 0⟩
      ∧ billOf (house .byWeight (some 20000)) (some 29400) false = ⟨0, 0, some 20000⟩
      ∧ billOf (house .byWeight none) (some 12600) true = ⟨12600, 0, none⟩
      ∧ billOf (house .byWeight (some 0)) (some 8000) true = ⟨0, 8000, some 0⟩
      ∧ billOf (house .byLift none) (some 29400) true = ⟨0, 0, none⟩ := by decide

/-- R133: REPEAT at 90 s and not at 6,310 s; a time before the last lift is not. -/
theorem test_repeat :
    isRepeat { house .byLift none with lastTime := some 30000 } 30090 120 = true
      ∧ isRepeat { house .byLift none with lastTime := some 30090 } 36400 120 = false
      ∧ isRepeat { house .byLift none with lastTime := some 30090 } 30000 120 = false := by decide

/-- R137: the bounds of the statuses at the default limit of A. -/
theorem test_status :
    statusOf 8099999 0 9000 2 = .opened ∧ statusOf 8100000 0 9000 2 = .nearFull ∧ statusOf 9000000 0 9000 2 = .full
      ∧ statusOf 0 1 9000 2 = .nearFull ∧ statusOf 0 2 9000 2 = .full ∧ statusOf 0 0 0 2 = .full := by decide

/-- R33: a SET is performed at one expiry, and the END after it at the next. -/
theorem test_set_then_end :
    let s := after (.stepExpiry .reach still) (lifting .raise 100)
    (s.chans.reach.u, s.chans.reach.pointer, s.lcc.phase) = (250, 101, .run .raise) := by decide

/-- R195: words of the elements, written out from their bits. -/
theorem test_element_words :
    decodeElement 0x100007FF#32 = .set (-1) ∧ decodeElement 0x200306D4#32 = .ramp (-300) 3
      ∧ decodeElement 0x30020877#32 = .delta4 7 7 (-8) 0 2 ∧ decodeElement 0x40000FFF#32 = .hold 4095
      ∧ decodeElement 0x50000028#32 = .step 40 ∧ decodeElement 0x60000008#32 = .mark 8
      ∧ decodeElement 0x7000321F#32 = .await 31 50 ∧ decodeElement 0x80000000#32 = .fin
      ∧ decodeElement 0x90000000#32 = .bad ∧ decodeElement 0#32 = .bad := by decide

/-- R183, R196, R197: a PERMIT frame of the console: priority 1, kind 2, source 33, destination 16, its tag alone. -/
theorem test_permit_frame :
    canRequest .body (canId 1#3 2#8 33 16) [7#8] = some (⟨.console, 1#3, 7#8⟩, .permit (some ())) := by decide

/-- A frame with no data bytes fails test 3, for a request without payload too (R186, R197). -/
theorem test_tagless_frame : canRequest .body (canId 1#3 2#8 33 16) [] = some (⟨.console, 1#3, 0#8⟩, .permit none) := by
  decide

/-- R103, R104: the fifth wrong code freezes the lock. -/
theorem test_fifth_wrong_code :
    let f : OpenLockFields := ⟨0#8, 1#256⟩
    (after (.openLock (hdr .calTool) (some f) true) (ask .calTool (.openLock (some f))
      { ready with lock := { ready.lock with failed := 4 } })).lock.state = .frozen := by decide

/-- R180: the counter stops at its greatest number. -/
theorem test_second_tick_stops :
    (after .secondTick { ready with inter := { ready.inter with seconds := 4294967294 } }).inter.seconds = 4294967294 := by
  decide

/-! ## Well-formedness: a term that each check refuses -/

theorem test_wf_can_length : (Instr.frameArrival (.can .body 0 (List.replicate 9 0#8))).wf = false := by decide
theorem test_wf_line_length : (Instr.frameArrival (.line (List.replicate 255 0#8))).wf = false := by decide
theorem test_wf_unknown_kind : (Instr.unknownKind (hdr .console) 1#8).wf = false := by decide
theorem test_wf_service_priority : (Instr.attrRead ⟨.calTool, 1#3, 0#8⟩ (some ())).wf = false := by decide
theorem test_wf_slot_list : (Instr.slotMap (hdr .console) (some (List.replicate 32 (0#8, 0#8)))).wf = false := by decide
theorem test_wf_setting_list :
    (Instr.settingPut (hdr .console) (some (List.replicate 21 (0#8, 0#16)))).wf = false := by decide
theorem test_wf_trial_list : (Instr.trialSet (hdr .calTool) (some (List.replicate 50 (0#8, 0#32)))).wf = false := by decide
theorem test_wf_words :
    (Instr.profileWrite (hdr .calTool) (some ⟨0#8, 0#16, List.replicate 62 0#32⟩)).wf = false := by decide
theorem test_wf_sensors : (Instr.stepExpiry .reach { still with armAngle := 18001 }).wf = false := by decide
theorem test_wf_inclinometer : (Instr.inclinometerReading 18001 0).wf = false := by decide
theorem test_wf_pressure : (Instr.pressureReading .a 4001).wf = false := by decide

/-! ## Witnesses: states and operands that meet the hypotheses of the statements, clause by clause -/

theorem witness_step : ({ ready with pending := [.secondTick] }).pending = .secondTick :: [] ∧ State.reset.pending = [] := by
  decide
theorem witness_not_reset : ∀ g p, Instr.secondTick ≠ .fullReset g p := by
  intro g p h; cases h

/-- A step that completes a store write. -/
theorem witness_memory :
    let s := { ready with
      pending := [.profileWriteDone], store := { ready.store with job := some (.write 60 [1#32, 2#32]) } }
    ∃ t, MemoryCanonical s ∧ step s = .next t :=
  ⟨_, ⟨by decide, by decide, fun c h => by cases h; decide⟩, rfl⟩
/-- A ZERO window at its last block, Zt at 4 % of Max less 1. -/
def zeroing : State :=
  { ready with
    pending := [.samplePair 1#24 0#24]
    weigh := { ready.weigh with
      zt := 11999, acc := ⟨7, 0, 0, 0⟩, settle := List.replicate 15 ⟨0, 0, 0⟩, window := some (Window.fresh .zero) } }
theorem witness_zero : ∃ t, ZeroBounded zeroing ∧ step zeroing = .next t :=
  ⟨_, ⟨by decide, by decide, by decide, nofun, by decide⟩, rfl⟩
/-- A household put into a table with one. -/
theorem witness_table :
    let f : EntryFields := ⟨3#64, 1#32, 0#8, 1#8, 0#8, 0#8, 5#24, 0#8, 5#8⟩
    let s := { ask .routeTerminal (.entryPut (some f)) { ready with houses := { ready.houses with
      table := [house .byLift none] } } with pending := [.entryPut (hdr .routeTerminal) (some f)] }
    ∃ t, TableOrdered s ∧ step s = .next t :=
  ⟨_, ⟨by decide, by decide⟩, rfl⟩
/-- A lift in RETRACT with its household pinned. -/
def pinnedLift : State :=
  { lifting .retract 50 with
    lcc := { Lcc.reset with phase := .run .retract, started := [.reach], ctx := some { ctx with
      pin := some 9#64, household := some ⟨9#64, 77⟩, gross := some ⟨41890, none, .legal⟩,
      tare := some ⟨12455, .legal⟩ } }
    houses := { ready.houses with loaded := true, table := [{ house .byWeight (some 20000) with pinned := true }] } }
theorem witness_pins :
    let s := { pinnedLift with pending := [.stepExpiry .reach still] }
    ∃ t, PinsHeld s ∧ step s = .next t :=
  ⟨_, ⟨⟨by decide, by decide⟩, by decide, by decide, by decide⟩, rfl⟩
/-- A channel that drives its A coil when PTO goes off. -/
theorem witness_coils :
    let s := { lifting .raise 100 with
      pending := [.ptoChange false]
      drive := { Drive.reset with coils := (Six.all ⟨Coil.reset, Coil.reset⟩).put .reach ⟨⟨300, 300, true⟩, Coil.reset⟩ } }
    ∃ t, CoilsSafe s ∧ step s = .next t :=
  ⟨_, fun c => by cases c <;> decide, rfl⟩
/-- A full receive queue. -/
theorem witness_queues :
    let s := { ready.setPort .body { PortState.reset with
        rx := List.replicate 8 ⟨hdr .console, .permit (some ())⟩ } with
      pending := [.frameArrival (.can .body (canId 1#3 2#8 33 16) [7#8])] }
    ∃ t, QueuesBounded s ∧ step s = .next t :=
  ⟨_, ⟨fun p => by cases p <;> decide, by decide, by decide, by decide, by decide⟩, rfl⟩
/-- A channel in motion, and a request to load the shadow. -/
theorem witness_shadow :
    let s := ask .calTool (.shadowLoad (some ())) (lifting .raise 100)
    ∃ t, ShadowGuards s ∧ exec (.shadowLoad (hdr .calTool) (some ())) s = .next t
      ∧ ∃ c, (s.chans.get c).state ≠ .idle :=
  ⟨_, ⟨fun c => by cases c <;> decide, by decide⟩, rfl, .reach, by decide⟩
/-- A commit write at its completion. -/
def committing : State :=
  { ready with
    lock := { ready.lock with state := .opened, write := some (.commit Params.factory 5#32 512#32) }
    journal := { ready.journal with reserved := 1 } }
theorem witness_cec : ∃ t, WritesOpen committing ∧ exec .commitWriteDone committing = .next t
    ∧ committing.lock.write = some (.commit Params.factory 5#32 512#32) ∧ committing.lock.reading = false
    ∧ committing.lcc.phase = .idle :=
  ⟨_, fun _ => rfl, rfl, rfl, rfl, rfl⟩

/-! ### Encodings, reset and start-up -/

theorem witness_requests :
    (Request.slotMap (some [(0#8, 15#8)])).wf .routeTerminal = true
      ∧ (Request.slotMap (some [(0#8, 15#8)])).payload = some [1#8, 0#8, 15#8] ∧ (Request.other 99#8).wf .console = true
      ∧ (Request.other 99#8).payload = some [] := by decide
/-- A record with the greatest sequence number. -/
def record : Record := { State.reset.blankRecord .unload with seq := 4294967294, totalB := some 4294967295 }
theorem witness_stored :
    (1 ≤ record.seq ∧ record.seq ≤ maxCount32 ∧ record.totalA < 2 ^ 32 ∧ ∀ n ∈ record.totalB, n < 2 ^ 32)
      ∧ Params.factory.inRange = true
      ∧ ∀ k ∈ allSettings, k.range.1 ≤ Settings.defaults.value k ∧ Settings.defaults.value k ≤ k.range.2 := by decide
theorem witness_full_reset : State.reset.store.job = none ∧ State.reset.lock.write = none
    ∧ State.reset.journal.writing = none ∧ State.reset.journal.erase = none := by decide
/-- The settings block with cells still to be read. -/
def cells (a b : SettingsCell) : State := { State.reset with settings := { SettingsBlock.reset with cells := ⟨a, b⟩ } }
theorem witness_settings_read :
    (cells ⟨[], 1, true⟩ ⟨[], 1, true⟩).settings.reading = true
      ∧ ((cells ⟨[], 1, true⟩ ⟨[], 1, true⟩).settings.cells.side .a).checkGood = true
      ∧ (cells ⟨[], 1, true⟩ ⟨[], 1, true⟩).settings.cells.b.generation
          = (cells ⟨[], 1, true⟩ ⟨[], 1, true⟩).settings.cells.a.generation
      ∧ ((cells ⟨[], 1, true⟩ ⟨[], 2, true⟩).settings.cells.side Side.b.other).generation
          < ((cells ⟨[], 1, true⟩ ⟨[], 2, true⟩).settings.cells.side .b).generation
      ∧ ((cells ⟨[], 9, false⟩ ⟨[], 2, true⟩).settings.cells.side Side.b.other).checkGood = false
      ∧ State.reset.settings.cells.a.checkGood = false ∧ State.reset.settings.cells.b.checkGood = false := by decide
/-- The part after the settings have been read, everything else still to come. -/
def settled : State := { State.reset with settings := { SettingsBlock.reset with reading := false } }
theorem witness_metrology_read :
    let good := { settled with lock := { Lock.reset with
      block := storedBlock Params.factory none .valid 7, codeRecord := ⟨none, .high, true⟩ } }
    good.lock.reading = true ∧ good.settings.reading = false ∧ good.lock.block.good = true
      ∧ good.lock.codeRecord.checkGood = true ∧ settled.lock.reading = true ∧ settled.lock.block.good = false
      ∧ settled.lock.codeRecord.checkGood = false := by decide
theorem witness_store_verify :
    let good := { settled with store := { Store.reset with check := some (storeCrc []) } }
    (good.store.verifying = true ∧ good.settings.reading = false ∧ good.store.check = some (storeCrc good.store.words))
      ∧ settled.store.verifying = true ∧ settled.store.check ≠ some (storeCrc settled.store.words) :=
  ⟨⟨rfl, rfl, rfl⟩, rfl, nofun⟩
/-- A VALID record of sequence 1 in the first slot. -/
def firstSlot : SlotBits := { State.reset.blankRecord .unload with seq := 1 }.bits
theorem witness_scan :
    (settled.journal.starting = true ∧ settled.settings.reading = false ∧ settled.comps.a.tips = 0
      ∧ settled.comps.b.tips = 0 ∧ 1 ≤ settled.settings.inForce.packAfter)
      ∧ greatestOf (settled.journal.scanned.map fun e => slotSeq e.2) = none
      ∧ greatestOf ([(0, firstSlot)].map fun e => slotSeq e.2) = some 1 := by decide

/-! ### The Link Ports -/

theorem witness_frames :
    canRequest .body (canId 1#3 2#8 33 17) [7#8] = none
      ∧ canRequest .body (canId 1#3 2#8 33 16) [7#8] = some (⟨.console, 1#3, 7#8⟩, .permit (some ()))
      ∧ (ready.port .body).onBus = true ∧ (ready.port .body).rx.length < 8
      ∧ Request.answered (.permit (some ())) = true ∧ (ready.port .body).tx.length < 16
      ∧ 8 ≤ (List.replicate 8 (RxFrame.mk (hdr .console) (.permit (some ())))).length
      ∧ ((ready.setPort .body { PortState.reset with onBus := false }).port .body).onBus = false := by decide
/-- A service-line ATTR_READ: length 2, kind 40, tag 7, and its check. -/
theorem witness_line :
    let check := crc16 [2#8, 40#8, 7#8]
    let body := [40#8, 7#8, check.extractLsb' 8 8, check.extractLsb' 0 8]
    ready.partialOf .service = [] ∧ ready.sending = false ∧ lengthOk .service 2 = true ∧ body.length = 4
      ∧ lineCheck (0x5A#8 :: 2#8 :: body) = true := by decide
theorem witness_ports :
    let s := ready.setPort .service { PortState.reset with tx := [.indication (.alert .chassisSilent)] }
    (s.port .service).tx = .indication (.alert .chassisSilent) :: [] ∧ (s.port .service).onBus = true := by decide
theorem witness_failed_tests :
    requestOf (.lift (hdr .chassis) none) = some (hdr .chassis, .lift none)
      ∧ AtHead (ask .console (.lift none) ready) (hdr .console) (.lift none) ∧ badLength (.lift none) = true
      ∧ AtHead (ask .console (.timeSet (some 0#32)) ready) (hdr .console) (.timeSet (some 0#32))
      ∧ (Request.timeSet (some 0#32)).allowed .console = false
      ∧ AtHead (ask .console (.other 99#8) ready) (hdr .console) (.other 99#8)
      ∧ (Request.other 99#8).allowed .console = false := by decide
theorem witness_order :
    (ready.port .body).rx = [] ∧ (ready.port .body).onBus = true
      ∧ ((ask .console (.permit none) ready).port .body).rx = ⟨hdr .console, .permit none⟩ :: []
      ∧ RxFrame.mk (hdr .console) (.permit none) ≠ ⟨hdr .console, .permit (some ())⟩
      ∧ requestOf (.permit (hdr .console) (some ())) = some (hdr .console, .permit (some ())) := by decide

/-! ### The lift cycle -/

/-- LIFT of REFUSE at slot 0 at the creep scale 63. -/
def lift : Request := .lift (some ⟨0#8, 0#8, 63#8⟩)
theorem witness_lift :
    Taken (ask .console lift ready) (hdr .console) lift ∧ liftOf ⟨0#8, 0#8, 63#8⟩ = some (.refuse, 0, 64, true)
      ∧ liftOf ⟨2#8, 0#8, 255#8⟩ = none ∧ ready.journal.starting = false
      ∧ State.reset.journal.starting = true := by decide
theorem witness_lift_passes : ∀ r, (ask .console lift ready).liftPasses .refuse 0 r := by
  intro r
  cases r <;> simp only [State.liftPasses] <;> first | decide | exact ⟨.reach, by decide, by decide, by decide⟩
theorem witness_lift_refused_first : ¬ (lifting .raise 100).liftPasses .refuse 0 .cycleBusy := by
  simp only [State.liftPasses]; decide
theorem witness_lift_refused_last :
    (¬ (ask .console lift ready).liftPasses .refuse 1 .slotEmpty)
      ∧ ∀ q : LiftRefusal, q.number < LiftRefusal.slotEmpty.number → (ask .console lift ready).liftPasses .refuse 1 q := by
  constructor
  · simp only [State.liftPasses]
    rintro ⟨k, -, -, h⟩
    cases k <;> revert h <;> decide
  · intro q
    cases q <;> simp only [State.liftPasses] <;> first | decide | exact fun h => absurd h (by decide)
theorem witness_lift_accepted :
    (ask .console lift ready).armFree ∧ ∀ k, k.isArm = true → ((ask .console lift ready).chans.get k).state = .idle :=
  ⟨fun k => by cases k <;> decide, fun k => by cases k <;> decide⟩
theorem witness_permit :
    Taken (ask .console (.permit (some ())) ready) (hdr .console) (.permit (some ())) ∧ ready.inter.permitHeld = true
      ∧ State.reset.inter.permitHeld = false := by decide
theorem witness_permit_expiry :
    ready.inter.permitTimer.isSome = true ∧ (lifting .raise 100).lcc.phase = .run .raise ∧ ready.lcc.phase = .idle
      ∧ (lifting .raise 100).weigh.hold = false := by decide
/-- A lift halted in a phase, its channels paused. -/
def haltedIn (p : ProfilePhase) (c : Causes) : State :=
  { lifting p 100 with
    lcc := { phase := .halted, haltedPhase := some p, causes := c, faults := Six.all none, started := [.reach],
             ctx := some ctx }
    chans := (Six.all Chan.reset).put .reach (playing .cycle).pause }
theorem witness_resume :
    Taken (ask .console (.resume (some ())) (haltedIn .raise Causes.none)) (hdr .console) (.resume (some ()))
      ∧ (haltedIn .raise Causes.none).lcc.phase = .halted ∧ (haltedIn .raise Causes.none).lcc.haltedPhase = some .raise
      ∧ (haltedIn .raise Causes.none).lcc.causes.permit = false ∧ ready.lcc.phase ≠ .halted
      ∧ (haltedIn .raise ⟨true, false, false, false⟩).lcc.causes.permit = true
      ∧ (haltedIn .raise ⟨false, false, false, true⟩).lcc.causes.fault = true := by decide
theorem witness_resume_timeout :
    ∀ c k, (haltedIn .raise ⟨false, false, false, true⟩).lcc.faults.get c = some k → k = .awaitTimeout := by
  intro c k h; cases c <;> cases h
theorem witness_abort :
    Taken (ask .console (.abort (some ())) (lifting .raise 100)) (hdr .console) (.abort (some ()))
      ∧ ready.lcc.phase = .idle ∧ (lifting .recover 100).lcc.phase = .run .recover
      ∧ (haltedIn .raise ⟨true, false, false, false⟩).lcc.causes.permit = true
      ∧ (lifting .raise 100).lcc.causes = Causes.none ∧ (lifting .raise 100).lcc.ctx = some ctx
      ∧ ((lifting .raise 100).setEntry ((lifting .raise 100).slotMap.get ctx.activeSlot) .recover .reach).isSome = true
      ∧ (lifting .raise 100).hasChannel .reach = true := by decide
theorem witness_abort_arm :
    (lifting .raise 100).armFree ∧ ∀ c, c.isArm = true → c ∉ (lifting .raise 100).lcc.started →
      ((lifting .raise 100).chans.get c).state = .idle :=
  ⟨fun k => by cases k <;> decide, fun k => by cases k <;> decide⟩
theorem witness_cycle_clear :
    let s := { ready with lcc := { Lcc.reset with phase := .stuck, ctx := some ctx } }
    Taken (ask .console (.cycleClear (some ())) s) (hdr .console) (.cycleClear (some ())) ∧ s.lcc.phase = .stuck
      ∧ s.lcc.ctx = some ctx ∧ ready.lcc.phase ≠ .stuck := by decide

/-! ### Packing and unloading -/

theorem witness_pack :
    Taken (ask .console (.pack (some 0#8)) ready) (hdr .console) (.pack (some 0#8)) ∧ ready.compNamed 0#8 = some .a
      ∧ ready.compNamed 2#8 = none ∧ ready.shadow.state = .ready ∧ (ready.comps.comp .a).stage = .rest
      ∧ ready.packEntry .a = some 100 ∧ ready.packEntry .b = none ∧ (ready.chans.get .packA).state = .idle
      ∧ ready.drive.latches.get .packA = none ∧ ready.inter.pto = true ∧ State.reset.shadow.state ≠ .ready
      ∧ { Comp.reset with stage := .sweep }.stage ≠ .rest ∧ { Comp.reset with stage := .sweep }.stage ≠ .fault := by decide
theorem witness_unload :
    Taken (ask .console (.unload (some 0#8)) ready) (hdr .console) (.unload (some 0#8)) ∧ ready.lcc.phase = .idle
      ∧ ready.ejectEntry .a = some 100 ∧ ready.journal.canGrant = true ∧ ready.inter.report.speed = some 0
      ∧ ready.inter.report.brakeOn = some true ∧ ready.inter.permitHeld = true := by decide
theorem witness_unload_refused :
    let moving := { ready with inter := { ready.inter with report := ⟨some 1, none, none, some 30⟩ } }
    moving.inter.report.speed ≠ some 0 ∧ { ready.inter.report with brakeOn := none }.brakeOn ≠ some true := by decide
/-- Compartment A in EJECTING. -/
def ejecting (done : Bool) : State :=
  { ready with
    comps := ⟨{ Comp.reset with stage := .ejecting, ejectDone := some done, total := 29400 }, Comp.reset⟩
    chans := (Six.all Chan.reset).put .packA (playing .eject)
    journal := { ready.journal with reserved := 1 } }
theorem witness_abort_unload :
    Taken (ask .console (.abortUnload (some 0#8)) (ejecting true)) (hdr .console) (.abortUnload (some 0#8))
      ∧ (ejecting true).compNamed 0#8 = some .a ∧ 1 ≤ (ejecting true).settings.inForce.packAfter
      ∧ ((ejecting true).comps.comp .a).stage = .ejecting ∧ ((ejecting true).comps.comp .a).ejectDone = some true
      ∧ ((ejecting false).comps.comp .a).ejectDone = some false
      ∧ ((ejecting false).comps.comp .a).tips < (ejecting false).settings.inForce.packAfter
      ∧ (ready.comps.comp .a).stage ≠ .ejecting := by decide
theorem witness_fault_clear :
    let s := { ready with drive := { Drive.reset with latches := (Six.all none).put .reach (some ⟨.a, .openCircuit⟩) } }
    Taken (ask .console (.faultClear (some 0#8)) s) (hdr .console) (.faultClear (some 0#8)) ∧ s.chanNamed 0#8 = some .reach
      ∧ s.chanNamed 6#8 = none ∧ (s.chans.get .reach).state ≠ .run .playing
      ∧ s.drive.latches.get .reach = some ⟨.a, .openCircuit⟩ ∧ s.drive.latches.get .lift = none
      ∧ ((lifting .raise 100).chans.get .reach).state = .run .playing := by decide
theorem witness_status :
    Taken (ask .console (.statusGet (some 10#8)) ready) (hdr .console) (.statusGet (some 10#8))
      ∧ ready.statusSection 11#8 = none ∧ (ready.port .body).onBus = true ∧ (ready.port .body).tx.length < 16 := by decide
theorem witness_status_section :
    ∃ d, ((ask .console (.statusGet (some 10#8)) ready).popped (hdr .console)).statusSection 10#8 = some d := ⟨_, rfl⟩

/-! ### The route terminal's requests -/

/-- A request alone in its queue is taken where its sender may make it. -/
theorem taken (n : Node) (r : Request) (s : State) (h : r.allowed n = true) : Taken (ask n r s) (hdr n) r :=
  ⟨by cases n <;> rfl, h⟩

/-- An ENTRY_PUT of the tag 3. -/
def putOf (tag : TagId) : EntryFields := ⟨tag, 1#32, 0#8, 1#8, 0#8, 0#8, 5#24, 0#8, 5#8⟩
/-- The route terminal's request before a table. -/
def tabled (l : List Entry) (r : Request) : State :=
  ask .routeTerminal r { ready with houses := { ready.houses with table := l } }
/-- A household pinned. -/
def pinned : Entry := { house .byLift none with pinned := true }
theorem witness_entry_put :
    let r : Request := .entryPut (some (putOf 9#64))
    (∀ l ∈ [[pinned], [house .byLift none], []],
      TableOrdered (tabled l r) ∧ Taken (tabled l r) (hdr .routeTerminal) r)
      ∧ (tabled [pinned] r).houses.find 9#64 = some pinned ∧ pinned.pinned = true
      ∧ (tabled [house .byLift none] r).houses.find 9#64 = some (house .byLift none)
      ∧ (tabled [] r).houses.find 9#64 = none ∧ (tabled [] r).houses.table.length < 4096
      ∧ (entryOf (putOf 9#64)).isSome = true ∧ entryOf (putOf noTagId) = none := by
  simp only [TableOrdered]; decide
/-- A table of 4,096 households. -/
def full : List Entry := (List.range 4096).map fun n => { house .byLift none with tag := BitVec.ofNat 64 n }
theorem witness_table_full :
    let s := tabled full (.entryPut (some (putOf 5000#64)))
    TableOrdered s ∧ Taken s (hdr .routeTerminal) (.entryPut (some (putOf 5000#64))) ∧ s.houses.find 5000#64 = none
      ∧ s.houses.table.length = 4096 ∧ (entryOf (putOf 5000#64)).isSome = true := by
  refine ⟨⟨?_, ?_⟩, ⟨rfl, rfl⟩, ?_, ?_, by decide⟩
  · show full.Pairwise _
    rw [full, List.pairwise_map]
    refine List.Pairwise.imp_of_mem ?_ List.pairwise_lt_range
    intro a b ha hb h
    simp only [List.mem_range] at ha hb
    simp only [BitVec.toNat_ofNat]
    omega
  · show full.length ≤ 4096
    simp [full]
  · show full.find? _ = none
    rw [List.find?_eq_none]
    intro e he h
    simp only [full, List.mem_map, List.mem_range] at he
    obtain ⟨n, hn, rfl⟩ := he
    have := congrArg BitVec.toNat (beq_iff_eq.mp h)
    simp only [BitVec.toNat_ofNat] at this
    omega
  · show full.length = 4096
    simp [full]
theorem witness_entries :
    let s := tabled [pinned]
    (∀ r ∈ [Request.entryDrop (some 9#64), .entryDrop (some 8#64), .entryGet (some ⟨0#8, 9#64⟩),
        .entryGet (some ⟨0#8, 8#64⟩), .entryGet (some ⟨1#8, 0#64⟩), .entryGet (some ⟨2#8, 8#64⟩), .tableClear (some ()),
        .tableReady (some ())], Taken (s r) (hdr .routeTerminal) r ∧ TableOrdered (s r))
      ∧ (s (.tableClear (some ()))).houses.find 9#64 = some pinned ∧ (s (.tableClear (some ()))).houses.find 8#64 = none
      ∧ (tabled [house .byLift none] (.entryDrop (some 9#64))).houses.find 9#64 = some (house .byLift none)
      ∧ (s (.entryGet (some ⟨1#8, 0#64⟩))).houses.table = pinned :: [] ∧ (8#64).toNat < pinned.tag.toNat := by
  simp only [TableOrdered]; decide
/-- A journal with one record written, of sequence 1, in its first slot. -/
def written : State :=
  { ready with journal := { ready.journal with
      slots := [(0, firstSlot)], sectors := (List.replicate 32 ⟨.blank, false⟩).set 0 ⟨.active, false⟩,
      newest := some 1, oldest := some 1, nextSeq := 2, free := 4095 } }
theorem witness_journal_read :
    let f : Nat → JournalReadFields := fun n => ⟨0#8, BitVec.ofNat 32 n⟩
    (∀ n ∈ [0, 1, 2], Taken (ask .routeTerminal (.journalRead (some (f n))) written) (hdr .routeTerminal)
        (.journalRead (some (f n))) ∧ (f n).seq ≠ allOnes32)
      ∧ written.journal.starting = false ∧ written.journal.newest = some 1 ∧ written.journal.oldest = some 1
      ∧ 1 < (f 2).seq.toNat ∧ (f 0).seq.toNat ≤ 1 ∧ (f 0).seq.toNat < 1 ∧ (f 1).seq.toNat ≤ 1 ∧ 1 ≤ (f 1).seq.toNat
      ∧ written.journal.find (f 1).seq.toNat = some (0, firstSlot) := by decide
theorem witness_journal_release :
    (∀ n ∈ [0, 1, 9], Taken (ask .routeTerminal (.journalRelease (some (BitVec.ofNat 32 n))) written)
        (hdr .routeTerminal) (.journalRelease (some (BitVec.ofNat 32 n))) ∧ BitVec.ofNat 32 n ≠ allOnes32)
      ∧ written.journal.release = none ∧ written.journal.newest = some 1 ∧ (0#32).toNat ≤ written.journal.mark
      ∧ written.journal.mark < (9#32).toNat ∧ written.journal.mark < 1
      ∧ { written.journal with mark := 1 }.newest = some { written.journal with mark := 1 }.mark
      ∧ { written.journal with release := some ⟨1, false⟩ }.release = some ⟨1, false⟩ := by decide
theorem witness_time_set :
    Taken (ask .routeTerminal (.timeSet (some 5#32)) ready) (hdr .routeTerminal) (.timeSet (some 5#32))
      ∧ Taken (ask .routeTerminal (.timeSet (some allOnes32)) ready) (hdr .routeTerminal) (.timeSet (some allOnes32))
      ∧ 5#32 ≠ allOnes32 := ⟨taken _ _ _ rfl, taken _ _ _ rfl, by decide⟩
/-- Slot map lists: one in range and, after it, lists that check 1 to 3 refuse. -/
def slotLists : List (List (Byte × Byte)) :=
  [[(3#8, 15#8), (0#8, 0#8)], [], List.replicate 5 (0#8, 0#8), [(4#8, 1#8)], [(0#8, 16#8)], [(0#8, 1#8), (0#8, 2#8)]]
theorem witness_slot_map :
    (∀ l ∈ slotLists, Taken (ask .routeTerminal (.slotMap (some l)) ready) (hdr .routeTerminal) (.slotMap (some l)))
      ∧ (slotLists.map fun l => decide (1 ≤ l.length ∧ l.length ≤ 4)
          && l.all fun e => decide (e.1.toNat ≤ 3 ∧ e.2.toNat ≤ 15)) = [true, false, false, false, false, true]
      ∧ ([(3#8, 15#8), (0#8, 0#8)].map Prod.fst : List Byte).Nodup
      ∧ ¬ ([(0#8, 1#8), (0#8, 2#8)].map Prod.fst : List Byte).Nodup :=
  ⟨fun _ _ => taken _ _ _ rfl, by decide, by simp, by simp⟩
theorem witness_settings :
    (∀ q ∈ [Request.settingPut (some [(0#8, 9#16)]), .settingPut (some [(13#8, 0#16)]), .settingGet (some 12#8),
        .settingGet (some 13#8)], q.allowed .routeTerminal = true)
      ∧ settingPairs [(0#8, 9#16)] = some [(.packAfter, 9)] ∧ settingPairs [(13#8, 0#16)] = none
      ∧ ready.settings.reading = false ∧ State.reset.settings.reading = true ∧ ready.settings.write = none
      ∧ ready.settings.generation < 4294967294
      ∧ 4294967294 ≤ { ready.settings with generation := 4294967294 }.generation := by decide
/-- A settings write in flight. -/
def settling (dirty : Bool) : State :=
  { ready with settings := { ready.settings with write := some ⟨Settings.defaults, 1⟩, dirty := dirty } }
theorem witness_settings_write :
    (settling true).settings.write = some ⟨Settings.defaults, 1⟩ ∧ (settling true).settings.dirty = true
      ∧ (settling false).settings.dirty = false := by decide

/-! ### The Metrology Lock -/

/-- The calibration tool's request at a lock. -/
def locking (x : Lock) (r : Request) : State := ask .calTool r { ready with lock := x }
/-- The lock OPEN. -/
def opened : Lock := { ready.lock with state := .opened }
theorem witness_open_lock :
    (∀ q ∈ [Request.freezeLock (some ()), .openLock (some ⟨0#8, 5#256⟩), .closeLock (some ()),
        .setCode (some ⟨5#256, 1#8⟩), .trialSet (some [(4#8, 500#32)]), .trialDiscard (some ()), .commit (some ()),
        .serviceZero (some ()), .liveWeight (some ()), .attrRead (some ())], q.allowed .calTool = true)
      ∧ ready.lock.reading = false ∧ ready.lock.state = .locked ∧ ready.lcc.phase = .idle ∧ ready.inter.present = true
      ∧ ready.inter.report.speed = some 0 ∧ ready.lock.code = none ∧ opened.state = .opened := by decide
/-- The codes of the two identities, right and wrong, at a lock that holds the code 5, at the level MAXIMUM. -/
theorem witness_codes :
    let x := { ready.lock with code := some 5#256, level := .maximum }
    x.code = some 5#256 ∧ x.code ≠ some 6#256 ∧ x.level = .maximum ∧ (0#8).toNat ≤ 1 ∧ (1#8).toNat ≤ 1
      ∧ 5#256 ≠ BitVec.allOnes 256 := by decide
theorem witness_maker_code : some Config.makerCode ≠ some (Config.makerCode ^^^ 1#256) := by
  intro h
  have h := congrArg (Config.makerCode ^^^ ·) (Option.some.inj h)
  simp at h
theorem witness_close_lock :
    opened.write = none ∧ opened.working = opened.reference ∧ opened.cal ≠ .unverified
      ∧ { opened with cal := .unverified }.cal = .unverified
      ∧ { opened with working := { Params.factory with d := 500 } }.working ≠ opened.reference
      ∧ { opened with write := some .verify }.write = some .verify ∧ { opened with write := some (.maker true) }.write ≠ none
      ∧ { opened with write := some (.code 5#256 .high) }.write = some (.code 5#256 .high) := by decide
theorem witness_set_code_malformed :
    (∀ f ∈ [(⟨5#256, 2#8⟩ : SetCodeFields), ⟨BitVec.allOnes 256, 0#8⟩],
        Taken (locking opened (.setCode (some f))) (hdr .calTool) (.setCode (some f)))
      ∧ 1 < (2#8).toNat ∧ (∀ withBlock, opened.write ≠ some (.maker withBlock))
      ∧ ∀ c level, opened.write ≠ some (.code c level) :=
  ⟨fun _ _ => taken _ _ _ rfl, by decide, nofun, nofun⟩
theorem witness_trial :
    trialPairs [(4#8, 500#32)] = some [(.d, 500)] ∧ trialPairs [(9#8, 0#32)] = none
      ∧ trialPairs [] = none ∧ trialPairs [(8#8, 1#32), (8#8, 2#32)] = none
      ∧ trialPairs [(0#8, 0xFFFFFFFF#32), (8#8, 300#32)] = some [(.zA, -1), (.tilt, 300)]
      ∧ (opened.working.apply [(.d, 500)]).inRange = true ∧ (opened.working.apply [(.d, 300)]).inRange = false
      ∧ trialPairs [(4#8, 300#32)] = some [(.d, 300)] ∧ 0 ≤ opened.reference.max ∧ 0 ≤ opened.working.max
      ∧ (opened.working.apply [(.max, 400000)]).max ≠ opened.working.max
      ∧ { ready.lock with zero := ⟨1, false, some 20⟩ }.zero.point = some 20 ∧ ready.lock.zero.point = none := by decide
theorem witness_commit :
    ready.lock.cec < 65535 ∧ 65535 ≤ { ready.lock with cec := 65535 }.cec ∧ ready.shadow.state = .ready
      ∧ ready.shadow.check = some 5#32 ∧ State.reset.shadow.state ≠ .ready ∧ ready.journal.starting = false
      ∧ ready.journal.canGrant = true ∧ { ready.journal with reserved := 4 }.canGrant = false
      ∧ { opened with write := some .counter }.write = some .counter := by decide

/-! ### The profile store and the shadow -/

/-- A write of three words into the last three elements. -/
def lastWrite : ProfileWriteFields := ⟨0#8, 16381#16, [1#32, allOnes32, 3#32]⟩
theorem witness_store :
    (∀ q ∈ [Request.profileWrite (some lastWrite), .profileErase (some 7#8), .profileErase (some 255#8),
        .shadowLoad (some ())], q.allowed .calTool = true)
      ∧ writeOf lastWrite = some (.write 16381 [1#32, allOnes32, 3#32])
      ∧ writeOf { lastWrite with offset := 16382#16 } = none ∧ (7#8).toNat < 8
      ∧ ready.store.verifying = false ∧ ready.store.state = .valid ∧ ready.shadow.state = .ready
      ∧ Shadow.loading.state = .loading ∧ { ready.store with state := .busy }.state = .busy
      ∧ cellsWf erasedWord ready.store.words = true
      ∧ { ready.store with job := some (.erase none) }.job = some (.erase none) := by decide
/-- The entries of each table area at their bounds. -/
theorem witness_entries_permitted :
    (∀ e ∈ [(3, 16383#32), (4, 0x8000020E#32), (5, 2000#32), (6, 0x3E803E8#32), (7, 2500#32)], PermittedEntry e.1 e.2)
      ∧ ∀ e ∈ [(1, 16384#32), (4, 0x300#32), (4, 15#32), (5, 2001#32), (6, 0x3E903E8#32), (6, 1#32), (7, 10001#32)],
          ¬ PermittedEntry e.1 e.2 := by decide
theorem witness_writes :
    writeOf ⟨5#8, 5#16, [2000#32]⟩ = some (.write 17193 [2000#32]) ∧ writeOf ⟨5#8, 5#16, [2001#32]⟩ = none
      ∧ writeOf ⟨5#8, 6#16, [0#32]⟩ = none ∧ writeOf ⟨8#8, 0#16, [0#32]⟩ = none ∧ writeOf ⟨0#8, 0#16, []⟩ = none
      ∧ eraseOf 7#8 = some (.erase (some .periods)) ∧ eraseOf 8#8 = none := by decide
theorem witness_shadow_load :
    ready.lcc.phase = .idle ∧ (∀ c ∈ allChannels, (ready.chans.get c).state = .idle) ∧ ready.comps.a.stage = .rest
      ∧ ready.comps.b.stage = .rest ∧ (lifting .raise 100).lcc.phase ≠ .idle ∧ ready.links.service.deferred = []
      ∧ ready.comps.a.tips < ready.settings.inForce.packAfter ∧ ready.comps.b.tips < ready.settings.inForce.packAfter
      ∧ (lifting .raise 100).hasChannel .reach = true ∧ ((lifting .raise 100).chans.get .reach).state ≠ .idle := by decide
/-! ### The Profile Player -/

/-- A SET of 250, the element after the one that stands at 100. -/
def setWord : Word32 := word 1 250
/-- The state with REACH at a command element. -/
def atWord (w : Word32) (q : Progress) : State := at2 w setWord q
theorem witness_elements :
    (atWord (word 1 1000) .cleared).reaches .reach (.set 1000)
      ∧ (atWord (word 2 0x103E8) .cleared).reaches .reach (.ramp 1000 1)
      ∧ (atWord (word 2 0x30418) .cleared).reaches .reach (.ramp (-1000) 3)
      ∧ (atWord (word 2 0x30418) (.ramp 40 1)).inside .reach (.ramp (-1000) 3) (.ramp 40 1)
      ∧ (atWord (word 2 0x30418) (.ramp 40 2)).inside .reach (.ramp (-1000) 3) (.ramp 40 2)
      ∧ (atWord (word 3 0x20877) .cleared).reaches .reach (.delta4 7 7 (-8) 0 2)
      ∧ (∀ k ∈ [1, 2, 3], (atWord (word 3 0x20877) (.delta4 k)).inside .reach (.delta4 7 7 (-8) 0 2) (.delta4 k))
      ∧ (atWord (word 4 1) .cleared).reaches .reach (.hold 1) ∧ (atWord (word 4 4095) .cleared).reaches .reach (.hold 4095)
      ∧ (∀ k ∈ [1, 2], (atWord (word 4 3) (.hold k)).inside .reach (.hold 3) (.hold k))
      ∧ ((atWord (word 4 3) .cleared).chans.get .reach).pointer < 16382 := by decide
/-- The scaled deltas of a DELTA4 as the statement writes them. -/
theorem witness_delta (r : Chan) : ∃ u : Int → Int, ∀ d, u d = max (-1000) (min 1000 (r.u + d * 4 ^ 2)) :=
  ⟨_, fun _ => rfl⟩
/-- A weigh window of a kind. -/
def weighing (k : WindowKind) : Weigh := { ready.weigh with window := some (Window.fresh k) }
theorem witness_zero_step :
    (atWord (word 5 1) .cleared).reaches .reach (.step 1) ∧ (atWord (word 5 1) .cleared).elementAt 101 (.set 250)
      ∧ ((atWord (word 5 1) .cleared).chans.get .reach).origin = some .cycle
      ∧ (atWord (word 6 0) .cleared).reaches .reach (.mark 0) ∧ (atWord (word 6 0) .cleared).houses.windowOpen = false
      ∧ (atWord (word 6 2) .cleared).reaches .reach (.mark 2) ∧ (atWord (word 6 2) .cleared).weigh.enabled = true
      ∧ (atWord (word 6 2) .cleared).weigh.window = none
      ∧ ((atWord (word 6 3) .cleared).setWeigh (weighing .gross)).reaches .reach (.mark 3)
      ∧ (Window.fresh .gross).kind = .gross := by decide
theorem witness_tip :
    let s := { atWord (word 6 8) .cleared with lcc := (lifting .tip 100).lcc }
    s.reaches .reach (.mark 8) ∧ s.lcc.phase = .run .tip ∧ s.lcc.ctx = some ctx
      ∧ (s.comps.comp ctx.target).tips + 1 < s.settings.inForce.packAfter ∧ (s.comps.comp ctx.target).tips < 255 := by
  decide
/-- PACK_A at a mark, played by an owner. -/
def packing (w : Word32) (o : Origin) : State :=
  { ready with
    shadow := copied [(100, w), (101, setWord)], chans := (Six.all Chan.reset).put .packA (playing o) }
theorem witness_pack_marks :
    Channel.packed .packA = some .a ∧ (packing (word 6 10) .pack).reaches .packA (.mark 10)
      ∧ ((packing (word 6 10) .pack).chans.get .packA).origin = some .pack
      ∧ (packing (word 6 12) .eject).reaches .packA (.mark 12)
      ∧ ((packing (word 6 12) .eject).chans.get .packA).origin = some .eject
      ∧ (packing (word 8 0) .pack).reaches .packA .fin := by decide
/-- Condition 30 holds with the packer at REST; condition 0 of an erased table does not. -/
theorem witness_await :
    ((atWord (word 7 30) .cleared).sensed still).holds .reach (some .cycle) 30 = true
      ∧ (atWord (word 7 30) .cleared).reaches .reach (.await 30 0)
      ∧ (atWord (word 7 30) (.await 40)).inside .reach (.await 30 0) (.await 40)
      ∧ ((atWord (word 7 0x3200) .cleared).sensed still).holds .reach (some .cycle) 0 = false
      ∧ (atWord (word 7 0x3200) .cleared).reaches .reach (.await 0 50)
      ∧ (atWord (word 7 0x3200) (.await 40)).inside .reach (.await 0 50) (.await 40) := by decide
/-- The last channel of RAISE at its END. -/
theorem witness_last_to_end :
    (lifting .raise 50).lastToEnd .reach ∧ (lifting .raise 50).lcc.phase = .run .raise
      ∧ (lifting .raise 50).lcc.ctx = some ctx ∧ (lifting .raise 50).weigh.window = none
      ∧ (lifting .raise 50).shadow.state = .ready := by decide
theorem witness_end_tip :
    let s := { lifting .raise 50 with shadow := copied ((50, word 8 0) :: [(16384 + 18, 100#32)]) }
    (s.setEntry (s.slotMap.get ctx.activeSlot) .tip .reach).isSome = true ∧ Channel.isArm .reach = true
      ∧ s.hasChannel .reach = true ∧ s.lastToEnd .reach := by decide
theorem witness_arm_ready : (lifting .raise 50).armReady .reach :=
  ⟨fun k => by cases k <;> decide, fun k => by cases k <;> decide⟩
/-- REACH at its END while LIFT still plays. -/
theorem witness_not_last :
    let s := { lifting .raise 50 with
      lcc := { (lifting .raise 50).lcc with started := [.reach, .lift] }
      chans := (lifting .raise 50).chans.put .lift (playing .cycle) }
    s.reaches .reach .fin ∧ Channel.lift ∈ s.lcc.started ∧ (s.chans.get .lift).state ≠ .idle
      ∧ (s.chans.get .reach).origin = some .cycle := by decide
theorem witness_faults :
    (({ atWord setWord .cleared with shadow := { ready.shadow with
        content := some ⟨[(100, setWord)], []⟩ } }).sensed still).faultsAs .reach .checkError
      ∧ ((atWord (word 2 5) .cleared).sensed still).faultsAs .reach .badElement
      ∧ ((atWord (word 6 1) .cleared).sensed still).faultsAs .reach .markOrder
      ∧ ((({ atWord (word 7 0x100) (.await 40) with
          chans := (Six.all Chan.reset).put .reach { playing .cycle with
            progress := .await 40, deadline := some 1 } }).sensed still).faultsAs .reach .awaitTimeout)
      ∧ (atWord (word 2 5) .cleared).stepping .reach ∧ Channel.reach ∈ (atWord (word 2 5) .cleared).lcc.started
      ∧ (atWord (word 2 5) .cleared).lcc.phase = .run .approach ∧ (lifting .recover 100).lcc.phase = .run .recover := by
  refine ⟨⟨rfl, by decide⟩, .inl ⟨rfl, .ramp 5 0, by decide, rfl⟩, ⟨rfl, 1, by decide, by decide, rfl⟩,
    ⟨0, 1, 40, by decide, rfl, by decide⟩, by decide, by decide, rfl, rfl⟩

/-! ### Drive and weighing -/

theorem witness_sharing :
    let need : (Channel → Int) → Nat := fun u => (u .reach).natAbs * caseQ .reach / 1000
      + (u .lift).natAbs * caseQ .lift / 1000 + (u .divert).natAbs * caseQ .divert / 1000
      + (u .packA).natAbs * caseQ .packA / 1000 + (u .packB).natAbs * caseQ .packB / 1000
    need caseG = 1170 ∧ (shareFlow 540 caseQ caseG).budget < need caseG
      ∧ need caseG ≤ (shareFlow 2000 caseQ caseG).budget := by decide
/-- REACH with a duty in force on its A coil, timer 0 running. -/
def driven (n : Nat) : State :=
  { lifting .raise 100 with drive := { Drive.reset with
      timer0 := true, coils := (Six.all ⟨Coil.reset, Coil.reset⟩).put .reach ⟨⟨n, n, true⟩, Coil.reset⟩ } }
theorem witness_coil_events :
    (driven 99).hasChannel .reach = true ∧ (driven 99).drive.timerOf .reach = true
      ∧ ((driven 99).drive.coils.get .reach).a.inForce < 100
      ∧ 3000 * ((driven 400).drive.coils.get .reach).a.inForce / 1000 / 10 ≤ 120
      ∧ 100 ≤ ((driven 400).drive.coils.get .reach).a.inForce
      ∧ 119 < 3000 * ((driven 400).drive.coils.get .reach).a.inForce / 1000 / 10
      ∧ (driven 400).drive.latches.get .reach = none ∧ ((driven 400).chans.get .reach).state = .run .playing
      ∧ ((driven 400).chans.get .reach).origin = some .cycle ∧ (driven 400).lcc.phase = .run .raise
      ∧ ((driven 400).chans.get .lift).state = .idle ∧ ready.drive.timerOf .reach = false
      ∧ { ready with variant := .single }.hasChannel .divert = false := by decide
/-- A block of a level. -/
def block (v : Int) : Block := ⟨v, v, 0⟩
/-- A window's sixteenth block to come. -/
def nearly (k : WindowKind) (b : Int) : Weigh :=
  { weighing k with acc := ⟨7, 7 * b, 7 * b, 0⟩, settle := List.replicate 15 (block b) }
theorem witness_pairs :
    ready.weigh.enabled = true ∧ Weigh.reset.enabled = false ∧ (0x7FFFFF#24).toInt = 8388607
      ∧ (0x800000#24).toInt = -8388608 ∧ -8388608 < (0x7FFFFE#24).toInt ∧ (0x7FFFFE#24).toInt < 8388607
      ∧ ready.weigh.acc.count < 7 ∧ (nearly .gross 0).acc.count = 7 ∧ (nearly .gross 0).settle.length ≤ 16
      ∧ (nearly .gross 0).window = some (Window.fresh .gross) ∧ (Window.fresh .gross).capture = none
      ∧ (nearly .gross 0).hold = false
      ∧ (∀ e ∈ (nearly .gross 0).settle ++ [block 0], ∀ f ∈ (nearly .gross 0).settle ++ [block 0], e.v - f.v ≤ 2 * 200)
      ∧ (∃ e ∈ [block 500, block 0], ∃ f ∈ [block 500, block 0], 2 * 200 < e.v - f.v)
      ∧ ((nearly .gross 0).settle ++ [block 0]).length = 16 ∧ ready.lock.zero.count ≤ 255 ∧ 0 < ready.lock.working.d
      ∧ (Window.fresh .zero).kind = .zero ∧ (Window.fresh .tare).kind = .tare
      ∧ (block 100).v.natAbs ≤ (200 / 2 : Int) ∧ (200 / 2 : Int) < ((block 101).v.natAbs : Int) := by decide
theorem witness_stroke :
    let s := ready.setComp .a { Comp.reset with stage := .compress, stroke := some ⟨false, 0⟩ }
    s.hasComp .a = true ∧ (s.comps.comp .a).stroke = some ⟨false, 0⟩ ∧ (s.comps.comp .a).stage = .compress
      ∧ (s.chans.get (Compartment.packer .a)).state ≠ .paused ∧ (ready.comps.comp .a).stroke = none := by decide

/-! ### The Interlocks' events -/

/-- A report of a speed. -/
def report (speed : BitVec 16) : ChassisFields := ⟨speed, 900#16, 1#8⟩
theorem witness_chassis :
    (∀ v ∈ [0#16, 30#16, 31#16, 0xFFFF#16], Taken (ask .chassis (.chassisState (some (report v))) ready) (hdr .chassis)
        (.chassisState (some (report v)))) ∧ ready.inter.speedOver = false ∧ (lifting .raise 100).inter.speedOver = false
      ∧ State.reset.inter.speedOver = true ∧ State.reset.inter.reported = false ∧ ready.lcc.phase = .idle
      ∧ ready.inter.snapshot = none ∧ ready.inter.silenceTimer.isSome = true
      ∧ ready.settings.inForce.liftSpeedLimit < (31#16).toNat :=
  ⟨fun _ _ => taken _ _ _ rfl, rfl, rfl, rfl, rfl, rfl, rfl, rfl, by decide⟩
theorem witness_pto :
    ready.inter.pto = true ∧ State.reset.inter.pto = false ∧ (lifting .raise 100).inter.pto = true
      ∧ (lifting .raise 100).lcc.phase = .run .raise ∧ (haltedIn .raise ⟨false, true, false, false⟩).lcc.phase = .halted
      ∧ State.reset.comps.a.tips < State.reset.settings.inForce.packAfter ∧ Channel.isArm .packA = false
      ∧ ((ejecting false).chans.get .packA).origin = some .eject ∧ Channel.lift ∉ (lifting .raise 100).lcc.started := by
  decide
theorem witness_watched :
    let l : Levels := ⟨true, true, true, true⟩
    ready.inter.snapshot = none ∧ { ready.inter with snapshot := some l }.snapshot = some l ∧ false ≠ l.level .armStowed
      ∧ true = l.level .gripOpen ∧ ready.inter.alarm = false ∧ ready.variant = .split
      ∧ ready.journal.starting = false ∧ State.reset.journal.starting = true := by decide

/-! ### Tags, decision, billing, record writes -/

/-- A window with a tag listed. -/
def listed : Houses := { Houses.reset with windowOpen := true, tagList := [⟨9#64, 255, 3⟩] }
theorem witness_tag_seen :
    listed.windowOpen = true ∧ (∃ e ∈ listed.tagList, e.tag = 9#64) ∧ (∀ e ∈ listed.tagList, e.count ≤ 255)
      ∧ (∀ e ∈ listed.tagList, e.tag ≠ 8#64) ∧ listed.tagList.length < 4
      ∧ 4 ≤ (List.replicate 4 (⟨9#64, 1, 1⟩ : TagEntry)).length ∧ listed.overflow ≤ 255
      ∧ 9#64 ≠ 0xFFFFFFFFFFFFFFFF#64 ∧ Houses.reset.windowOpen = false := by decide
theorem witness_tag_result :
    (∀ f ∈ [(⟨1#64, 2, 0⟩ : TagEntry)] ++ [⟨3#64, 1, 0⟩], f.count < 3)
      ∧ ∀ g ∈ ([] ++ [⟨2#64, 1, 0⟩] ++ [] : List TagEntry), g.count ≤ 4 := by decide
theorem witness_tag_close :
    let s := { atWord (word 6 1) .cleared with houses := listed }
    s.reaches .reach (.mark 1) ∧ s.houses.windowOpen = true ∧ (s.chans.get .reach).origin = some .cycle
      ∧ s.elementAt 101 (.set 250) := by decide
/-- The last channel of APPROACH at its END, GRIP and RETRACT entries for REACH, the household of the winning tag known. -/
def deciding (e : Entry) (r : TagResult) : State :=
  { lifting .approach 50 with
    shadow := copied [(50, word 8 0), (16390, 100#32), (16420, 100#32)]
    lcc := { (lifting .approach 50).lcc with ctx := some { ctx with tagResult := some r } }
    houses := { Houses.reset with loaded := true, table := [e] } }
theorem witness_decision :
    let s := deciding (house .byLift none) (.winner 9#64)
    let y := { ctx with tagResult := some (.winner 9#64) }
    s.lastToEnd .reach ∧ s.shadow.state = .ready ∧ s.lcc.phase = .run .approach ∧ s.lcc.ctx = some y ∧ y.path = .lift
      ∧ s.houses.windowOpen = false ∧ s.weigh.window = none
      ∧ (decideLift s.houses s.settings.inForce.untaggedPolicy (y.tagResult.getD .noTag) y.stream).decision = .accept
      ∧ (s.setEntry (s.slotMap.get 0) .grip .reach).isSome = true
      ∧ (s.setEntry (s.slotMap.get 0) .retract .reach).isSome = true ∧ s.hasChannel .reach = true
      ∧ (decideLift (deciding { house .byLift none with status := .suspended } (.winner 9#64)).houses .liftUnbilled
          (.winner 9#64) .refuse).decision = .refuse .suspended
      ∧ (house .byLift none).takes .recycle = false ∧ (house .byLift none).takes .refuse = true
      ∧ Houses.reset.loaded = false ∧ Houses.reset.find 9#64 = none := by decide
theorem witness_deciding_ready : (deciding (house .byLift none) .noTag).armReady .reach :=
  ⟨fun k => by cases k <;> decide, fun k => by cases k <;> decide⟩
theorem witness_staged :
    pinnedLift.lastToEnd .reach ∧ pinnedLift.lcc.phase = .run .retract ∧ pinnedLift.weigh.window = none
      ∧ (pinnedLift.lcc.ctx.map LiftCtx.path) = some .lift ∧ (pinnedLift.lcc.ctx.bind LiftCtx.pin) = some 9#64
      ∧ (pinnedLift.houses.find 9#64).map Entry.liftsToday = some 0
      ∧ (pinnedLift.comps.comp .a).total + 29400 ≤ 4294967294 ∧ roundTo 200 (41890 - 12455) = 29400 := by decide
theorem witness_weighed_clean : ∀ x, pinnedLift.lcc.ctx = some x → x.weighedClean Params.factory 29400 := by
  intro x h
  cases h
  exact ⟨⟨41890, none, .legal⟩, ⟨12455, .legal⟩, by decide⟩
theorem witness_staged_refused :
    let s := { lifting .retract 50 with lcc := { (lifting .retract 50).lcc with
      ctx := some { ctx with path := .refused, decision := some (.refuse .suspended) } } }
    s.lastToEnd .reach ∧ (s.lcc.ctx.map LiftCtx.path) = some .refused ∧ (s.lcc.ctx.bind LiftCtx.pin) = none := by decide
/-- A journal whose record write into a slot is in flight. -/
def recording (slot : Nat) (k : Nat) (x : Sector) (slots : Slots) : Journal :=
  { written.journal with
    slots := slots, sectors := (List.replicate 32 ⟨.blank, false⟩).set k x, writing := some slot,
    queue := [{ record with seq := 2 }] }
theorem witness_record_write :
    let j := recording 127 3 ⟨.blank, false⟩ []
    j.writing = some 127 ∧ j.queue = { record with seq := 2 } :: [] ∧ cellsWf erasedSlot j.slots = true
      ∧ j.sectors.length = 32 ∧ 127 % 128 = 127 ∧ j.newestSector = none
      ∧ (∀ k ∈ List.range 32, (j.sector k).state ≠ .reclaimable) ∧ Journal.reset.writing = none := by decide
theorem witness_sector_released :
    let j := { recording 128 0 ⟨.full, false⟩ [(0, firstSlot)] with mark := 1 }
    j.newestSector = some 0 ∧ 0 ≠ 128 / 128 ∧ (j.sector 0).state = .full ∧ j.erase = none
      ∧ (∀ e ∈ j.slots, slotSeq e.2 = 1) ∧ 1 ≤ j.mark ∧ cellsWf erasedSlot j.slots = true := by decide
theorem witness_sector_erase :
    let j := { ready.journal with
      erase := some ⟨31, true⟩, sectors := (List.replicate 32 (⟨.blank, false⟩ : Sector)).set 4 ⟨.reclaimable, false⟩ }
    j.erase = some ⟨31, true⟩ ∧ j.sectors.length = 32 ∧ (j.sector 4).state = .reclaimable
      ∧ (∀ n ∈ List.range 32, n ≠ 4 → (j.sector n).state ≠ .reclaimable) ∧ j.reserved + 256 ≤ j.free + 128
      ∧ ready.journal.erase ≠ some ⟨31, true⟩ := by decide

/-! ### The further clauses of the statements -/

/-- The part after the settings have been read, its journal's slots as given. -/
def scanning (slots : Slots) : State := { settled with journal := { Journal.reset with slots := slots } }
theorem witness_scan_totals :
    (scanning [(0, firstSlot)]).journal.scan.newestRecord = some firstSlot ∧ slotTotalA firstSlot = 0
      ∧ slotTotalB firstSlot = 0 ∧ settled.variant = .split ∧ { settled with variant := .single }.variant = .single
      ∧ 256 ≤ (scanning []).journal.scan.free := by decide
/-- Of 31 sectors a slot in the middle alone was written: none of them is BLANK after the scan. -/
theorem witness_scan_low :
    (scanning ((List.range 31).map fun k => (128 * k + 1, 0#512))).journal.scan.free < 256 := by decide +kernel

/-- A service-line ATTR_READ's bytes, with the check `c`. -/
def attrLine (len : Byte) (c : BitVec 16) : List Byte :=
  0x5A#8 :: len :: 40#8 :: 7#8 :: ([] ++ [c.extractLsb' 8 8, c.extractLsb' 0 8])
theorem witness_line_frame :
    let c := crc16 (2#8 :: 40#8 :: 7#8 :: [])
    c.extractLsb' 8 8 ++ c.extractLsb' 0 8 = c ∧ (attrLine 2#8 c).length = 6 ∧ (2#8).toNat = ([] : List Byte).length + 2
      ∧ (3#8).toNat ≠ ([] : List Byte).length + 2 ∧ 250 < (251#8).toNat ∧ crc16 (2#8 :: 40#8 :: 7#8 :: []) ≠ 0#8 ++ 0#8
      ∧ ready.links.service.tx = [] ∧ ready.links.service.onBus = true ∧ ready.links.service.rx.length < 8
      ∧ 8 ≤ (List.replicate 8 (RxFrame.mk (hdr .calTool) (.attrRead (some ())))).length
      ∧ Request.answered (decodeRequest .service 40#8 []) = true ∧ ([] : List Byte).length < 6
      ∧ [1#8, 2#8, 3#8, 4#8, 5#8, 6#8].head? ≠ some 0x5A#8 := by decide
theorem witness_sent_none :
    (ready.port .body).tx = [] ∧ ((after (.busOff .body) ready).port .body).onBus = false := by decide
theorem witness_silent_fields :
    AtHead (ask .chassis (.chassisState none) ready) (hdr .chassis) (.chassisState none)
      ∧ badLength (.chassisState none) = true
      ∧ AtHead (ask .console (.chassisState none) ready) (hdr .console) (.chassisState none)
      ∧ (Request.chassisState none).allowed .console = false := by decide

/-- A lift given up in HALTED with an interlock cause: its RECOVER waits, no channel started. -/
def waiting : State :=
  { haltedIn .recover Causes.none with
    lcc := { Lcc.reset with phase := .halted, haltedPhase := some .recover, ctx := some { ctx with path := .aborted } }
    chans := Six.all Chan.reset }
theorem witness_resume_recover :
    let y := { ctx with path := .aborted }
    waiting.lcc.phase = .halted ∧ waiting.lcc.haltedPhase = some .recover ∧ waiting.lcc.started = []
      ∧ waiting.lcc.ctx = some y ∧ waiting.lcc.causes = Causes.none ∧ (waiting.phaseEntry y .recover .reach).isSome = true
      ∧ waiting.hasChannel .reach = true ∧ (haltedIn .recover Causes.none).lcc.started ≠ [] := by decide
theorem witness_resume_arm : waiting.armFree ∧ ∀ c, c.isArm = true → (waiting.chans.get c).state = .idle :=
  ⟨fun k => by cases k <;> decide, fun k => by cases k <;> decide⟩
/-- A lift halted by a fault alone. -/
theorem witness_abort_halted :
    let s := haltedIn .raise ⟨false, false, false, true⟩
    s.lcc.phase = .halted ∧ s.lcc.haltedPhase = some .raise ∧ s.lcc.causes.permit = false ∧ s.lcc.causes.pto = false
      ∧ s.lcc.causes.speed = false ∧ s.lcc.ctx = some ctx ∧ (s.phaseEntry ctx .recover .reach).isSome = true
      ∧ (∀ c, c.isArm = true → c ∉ s.lcc.started → (s.chans.get c).state = .idle)
      ∧ (lifting .raise 100).lcc.causes.fault = false := by
  refine ⟨rfl, rfl, rfl, rfl, rfl, rfl, by decide, fun c => by cases c <;> decide, rfl⟩
theorem witness_unload_checks :
    State.reset.journal.starting = true ∧ ready.compNamed 2#8 = none ∧ State.reset.shadow.state ≠ .ready
      ∧ (lifting .raise 100).lcc.phase ≠ .idle ∧ State.reset.inter.present = false ∧ State.reset.inter.permitHeld = false
      ∧ ready.ejectEntry .b = none ∧ ready.compNamed 1#8 = some .b
      ∧ { ready.journal with reserved := 4 }.canGrant = false := by decide
/-- The number of parts is a free value (log 17): it is 1 or more, and no part fits where the queue is full. -/
theorem witness_status_parts :
    11 ≤ (11#8).toNat ∧ (ask .console (.statusGet (some 10#8)) ready).statusSection 10#8 ≠ none
      ∧ ∀ (ix : Nat) (d : StatusData), 1 ≤ partCount ix (.status d) ∧ 16 < 16 + partCount ix (.status d) := by
  refine ⟨by decide, by decide, fun ix d => ?_⟩
  simp only [partCount]
  omega
/-- An element that has waited, and one that is not there. -/
theorem witness_status_channels :
    let s := atWord (word 7 0x3200) (.await 40)
    (s.chans.get .reach).state = .run .playing ∧ s.hasChannel .reach = true
      ∧ { ready with variant := .single }.hasChannel .divert = false
      ∧ { s.chans.get .reach with state := .run .awaiting }.state = .run .awaiting
      ∧ decodeElement (s.elementWord (s.chans.get .reach).pointer) = .await 0 50 ∧ State.reset.lock.reading = true
      ∧ ready.lock.reading = false ∧ State.reset.journal.starting = true ∧ ready.journal.starting = false
      ∧ (∀ e ∈ [house .byLift none], e.pinned = false) ∧ ready.inter.permitTimer = some 250 := by decide

theorem witness_entry_forms :
    Taken (tabled [] (.entryGet (some ⟨1#8, 0#64⟩))) (hdr .routeTerminal) (.entryGet (some ⟨1#8, 0#64⟩))
      ∧ Taken (tabled [pinned] (.entryGet (some ⟨2#8, 9#64⟩))) (hdr .routeTerminal) (.entryGet (some ⟨2#8, 9#64⟩))
      ∧ (∀ e ∈ [pinned], e.tag.toNat ≤ (9#64).toNat) ∧ 3 ≤ (3#8).toNat ∧ (house .byLift none).pinned = false := by decide
theorem witness_journal_forms :
    let f : JournalReadFields := ⟨1#8, 0#32⟩
    Taken (ask .routeTerminal (.journalRead (some f)) written) (hdr .routeTerminal) (.journalRead (some f))
      ∧ f.form = 1#8 ∧ written.journal.mark + 1 ≤ 1 ∧ written.journal.find (written.journal.mark + 1) = some (0, firstSlot)
      ∧ ready.journal.newest = none ∧ State.reset.journal.starting = true ∧ 2 ≤ (2#8).toNat
      ∧ 14 < (List.replicate 15 (TxMsg.indication (.alert .chassisSilent))).length ∧ ready.journal.release = none := by decide
theorem witness_setting_lists :
    (settingPairs [(12#8, 2#16)] = none ∧ settingPairs [] = none ∧ settingPairs (List.replicate 9 (0#8, 1#16)) = none
      ∧ settingPairs [(0#8, 1#16), (0#8, 2#16)] = none) ∧ (12#8).toNat < 13 ∧ 13 ≤ (13#8).toNat ∧ 13#8 ≠ 255#8
      ∧ (Request.settingGet (some 255#8)).allowed .routeTerminal = true
      ∧ (settling false).settings.write ≠ none := by decide
theorem witness_lock_refusals :
    let r : Request := .commit (some ())
    requestOf (.commit (hdr .calTool) (some ())) = some (hdr .calTool, r)
      ∧ toLock (.commit (hdr .calTool) (some ())) = true ∧ onlyOpen (.commit (hdr .calTool) (some ())) = true
      ∧ onlyUnwritten (.commit (hdr .calTool) (some ())) = true
      ∧ (∀ x ∈ [ready.lock, { ready.lock with state := .frozen }, { opened with write := some .counter }, Lock.reset],
          Taken (locking x r) (hdr .calTool) r)
      ∧ ready.lock.state = .locked ∧ { opened with write := some .counter }.write ≠ none ∧ Lock.reset.reading = true := by
  decide
theorem witness_grant_low :
    { ready.journal with free := 256 }.low = false ∧ { ready.journal with free := 256 }.canGrant = true
      ∧ 256 < 0 + 1 + 256 ∧ ready.journal.reserved + 1 + 256 ≤ ready.journal.free
      ∧ { ready.journal with low := true }.low = true := by decide
theorem witness_live :
    Taken (ask .calTool (.liveWeight (some ())) ready) (hdr .calTool) (.liveWeight (some ()))
      ∧ ready.weigh.enabled = true ∧ State.reset.weigh.enabled = false ∧ ready.weigh.settle.length ≠ 16
      ∧ (List.replicate 16 (block 0)).length = 16
      ∧ Taken (ask .calTool (.attrRead (some ())) ready) (hdr .calTool) (.attrRead (some ())) := by decide
theorem witness_erase_requests :
    (∀ b ∈ [7#8, 8#8, 255#8], Taken (ask .calTool (.profileErase (some b)) ready) (hdr .calTool) (.profileErase (some b)))
      ∧ 8 ≤ (8#8).toNat ∧ 8#8 ≠ 255#8 ∧ State.reset.store.verifying = true ∧ ready.lock.state ≠ .opened
      ∧ (∀ base ws, ready.store.job ≠ some (.write base ws)) ∧ (∀ area, ready.store.job ≠ some (.erase area)) :=
  ⟨fun _ _ => taken _ _ _ rfl, by decide, by decide, rfl, by decide, nofun, nofun⟩
theorem witness_load_done :
    Shadow.loading.state = .loading ∧ cellsWf erasedWord ready.store.words = true ∧ ready.shadow.state ≠ .loading
      ∧ (∀ d ∈ [(⟨hdr .calTool, 43#8⟩ : Deferred)], d.header.src.port = .service)
      ∧ (∀ c ∈ allChannels, (State.reset.chans.get c).state = .idle) ∧ ready.store.check ≠ none := by decide
/-- The marks of the weigh windows, of the engine DISABLED, and a tip that makes a pack due. -/
theorem witness_marks :
    (∀ e ∈ [(2, WindowKind.gross), (4, .tare), (6, .zero)], (atWord (word 6 e.1) .cleared).reaches .reach (.mark e.1))
      ∧ (∀ e ∈ [(3, WindowKind.gross), (5, .tare), (7, .zero)],
          ((atWord (word 6 e.1) .cleared).setWeigh (weighing e.2)).reaches .reach (.mark e.1)
            ∧ (Window.fresh e.2).kind = e.2 ∧ (weighing e.2).enabled = true)
      ∧ ((atWord (word 6 4) .cleared).setWeigh Weigh.reset).reaches .reach (.mark 4) ∧ Weigh.reset.enabled = false := by
  decide
/-- The last channel of TIP at TIP_TOP, two tips counted. -/
def tipping : State :=
  { lifting .tip 100 with
    shadow := copied [(100, word 6 8), (101, setWord), (17154, 77#32)]
    comps := ⟨{ Comp.reset with tips := 2 }, Comp.reset⟩ }
theorem witness_tip_due :
    tipping.reaches .reach (.mark 8) ∧ tipping.elementAt 101 (.set 250) ∧ tipping.lcc.phase = .run .tip
      ∧ tipping.lcc.ctx = some ctx ∧ tipping.settings.inForce.packAfter ≤ (tipping.comps.comp ctx.target).tips + 1
      ∧ tipping.hasComp ctx.target = true ∧ (tipping.comps.comp ctx.target).stage = .rest ∧ tipping.inter.pto = true
      ∧ tipping.shadow.state = .ready ∧ tipping.journal.starting = false ∧ tipping.packEntry ctx.target = some 77
      ∧ (tipping.chans.get ctx.target.packer).state = .idle ∧ tipping.drive.latches.get ctx.target.packer = none := by
  decide
theorem witness_pack_marks_more :
    (packing (word 6 9) .pack).reaches .packA (.mark 9) ∧ (packing (word 6 11) .pack).reaches .packA (.mark 11)
      ∧ ((packing (word 6 11) .pack).comps.comp .a).shorts ≤ 4
      ∧ ((packing (word 6 11) .pack).comps.comp .a).stroke = none
      ∧ { Comp.reset with stroke := some ⟨true, 200⟩ }.stroke = some ⟨true, 200⟩
      ∧ statusOf 0 0 9000 2 ≠ statusOf 0 1 9000 2 := by decide
/-- An ejection at its END. -/
theorem witness_eject_end :
    (∀ d ∈ [true, false],
        ((ejecting d).setChan .packA { playing .eject with pointer := 50 }).reaches .packA .fin
      ∧ ((ejecting d).comps.comp .a).ejectDone = some d) ∧ ((ejecting true).chans.get .packA).origin = some .eject := by
  decide
/-- The last channel of RAISE at its END with the GROSS window open, for the phase after it. -/
theorem witness_phase_change :
    let s := { lifting .raise 50 with
      shadow := copied [(50, word 8 0), (16402, 100#32), (16408, 100#32)], weigh := weighing .gross }
    s.lastToEnd .reach ∧ s.weigh.window = some (Window.fresh .gross) ∧ s.lcc.ctx = some ctx
      ∧ [.grip] ++ .raise :: ([] ++ .tip :: [.lower, .release, .retract])
          = [ProfilePhase.grip, .raise, .tip, .lower, .release, .retract] ∧ (s.phaseEntry ctx .tip .reach).isSome = true := by decide
/-- A packer at an element that it rejects, in a pack cycle and in an ejection. -/
theorem witness_packer_faults :
    ((packing (word 6 12) .pack).sensed still).packerFaultsAs .packA .markOrder
      ∧ ({ ejecting true with shadow := copied [(100, word 6 9)] }.sensed still).packerFaultsAs .packA .markOrder
      ∧ ({ ejecting false with shadow := copied [(100, word 2 5)] }.sensed still).packerFaultsAs .packA .badElement
      ∧ (packing (word 6 12) .pack).stepping .packA ∧ (ejecting true).stepping .packA
      ∧ ((packing (word 6 12) .pack).comps.comp .a).stage ≠ .ejecting :=
  ⟨⟨rfl, 12, by decide, by decide, .inr (.inl (by decide))⟩, ⟨rfl, 9, by decide, by decide, .inr (.inr (by decide))⟩,
    .inl ⟨rfl, .ramp 5 0, by decide, rfl⟩, by decide, by decide, by decide⟩
/-- A lift in APPROACH whose REACH stands at the last element, a word `w`, its progress `q`. -/
def atLast (w : Word32) (q : Progress) : State :=
  { lifting .approach 16383 with
    shadow := copied [(16383, w)]
    chans := (Six.all Chan.reset).put .reach { playing .cycle with pointer := 16383, progress := q } }
theorem witness_runs_off :
    ((atLast (word 1 250) .cleared).sensed still).faultsAs .reach .badElement
      ∧ ((atLast (word 2 0x303E8) (.ramp 0 2)).sensed still).faultsAs .reach .badElement
      ∧ ((atLast (word 4 1) .cleared).sensed still).faultsAs .reach .badElement
      ∧ (atLast (word 6 0) .cleared).reaches .reach (.mark 0) ∧ (atLast (word 6 0) .cleared).houses.windowOpen = false
      ∧ ((atLast (word 6 0) .cleared).chans.get .reach).pointer = 16383 :=
  ⟨.inr ⟨rfl, .set 250, by decide, .inl ⟨_, rfl⟩, fun _ => by decide⟩, .inr ⟨rfl, .ramp 1000 3, by decide, ⟨_, rfl⟩, nofun⟩,
    .inr ⟨rfl, .hold 1, by decide, .inr (.inr (.inl rfl)), fun _ => by decide⟩, by decide, by decide, by decide⟩
/-- A packer that plays when its coil fails. -/
theorem witness_packer_coil :
    let s := packing setWord .pack
    s.hasChannel .packA = true ∧ 4500 < 4501 ∧ s.drive.latches.get .packA = none
      ∧ (s.chans.get .packA).state = .run .playing ∧ (s.chans.get .packA).origin = some .pack
      ∧ Channel.packed .packA = some .a ∧ (s.comps.comp .a).stage ≠ .ejecting := by decide
theorem witness_speed_added :
    let h := haltedIn .raise ⟨true, false, false, false⟩
    h.lcc.phase = .halted ∧ h.inter.speedOver = false ∧ h.inter.silenceTimer.isSome = true ∧ ready.lcc.phase = .idle
      ∧ State.reset.inter.silenceTimer = none := by decide
/-- PTO comes on with three tips counted. -/
theorem witness_pto_due :
    let s := { tipping with
      inter := { ready.inter with pto := false }, comps := ⟨{ Comp.reset with tips := 3 }, Comp.reset⟩ }
    s.inter.pto = false ∧ s.hasComp .a = true ∧ s.settings.inForce.packAfter ≤ (s.comps.comp .a).tips
      ∧ (s.comps.comp .b).tips < s.settings.inForce.packAfter ∧ (s.comps.comp .a).stage = .rest
      ∧ s.packEntry .a = some 77 := by decide
/-- The decision with the tag window still open. -/
theorem witness_decision_open :
    let s := { deciding (house .byLift none) .noTag with
      lcc := (lifting .approach 50).lcc
      houses := { (deciding (house .byLift none) .noTag).houses with windowOpen := true, tagList := [⟨9#64, 3, 1⟩] } }
    s.lastToEnd .reach ∧ s.houses.windowOpen = true ∧ s.lcc.ctx = some ctx ∧ ctx.decision = none
      ∧ tagResult s.houses.tagList = .winner 9#64 ∧ (s.setEntry (s.slotMap.get 0) .grip .reach).isSome = true
      ∧ (decideLift s.houses s.settings.inForce.untaggedPolicy (.winner 9#64) ctx.stream).decision = .accept := by decide
/-- Lifts at the end of RECOVER, with the household pinned and without; flags of the record set. -/
theorem witness_staged_more :
    let s := { pinnedLift with lcc := { pinnedLift.lcc with
      phase := .run .recover, ctx := pinnedLift.lcc.ctx.map fun (y : LiftCtx) => { y with path := .aborted } } }
    s.lastToEnd .reach ∧ s.lcc.phase = .run .recover ∧ (s.lcc.ctx.map LiftCtx.path) = some .aborted
      ∧ (s.lcc.ctx.bind LiftCtx.pin) = some 9#64 ∧ (s.houses.find 9#64).isSome = true ∧ s.weigh.window = none
      ∧ ((ctx.tare = none) ∧ ctx.gross = none ∧ ctx.pin = none)
      ∧ (house .byLift none).tariff = .byLift ∧ (house .byWeight none).allowance = none := by decide
/-- A record write whose queue holds another record, an erase suspended for it. -/
def writing (slot k : Nat) (x : List Sector) (slots : Slots) : Journal :=
  { recording slot k ⟨.active, false⟩ slots with
    sectors := x, queue := [{ record with seq := 2 }, { record with seq := 3 }], erase := some ⟨5, false⟩ }
theorem witness_next_write :
    let j := writing 1 0 ((List.replicate 32 ⟨.blank, false⟩).set 0 ⟨.active, false⟩) [(0, firstSlot)]
    j.writing = some 1 ∧ (∀ m ∈ List.range 32, (j.sector m).state = .active ↔ m = 0) ∧ j.newestSector = some 0
      ∧ readSlot j.slots 2 = BitVec.allOnes 512 ∧ readSlot j.slots 0 ≠ BitVec.allOnes 512 ∧ 2 / 128 = 0
      ∧ { record with seq := 2 }.bits ≠ BitVec.allOnes 512 ∧ j.erase = some ⟨5, false⟩
      ∧ readSlot j.slots 1 = BitVec.allOnes 512 ∧ committing.lock.write = some (.commit Params.factory 5#32 512#32) := by
  decide
theorem witness_next_sector :
    let j := writing 127 0 (⟨.active, false⟩ :: List.replicate 31 ⟨.blank, false⟩) [(0, firstSlot)]
    j.writing = some 127 ∧ (∀ m ∈ List.range 32, (j.sector m).state = .active → m = 0) ∧ j.newestSector = some 0
      ∧ patternOf { record with seq := 2 }.bits = .valid ∧ slotSeq { record with seq := 2 }.bits = 2
      ∧ (j.slots.all fun e => slotSeq e.2 != 2) = true ∧ (j.sector 1).state = .blank
      ∧ readSlot j.slots (1 * 128) = BitVec.allOnes 512 ∧ (1 + 31 - 0) % 32 = 0 := by decide

/-! ### The scan's walk, and the reclaim -/

/-- A VALID record of a number. -/
def recordOf (n : Nat) : SlotBits := { State.reset.blankRecord .unload with seq := n }.bits
/-- A torn record. -/
def torn : SlotBits := 1#512
/-- Records 1 to 3, each in slot 0 of its sector. -/
def three : Slots := [(0, recordOf 1), (128, recordOf 2), (256, recordOf 3)]
/-- A journal to be scanned, with a release mark of 2 in the first cell. -/
def unscanned (m : Slots) : Journal := { Journal.reset with slots := m, cells := ⟨⟨2, true⟩, MarkCell.blank⟩ }

theorem test_patterns : patternOf (recordOf 1) = .valid ∧ patternOf (recordOf 2) = .valid ∧ patternOf (recordOf 3) = .valid
    ∧ patternOf torn = .damaged ∧ slotSeq (recordOf 1) = 1 ∧ slotSeq (recordOf 2) = 2 ∧ slotSeq (recordOf 3) = 3 := by
  decide +kernel
theorem patternOf_nth {j : Journal} (hm : cellsWf erasedSlot j.slots = true) {k i : Nat} {x : SlotBits}
    (h : (k * 128 + i, x) ∈ j.slots) : j.patternAt k i = patternOf x := by
  rw [Journal.patternAt, show readSlot j.slots (k * 128 + i) = x from readCell_of_mem hm h]
theorem patternOf_other {j : Journal} {k i : Nat} (h : ∀ e ∈ j.slots, e.1 ≠ k * 128 + i) : j.patternAt k i = .blank := by
  rw [Journal.patternAt, show readSlot j.slots (k * 128 + i) = blankSlot from readCell_of_not_mem h, patternOf_blank]

theorem no_frontier {j : Journal} {k p m : Nat} (h : k ≠ m) : ¬ j.FrontierAt (some (k, p)) m := by
  rintro ⟨p', i, hk, -⟩
  cases hk
  exact h rfl

/-- A torn record after the newest one, in a sector that goes on BLANK. -/
theorem witness_walk_torn :
    let j := unscanned [(0, recordOf 1), (1, torn)]
    cellsWf erasedSlot j.slots = true ∧ j.WalksFrom (some (0, 1)) ∧ j.Torn (some (0, 1)) 1 ∧ ¬ j.Torn (some (0, 1)) 0
      ∧ j.FrontierAt (some (0, 1)) 0 ∧ ¬ j.FrontierAt (some (0, 1)) 1 ∧ j.AllBlank 1 := by
  intro j
  have hm : cellsWf erasedSlot j.slots = true := by decide +kernel
  have p0 : j.patternAt 0 0 = .valid := (patternOf_nth hm (.head _)).trans test_patterns.1
  have p1 : j.patternAt 0 1 = .damaged := (patternOf_nth hm (.tail _ (.head _))).trans test_patterns.2.2.2.1
  have p2 : ∀ i, 2 ≤ i → j.patternAt 0 i = .blank := fun i hi => patternOf_other (by simp [j, unscanned]; omega)
  have hw : j.WellFormedAt 0 := ⟨1, 2, by omega, by omega, by omega, fun i hi => by rw [Nat.lt_one_iff.mp hi]; exact .inl p0,
    fun i h1 h2 => by rw [show i = 1 by omega]; exact p1, fun i h _ => p2 i h⟩
  refine ⟨hm, .inl ⟨(0, recordOf 1), ⟨by decide, ⟨.head _, test_patterns.1, nofun⟩, fun f hf hne => ?_⟩, by decide, rfl⟩,
    ⟨0, 1, rfl, rfl, Nat.le_refl _, p1⟩, fun ⟨k, p, hk, _, hp, _⟩ => by cases hk; exact absurd hp (by decide),
    ⟨1, 2, rfl, hw, by omega, by omega, p2 2 (by omega)⟩,
    no_frontier (by decide), fun i hi => patternOf_other (by simp [j, unscanned]; omega)⟩
  have hv := hf.2.1
  have := hf.1
  simp [j, unscanned] at this
  rcases this with rfl | rfl
  · exact absurd rfl hne
  · rw [test_patterns.2.2.2.1] at hv; cases hv

/-- An empty journal: the walk starts in sector 0. -/
theorem witness_walk_empty : (unscanned []).WalksFrom (some (0, 0)) ∧ (unscanned []).FrontierAt (some (0, 0)) 0 := by
  have hb : ∀ k, (unscanned []).AllBlank k := fun k => Journal.allBlank_of_unlisted nofun
  refine ⟨.inr (.inr ⟨fun e h => (nomatch h.1), rfl, by decide, ⟨nofun, (hb 0).wellFormed, fun i hi => by rw [hb 0 i hi]; nofun⟩,
    fun q h hq => absurd hq (by omega)⟩), 0, 0, rfl, (hb 0).wellFormed, Nat.le_refl _, by decide, hb 0 0 (by decide)⟩

/-- A newest record in the last slot of a malformed sector: the walk starts in the sector after it. -/
theorem witness_walk_next :
    let j := unscanned [(127, recordOf 1)]
    j.WalksFrom (some (1, 0)) ∧ ¬ j.WellFormedAt 0 ∧ ¬ j.AllBlank 0 := by
  intro j
  have hm : cellsWf erasedSlot j.slots = true := by decide +kernel
  have p1 : j.patternAt 0 127 = .valid := (patternOf_nth (k := 0) (i := 127) hm (.head _)).trans test_patterns.1
  have p0 : j.patternAt 0 0 = .blank := patternOf_other (by simp [j, unscanned])
  have hb : j.AllBlank 1 := Journal.allBlank_of_unlisted (by simp [j, unscanned])
  refine ⟨.inr (.inl ⟨(127, recordOf 1), ⟨by decide, ⟨.head _, test_patterns.1, nofun⟩, fun f hf hne => ?_⟩, rfl, rfl, by decide,
    ⟨nofun, hb.wellFormed, fun i hi => by rw [hb i hi]; nofun⟩, fun q hq hlt => absurd hlt (by simp)⟩), ?_, fun h => ?_⟩
  · have := hf.1
    simp [j, unscanned] at this
    exact absurd this hne
  · rintro ⟨a, b, h1, h2, h3, h4, h5, h6⟩
    by_cases ha : 0 < a
    · have := h4 0 ha; rw [p0] at this; simp at this
    · have := h6 127 (by omega) (by omega); rw [p1] at this; cases this
  · have := h 127 (by decide); rw [p1] at this; cases this

/-- Every sector malformed by a torn record after a BLANK slot: no walk. -/
theorem witness_walk_none :
    (unscanned ((List.range 32).map fun q => (q * 128 + 1, torn))).WalksFrom none := by
  generalize hj : unscanned ((List.range 32).map fun q => (q * 128 + 1, torn)) = j
  have hs : j.slots = (List.range 32).map fun q => (q * 128 + 1, torn) := by rw [← hj]; rfl
  have hm : cellsWf erasedSlot j.slots = true := by rw [hs]; decide +kernel
  refine .inr (.inr ⟨fun e he => ?_, fun q hq hf => ?_⟩)
  · obtain ⟨h, hv, -⟩ := he
    rw [hs] at h
    obtain ⟨q, -, rfl⟩ := List.mem_map.mp h
    rw [test_patterns.2.2.2.1] at hv; cases hv
  · have p1 : j.patternAt q 1 = .damaged :=
      (patternOf_nth hm (x := torn) (by rw [hs]; exact List.mem_map.mpr ⟨q, List.mem_range.mpr hq, rfl⟩)).trans
        test_patterns.2.2.2.1
    have p0 : j.patternAt q 0 = .blank := patternOf_other (by
      rw [hs]; intro e he; obtain ⟨r, -, rfl⟩ := List.mem_map.mp he; simp; omega)
    exact hf.2.1.blank_after (by decide) p1 (by decide) p0

/-- The scan of three records and a mark of 2: sectors 0 and 1 are spent, sector 2 holds the frontier, sector 0 is erased; and a
sector that the erase note names. -/
theorem witness_scan_reclaim :
    let j := unscanned three
    let u := j.scan
    let c := fun k => k < 32 ∧ j.note ≠ some k ∧ ¬ j.FrontierAt (some (2, 1)) k ∧ ¬ j.AllBlank k ∧ u.Spent k
    cellsWf erasedSlot j.slots = true ∧ j.WalksFrom (some (2, 1)) ∧ u.Lowest c 0 ∧ u.Spent 0 ∧ ¬ u.Spent 2
      ∧ { j with note := some 3 }.note = some 3 := by
  intro j u c
  have hm : cellsWf erasedSlot j.slots = true := by decide +kernel
  have hs : u.slots = three := by decide +kernel
  have hn : u.mark = 2 ∧ u.newest = some 3 := by decide +kernel
  obtain ⟨v1, v2, v3, -, s1, s2, s3⟩ := test_patterns
  have sp : ∀ k, u.Spent k ↔ k ≠ 2 := by
    intro k
    simp only [Journal.Spent, hs, hn.1, hn.2, three, List.mem_cons, List.not_mem_nil, or_false, forall_eq_or_imp, forall_eq,
      s1, s2, s3, v1, v2, v3]
    simp; omega
  have bl : ∀ k, 3 ≤ k → j.AllBlank k := fun k hk => Journal.allBlank_of_unlisted (by simp [j, unscanned, three]; omega)
  have nb : ∀ k x, (k * 128 + 0, x) ∈ three → patternOf x = .valid → ¬ j.AllBlank k := by
    intro k x hx hv h
    have := h 0 (by decide)
    rw [patternOf_nth hm hx, hv] at this; cases this
  refine ⟨hm, .inl ⟨(256, recordOf 3), ⟨by decide, ⟨.tail _ (.tail _ (.head _)), v3, nofun⟩, fun f hf hne => ?_⟩, by decide, rfl⟩,
    ⟨⟨by decide, nofun, no_frontier (by decide), nb 0 (recordOf 1) (.head _) v1, (sp 0).mpr (by decide)⟩,
      (0, recordOf 1), by rw [hs]; exact .head _, rfl, v1, fun m hc hm0 => ?_⟩,
    (sp 0).mpr (by decide), fun h => (sp 2).mp h rfl, rfl⟩
  · have := hf.1
    simp [j, unscanned, three] at this
    rcases this with rfl | rfl | rfl
    · rw [s1, s3]; decide
    · rw [s2, s3]; decide
    · exact absurd rfl hne
  · have : m = 1 := by
      have h2 := (sp m).mp hc.2.2.2.2
      by_contra h1
      exact hc.2.2.2.1 (bl m (by omega))
    subst this
    rw [hs]
    refine ⟨⟨(128, recordOf 2), .tail _ (.head _), rfl, v2⟩, fun f hf hfm hfv => ?_⟩
    simp [three] at hf
    rcases hf with rfl | rfl | rfl
    · cases hfm
    · rw [s1, s2]; decide
    · cases hfm

/-- The three records, sectors 0 and 1 FULL and 2 ACTIVE, a release write to `n` in flight. -/
def releasing (n : Nat) : Journal :=
  { (unscanned three) with
    starting := false, sectors := [⟨.full, false⟩, ⟨.full, false⟩, ⟨.active, false⟩] ++ List.replicate 29 ⟨.blank, false⟩
    newest := some 3, oldest := some 1, nextSeq := 4, release := some ⟨n, false⟩ }
theorem witness_release_reclaim :
    let j := releasing 2
    let u := fun n => (releasing n).finishRelease ⟨n, false⟩
    let c := fun n k => k < 32 ∧ ((j.sector k).state = .reclaimable ∨ ((j.sector k).state = .full ∧ (u n).Spent k))
    j.NewestOnce ∧ j.erase = none ∧ { j with erase := some ⟨5, true⟩ }.erase ≠ none ∧ j.holder = none
      ∧ { j with holder := some Side.b }.holder = some Side.b ∧ (u 2).Spent 0 ∧ (u 2).Lowest (c 2) 0
      ∧ (∀ m, (j.sector m).disregarded = false) ∧ (∀ k, ¬ c 0 k)
      ∧ (j.setSector 4 ⟨.reclaimable, true⟩).sector 4 = ⟨.reclaimable, true⟩
      ∧ ∀ m < 4, (j.setSector 4 ⟨.reclaimable, true⟩).sector m ≠ ⟨.reclaimable, true⟩ := by
  intro j u c
  obtain ⟨v1, v2, v3, -, s1, s2, s3⟩ := test_patterns
  have hu : ∀ n, (u n).slots = three ∧ (u n).mark = n ∧ (u n).newest = some 3 := by
    intro n
    obtain ⟨h, -⟩ := Journal.testAll_spec { releasing n with
      release := none, mark := n, holder := some (releasing n).markTarget
      cells := (releasing n).cells.putSide (releasing n).markTarget ⟨n, true⟩ }
    simp only [u, Journal.finishRelease, Journal.startErase]
    split <;> (rw [h]; exact ⟨rfl, rfl, rfl⟩)
  have sp : ∀ n k, (u n).Spent k ↔ (k = 0 → 1 ≤ n) ∧ (k = 1 → 2 ≤ n) ∧ k ≠ 2 := by
    intro n k
    obtain ⟨h1, h2, h3⟩ := hu n
    simp only [Journal.Spent, h1, h2, h3, three, List.mem_cons, List.not_mem_nil, or_false, forall_eq_or_imp, forall_eq, s1, s2,
      s3, v1, v2, v3]
    simp [eq_comm]
  have sec : ∀ k, j.sector k = if k < 2 then ⟨.full, false⟩ else if k = 2 then ⟨.active, false⟩ else ⟨.blank, false⟩ := by
    intro k
    match k with
    | 0 => rfl
    | 1 => rfl
    | 2 => rfl
    | k + 3 =>
      have : j.sector (k + 3) = ((List.replicate 29 (⟨.blank, false⟩ : Sector))[k]?).getD ⟨.blank, false⟩ := by
        rw [Journal.sector, List.getD_eq_getElem?_getD]; rfl
      rw [this, List.getElem?_replicate]
      by_cases hk : k < 29 <;> simp only [hk, if_true, if_false] <;> rfl
  refine ⟨⟨fun k hk => ?_, fun e he f hf hn hs => ?_⟩, rfl, nofun, rfl, rfl, (sp 2 0).mpr (by decide), ?_,
    fun m => ?_, fun k hk => ?_, rfl,
    fun m hm => ?_⟩
  · rw [sec] at hk; split at hk <;> [cases hk; split at hk <;> cases hk]
  · have h1 := ((j.mem_records e).mp he).1
    have h2 := ((j.mem_records f).mp hf).1
    simp [j, releasing, unscanned, three] at h1 h2
    rcases h1 with rfl | rfl | rfl <;> rcases h2 with rfl | rfl | rfl <;> first | rfl | (simp only [s1, s2, s3] at hs; cases hs)
  · refine ⟨⟨by decide, .inr ⟨rfl, (sp 2 0).mpr (by decide)⟩⟩,
      (0, recordOf 1), by rw [(hu 2).1]; exact .head _, rfl, v1, fun m hc hm0 => ?_⟩
    obtain ⟨-, hc⟩ := hc
    have hm : m = 1 := by
      rw [sec] at hc
      by_contra h1
      rw [if_neg (by omega)] at hc
      by_cases h2 : m = 2 <;> simp [h2] at hc
    subst hm
    rw [(hu 2).1]
    refine ⟨⟨(128, recordOf 2), .tail _ (.head _), rfl, v2⟩, fun f hf hfm hfv => ?_⟩
    simp [three] at hf
    rcases hf with rfl | rfl | rfl
    · cases hfm
    · rw [s1, s2]; decide
    · cases hfm
  · rw [sec]; split <;> [rfl; split <;> rfl]
  · obtain ⟨-, hk⟩ := hk
    rw [sp, sec] at hk
    by_cases h1 : k < 2
    · simp [h1] at hk; omega
    · by_cases h2 : k = 2 <;> simp [h1, h2] at hk
  · rw [j.sector_setSector 4 m, if_neg (by omega), sec]
    split <;> [nofun; split <;> nofun]

/-- A TAG_SEEN frame of the tag line, and frames of another kind, of bad check and of bad length. -/
theorem witness_tag_frame :
    let tag : TagId := 0x1122334455667788#64
    let p := ((List.range 8).map fun i => tag.extractLsb' (8 * i) 8) ++ [200#8]
    let check := fun (kind : Byte) (p : List Byte) => crc16 (BitVec.ofNat 8 (p.length + 1) :: kind :: p)
    let frame := fun (kind : Byte) (p : List Byte) =>
      0x5A#8 :: BitVec.ofNat 8 (p.length + 1) :: kind :: (p ++ [(check kind p).extractLsb' 8 8, (check kind p).extractLsb' 0 8])
    (∀ k ∈ [(64#8, p), (65#8, p), (64#8, [])], check k.1 k.2 = (check k.1 k.2).extractLsb' 8 8 ++ (check k.1 k.2).extractLsb' 0 8)
      ∧ ready.links.tagPartial = [] ∧ p.length = 9
      ∧ State.feed .tagLine { ready with houses := { ready.houses with windowOpen := true } } (frame 64#8 p)
        = after (.tagSeen tag 200#8) { ready with houses := { ready.houses with windowOpen := true } }
      ∧ crc16 [1#8, 64#8] ≠ 0#8 ++ 0#8 ∧ (∀ l ∈ [Line.service, .tagLine], ready.partialOf l = []) ∧ ready.sending = false
      ∧ (ready.setPort .service { PortState.reset with tx := [.indication (.alert .chassisSilent)] }).sending = true := by
  decide +kernel

/-! ### What a full reset cuts, and a frame begun before the part sends -/

/-- A part with stored work in flight: a store job, a metrology write, a record write behind an erase. -/
def inFlight (job : StoreJob) (w : MetroWrite) : State :=
  { ready with
    store := { ready.store with job := some job }, lock := { opened with write := some w }
    journal := writing 3 0 [⟨.active, false⟩] [(0, firstSlot)] }
theorem witness_reset_cuts :
    let s := inFlight (.write 100 [word 1 250]) (.maker false)
    s.store.job = some (.write 100 [word 1 250]) ∧ (inFlight (.erase none) .counter).store.job = some (.erase none)
      ∧ cellsWf erasedWord s.store.words = true ∧ s.lock.write = some (.maker false)
      ∧ (inFlight (.erase none) (.maker true)).lock.write = some (.maker true)
      ∧ (∀ b, (inFlight (.erase none) .counter).lock.write ≠ some (.maker b))
      ∧ cellsWf erasedSlot s.journal.slots = true ∧ s.journal.writing = some 3
      ∧ s.journal.queue = [{ record with seq := 2 }, { record with seq := 3 }]
      ∧ (∀ e, s.journal.erase = some e → 3 / 128 ≠ e.sector ∧ 0 / 128 ≠ e.sector ∧ 639 / 128 ≠ e.sector)
      ∧ s.journal.writing ≠ some 0 := by
  refine ⟨rfl, rfl, by decide, rfl, rfl, by decide, by decide +kernel, rfl, rfl, ?_, by decide⟩
  rintro e h; cases h; decide
/-- A frame of the service line begun before the part sends, the rest of it arriving while it does. -/
theorem witness_frame_begun :
    let f := attrLine 2#8 (crc16 [2#8, 40#8, 7#8])
    let s := { ready with links := { ready.links with
      servicePartial := f.take 4, service := { PortState.reset with tx := [.indication (.alert .chassisSilent)] } } }
    s.sending = true ∧ s.partialOf .service = f.take 4 ∧ f.take 4 ++ f.drop 4 = f ∧ f.take 4 ≠ [] ∧ f.drop 4 ≠ []
      ∧ lineCheck f = true ∧ lengthOk .service 2 = true ∧ (f.drop 2).length = 2 + 2
      ∧ (State.feed .service s (f.drop 4)).links.service.rx.length = 1 := by decide +kernel

/-! ### What the cycle tells -/

/-- A coil latch set on a channel. -/
def latchOn (c : Channel) (s : State) : State :=
  s.setDrive { s.drive with latches := s.drive.latches.put c (some ⟨.a, .openCircuit⟩) }
/-- FAULT alone in the cause set. -/
def faultAlone : Causes := ⟨false, false, false, true⟩
/-- The body link has room for the messages that these commands tell. -/
theorem witness_tells : ready.links.body.onBus = true ∧ ready.links.body.tx.length + 16 ≤ Config.txCapacity := by decide
/-- LIFT while REACH's latch is set. -/
theorem witness_lift_latched :
    let s := ask .console lift (latchOn .reach ready)
    let t := after (.lift (hdr .console) (some ⟨0#8, 0#8, 63#8⟩)) s
    (s.drive.latches.get .reach).isSome = true ∧ s.hasChannel .reach = true
      ∧ s.setEntry (s.slotMap.get 0) .approach .reach = some 100
      ∧ (∀ k ∈ armChannels, k ≠ .reach → s.drive.latches.get k = none)
      ∧ s.lowTold = [] ∧ t.links.body.tx = [phaseTold (.run .approach),
          haltTold (some .approach) faultAlone ((Six.all none).put .reach (some .coil)),
          .answer (hdr .console) 1#8 .clamped 1 1 (.creep 64)]
      ∧ t.chans.get .reach = { Chan.started .cycle 100 64 with state := .fault, fault := some ⟨.coil, 100⟩ } := by decide
theorem witness_expiry_halted :
    let s := haltedIn .raise faultAlone
    s.inter.permitTimer.isSome = true ∧ s.lcc.phase = .halted ∧ s.lcc.causes.permit = false
      ∧ (after .permitExpiry s).links.body.tx = [haltTold (some .raise) ⟨true, false, false, true⟩ (Six.all none)]
      ∧ (haltedIn .raise ⟨true, false, false, false⟩).lcc.causes.permit = true := by decide
/-- A body whose slot 0 has an entry in APPROACH alone. -/
def noEntries : Shadow := copied [(50, word 8 0), (100, setWord), (16384, 100#32)]
theorem witness_empty_recover :
    let s := ask .console (.resume (some ())) { waiting with shadow := noEntries }
    let y := { ctx with path := .aborted }
    (∀ j ∈ armChannels, s.phaseEntry y .recover j = none) ∧ y.path = .aborted ∧ s.weigh.window = none ∧ s.lcc.started = []
      ∧ s.lcc.causes = Causes.none
      ∧ (after (.resume (hdr .console) (some ())) s).links.body.tx = [phaseTold (.run .recover), recordTold 1 .aborted,
          phaseTold .idle, .answer (hdr .console) 3#8 .ok 1 1 .empty] := by decide
theorem witness_abort_empty :
    let s := { lifting .raise 100 with shadow := noEntries }
    let h := { haltedIn .raise faultAlone with shadow := noEntries }
    (∀ j ∈ armChannels, s.phaseEntry ctx .recover j = none ∧ h.phaseEntry ctx .recover j = none)
      ∧ s.lcc.causes.fault = false ∧ s.lcc.ctx = some ctx ∧ h.lcc.haltedPhase = some .raise
      ∧ (∀ u ∈ [s, h], (after (.abort (hdr .console) (some ())) (ask .console (.abort (some ())) u)).links.body.tx
          = [.answer (hdr .console) 4#8 .ok 1 1 .empty, phaseTold (.run .recover), recordTold 1 .aborted, phaseTold .idle]) := by
  decide
theorem witness_quiet :
    (lifting .raise 100).staysQuiet ∧ { ready.inter with speedOver := true, snapshot := some Pins.reset.levels }.snapshot.isSome = true := by
  decide

/-! ### The packers' ways out, and their latches -/

theorem witness_pack_fault :
    let s := ask .console (.pack (some 0#8)) { ready with
      comps := ⟨{ Comp.reset with stage := .fault, fault := some ⟨.coil, 7⟩ }, Comp.reset⟩
      chans := (Six.all Chan.reset).put .packA { playing .pack with state := .fault, fault := some ⟨.coil, 7⟩ } }
    let q := latchOn .packA s
    (s.comps.comp .a).stage = .fault ∧ s.packEntry .a = some 100 ∧ s.drive.latches.get .packA = none
      ∧ (q.drive.latches.get .packA).isSome = true ∧ { s.inter with pto := false }.pto ≠ true
      ∧ ((after (.pack (hdr .console) (some 0#8)) s).comps.comp .a) = { Comp.reset with stage := .sweep }
      ∧ (after (.pack (hdr .console) (some 0#8)) s).chans.packA = Chan.started .pack 100 255
      ∧ (after (.pack (hdr .console) (some 0#8)) q).links.body.tx =
          [alertTold (.packFault .a ⟨.coil, 100⟩), .answer (hdr .console) 6#8 .ok 1 1 .empty] := by decide
theorem witness_unload_latched :
    let s := ask .console (.unload (some 0#8)) (latchOn .packA ready)
    let t := after (.unload (hdr .console) (some 0#8)) s
    (s.drive.latches.get .packA).isSome = true ∧ (s.chans.get .packA).state = .idle ∧ s.journal.canGrant = true
      ∧ t.journal.reserved = 0 ∧ (t.comps.comp .a).lastEject = some .fault
      ∧ t.links.body.tx = [.answer (hdr .console) 7#8 .ok 1 1 .empty, alertTold (.packFault .a ⟨.coil, 100⟩)] := by decide
theorem witness_abort_unload_absent :
    Taken (ask .console (.abortUnload (some 2#8)) ready) (hdr .console) (.abortUnload (some 2#8)) ∧ ready.compNamed 2#8 = none := by
  decide
/-- An ejection at its END with three tips counted. -/
theorem witness_eject_due :
    let s := ((ejecting false).setChan .packA { playing .eject with pointer := 50 }).setComp .a
      { (ejecting false).comps.comp .a with tips := 3 }
    s.reaches .packA .fin ∧ (s.comps.comp .a).ejectDone = some false
      ∧ s.settings.inForce.packAfter ≤ (s.comps.comp .a).tips ∧ s.packEntry .a = some 100
      ∧ s.drive.latches.get .packA = none
      ∧ (after (.stepExpiry .packA still) s).chans.packA = Chan.started .pack 100 255 := by decide

/-! ### Settings, the lock, and phases without an entry -/

theorem witness_settings_at_once :
    let l : List (Byte × BitVec 16) := [(0#8, 1#16), (3#8, 10#16), (4#8, 10#16), (9#8, 800#16)]
    let s := ask .routeTerminal (.settingPut (some l)) { ready with
      comps := ⟨{ Comp.reset with total := 20000000, tips := 1 }, { Comp.reset with total := 20000000 }⟩ }
    let t := after (.settingPut (hdr .routeTerminal) (some l)) s
    settingPairs l = some [(.packAfter, 1), (.limitA, 10), (.limitB, 10), (.idleRpm, 800)]
      ∧ (∀ m ∈ [Compartment.a, .b], s.hasComp m = true ∧ (t.comps.comp m).status ≠ (s.comps.comp m).status)
      ∧ t.settings.inForce.packAfter ≤ (s.comps.comp .a).tips ∧ s.packEntry .a = some 100
      ∧ s.links.chassis.onBus = true ∧ s.links.chassis.tx.length + 2 ≤ 16
      ∧ t.links.chassis.tx = [.payload { t.payloadMsg with statusB := s.payloadMsg.statusB }, .payload t.payloadMsg]
      ∧ t.chans.get .packA = Chan.started .pack 100 255 ∧ (t.comps.comp .b).tips < t.settings.inForce.packAfter
      ∧ s.inter.report.rpm = some 900 ∧ t.drive.qa = s.inter.report.rpm.getD 0 * t.settings.inForce.displacement / 100 := by
  decide
theorem witness_settings_one :
    let l : List (Byte × BitVec 16) := [(3#8, 10#16), (9#8, 800#16)]
    let s := ask .routeTerminal (.settingPut (some l)) { ready with
      inter := { ready.inter with report := { ready.inter.report with rpm := none } }
      comps := ⟨{ Comp.reset with total := 20000000 }, Comp.reset⟩ }
    let t := after (.settingPut (hdr .routeTerminal) (some l)) s
    (t.comps.comp .a).status ≠ (s.comps.comp .a).status ∧ (t.comps.comp .b).status = (s.comps.comp .b).status
      ∧ t.links.chassis.tx = [.payload t.payloadMsg] ∧ t.inter.payloadTimer = 500
      ∧ t.drive.qa = 800 * t.settings.inForce.displacement / 100 ∧ t.drive.usingIdle = true := by decide
theorem witness_identity :
    Taken (locking opened (.openLock (some ⟨2#8, 5#256⟩))) (hdr .calTool) (.openLock (some ⟨2#8, 5#256⟩))
      ∧ 1 < (2#8).toNat ∧ 1 < (255#8).toNat := by decide
/-- GRIP ends where no later phase has an entry, and where RETRACT alone has one. -/
theorem witness_empty_phases :
    let s := { lifting .grip 50 with shadow := noEntries }
    let u := { lifting .grip 50 with shadow := copied [(50, word 8 0), (16420, 100#32)] }
    s.lastToEnd .reach ∧ s.lcc.ctx = some ctx ∧ s.weigh.window = none ∧ u.armReady .reach ∧ u.lastToEnd .reach
      ∧ [] ++ .grip :: [.raise, .tip, .lower, .release, .retract] = [ProfilePhase.grip, .raise, .tip, .lower, .release, .retract]
      ∧ [.grip, .raise, .tip, .lower, .release] ++ .retract :: [] = [ProfilePhase.grip, .raise, .tip, .lower, .release, .retract]
      ∧ [] ++ .grip :: ([.raise, .tip, .lower, .release] ++ .retract :: [])
          = [ProfilePhase.grip, .raise, .tip, .lower, .release, .retract]
      ∧ (∀ e ∈ [ProfilePhase.raise, .tip, .lower, .release, .retract], ∀ j ∈ armChannels, s.phaseEntry ctx e j = none)
      ∧ (∀ e ∈ [ProfilePhase.raise, .tip, .lower, .release], ∀ j ∈ armChannels, u.phaseEntry ctx e j = none)
      ∧ (u.phaseEntry ctx .retract .reach).isSome = true
      ∧ (after (.stepExpiry .reach still) s).links.body.tx
          = [ProfilePhase.raise, .tip, .lower, .release, .retract].map (fun e => phaseTold (.run e))
              ++ [recordTold 1 .lift, phaseTold .idle]
      ∧ (after (.stepExpiry .reach still) u).links.body.tx
          = [ProfilePhase.raise, .tip, .lower, .release, .retract].map (fun e => phaseTold (.run e)) := by
  refine ⟨by decide, rfl, rfl, ⟨fun k => by cases k <;> decide, fun k => by cases k <;> decide⟩, by decide, rfl, rfl, rfl, by decide, by decide,
    by decide, by decide, by decide⟩
/-- REACH in a lift that is halted, that recovers, and that waits to recover, when its coil fails. -/
theorem witness_coil_states :
    let short := Instr.coilShort .reach .a 4501
    let told := alertTold (.coilFault .reach ⟨.a, .shortCircuit⟩)
    let h := haltedIn .raise ⟨true, false, false, false⟩
    (∀ v ∈ [RunState.playing, .holding, .awaiting], ({ playing .cycle with state := .run v }).state = .run v)
      ∧ (h.chans.get .reach).state = .paused ∧ (h.chans.get .reach).origin = some .cycle
      ∧ h.lcc.phase = .halted ∧ h.drive.latches.get .reach = none
      ∧ (after short h).links.body.tx = [haltTold (some .raise) ⟨true, false, false, true⟩ ((Six.all none).put .reach (some .coil)), told]
      ∧ (∀ u ∈ [lifting .recover 100, haltedIn .recover ⟨true, false, false, false⟩],
          (after short u).links.body.tx = [phaseTold .stuck, told] ∧ (after short u).lcc.phase = .stuck)
      ∧ (after short (lifting .raise 100)).links.body.tx
          = [haltTold (some .raise) faultAlone ((Six.all none).put .reach (some .coil)), told] := by decide
/-- PACK_A in an ejection when its coil fails, before EJECT_DONE and after it. -/
theorem witness_eject_coil :
    ∀ d ∈ [true, false],
      ((ejecting d).chans.get .packA).state = .run .playing ∧ ((ejecting d).chans.get .packA).origin = some .eject
        ∧ ((ejecting d).comps.comp .a).stage = .ejecting ∧ ((ejecting d).comps.comp .a).ejectDone = some d
        ∧ ((after (.coilShort .packA .a 4501) (ejecting d)).comps.comp .a).lastEject = some (if d then .done else .fault) := by
  decide
end Sys2Proof.Tests
end

/-! ## FULL_RESET: what it leaves of the stored items whose work it cuts (R53, R54, R109, R167) -/

namespace Sys2Proof

/-- Encoding yields as many bytes as were asked for (R193). -/
@[simp] theorem length_toBytes (n v : Nat) : (toBytes n v).length = n := by
  induction n generalizing v with
  | zero => rfl
  | succ n ih => simp [toBytes, ih]

/-- A list of bytes names a number that they hold. -/
theorem leNat_lt (bs : List Byte) : leNat bs < 256 ^ bs.length := by
  induction bs with
  | nil => simp [leNat]
  | cons b bs ih =>
    have hb : b.toNat < 256 := b.isLt
    rw [leNat, List.length_cons, pow_succ]
    omega

/-- Bytes are read back from the number they name (R193). -/
theorem toBytes_leNat (bs : List Byte) : toBytes bs.length (leNat bs) = bs := by
  induction bs with
  | nil => rfl
  | cons b bs ih =>
    have hb : b.toNat < 256 := b.isLt
    have hdiv : (b.toNat + 256 * leNat bs) / 256 = leNat bs := by omega
    have hmod : BitVec.ofNat 8 (b.toNat + 256 * leNat bs) = b := by
      apply BitVec.eq_of_toNat_eq
      rw [BitVec.toNat_ofNat]
      omega
    simp only [List.length_cons, leNat, toBytes, hdiv, hmod, ih]

end Sys2Proof

namespace Sys2Proof.Machine

/-! ### The store (R53, R54) -/

/-- A word is what it was before the cut, or one that a write in flight had put in its place. -/
abbrev DoneOrNot (m₀ : Words) (base : Nat) (ws : List Word32) (m : Words) : Prop :=
  ∀ a, readCell erasedWord m a = readCell erasedWord m₀ a
    ∨ ∃ i w, a = base + i ∧ ws[i]? = some w ∧ readCell erasedWord m a = w

/-- Writing one more word of the work leaves each word done or not. -/
theorem DoneOrNot.write {m₀ m : Words} {base i : Nat} {ws : List Word32} {w : Word32} (h : DoneOrNot m₀ base ws m)
    (hm : cellsWf erasedWord m = true) (hw : ws[i]? = some w) :
    DoneOrNot m₀ base ws (writeCell erasedWord m (base + i) w) := by
  intro a
  rw [readCell_writeCell hm]
  by_cases ha : a = base + i
  · exact .inr ⟨i, w, ha, hw, if_pos ha⟩
  · simpa only [if_neg ha] using h a

/-- Any words of the work written, each where a free value has it, leave each word done or not. -/
theorem DoneOrNot.writes {m₀ : Words} {base : Nat} {ws : List Word32} (ix : Nat) (l : List (Nat × Word32))
    (hl : ∀ e ∈ l, ws[e.1]? = some e.2) {m : Words} (hm : cellsWf erasedWord m = true) (h : DoneOrNot m₀ base ws m) :
    DoneOrNot m₀ base ws
      (l.foldl (fun m e => if Config.freeNat (ix + e.1) % 2 = 0 then m else writeCell erasedWord m (base + e.1) e.2) m) := by
  induction l generalizing m with
  | nil => exact h
  | cons e l ih =>
    rw [List.foldl_cons]
    have hl' : ∀ f ∈ l, ws[f.1]? = some f.2 := fun f hf => hl f (List.mem_cons_of_mem e hf)
    split
    · exact ih hl' hm h
    · exact ih hl' (writeCell_wf hm _ _) (h.write hm (hl e List.mem_cons_self))

/-- An entry of a list zipped with its positions stands at its position. -/
theorem getElem?_of_mem_zip_range {α : Type} {ws : List α} {e : Nat × α} (h : e ∈ (List.range ws.length).zip ws) :
    ws[e.1]? = some e.2 := by
  obtain ⟨i, hi, he⟩ := List.mem_iff_getElem.mp h
  have hlt : i < ws.length := by simpa using hi
  rw [← he, List.getElem_zip, List.getElem_range]
  exact List.getElem?_eq_getElem hlt

/-- With no work in flight the words stand. -/
theorem cutStore_idle {ix : Nat} {x : Store} (hj : x.job = none) : cutStore ix x = x.words := by
  simp only [cutStore, hj]

/-- A write that was cut leaves each of its words done or not (R53, log 14). -/
theorem cutStore_write {ix base : Nat} {x : Store} {ws : List Word32} (hm : cellsWf erasedWord x.words = true)
    (hj : x.job = some (.write base ws)) : DoneOrNot x.words base ws (cutStore ix x) := by
  simp only [cutStore, hj]
  exact DoneOrNot.writes ix _ (fun _ he => getElem?_of_mem_zip_range he) hm fun _ => .inl rfl

/-- An erase takes a word out of the memory only in the area it erases. -/
theorem mem_area_of_eraseWords {e : Nat × Word32} {area : Option Area} (h : eraseWords [e] area ≠ [e]) :
    ∀ r, area = some r → r.base ≤ e.1 ∧ e.1 < r.base + r.size := by
  rintro r rfl
  by_contra hout
  have hkept : e.1 < r.base ∨ r.base + r.size ≤ e.1 := by omega
  exact h (by simpa [eraseWords, eraseRange] using hkept)

/-- An erase that was cut leaves each word of its area erased or not, and every other word as it stood (R54, log 14). -/
theorem cutStore_erase {ix : Nat} {x : Store} {area : Option Area} (hm : cellsWf erasedWord x.words = true)
    (hj : x.job = some (.erase area)) (a : Nat) :
    readCell erasedWord (cutStore ix x) a = readCell erasedWord x.words a
      ∨ ((∀ r, area = some r → r.base ≤ a ∧ a < r.base + r.size)
          ∧ readCell erasedWord (cutStore ix x) a = erasedWord a) := by
  simp only [cutStore, hj]
  by_cases hin : ∃ e ∈ x.words, e.1 = a
  · obtain ⟨e, he, rfl⟩ := hin
    by_cases hkeep : Config.freeNat (ix + e.1) % 2 = 0 ∨ eraseWords [e] area = [e]
    · left
      rw [readCell_of_mem hm he]
      exact readCell_of_mem (filter_wf hm _) (List.mem_filter.mpr ⟨he, by simpa using hkeep⟩)
    · right
      refine ⟨mem_area_of_eraseWords fun h => hkeep (.inr h), readCell_of_not_mem fun f hf hfe => hkeep ?_⟩
      obtain ⟨hfm, hfk⟩ := List.mem_filter.mp hf
      have hfe2 : f = e := Prod.ext hfe (by rw [← readCell_of_mem hm hfm, hfe, readCell_of_mem hm he])
      simpa [hfe2] using hfk
  · left
    have hout : ∀ e ∈ x.words, e.1 ≠ a := fun e he hea => hin ⟨e, he, hea⟩
    rw [readCell_of_not_mem hout, readCell_of_not_mem fun e he => hout e (List.mem_of_mem_filter he)]

/-! ### The lock's stored items (R101, R109) -/

/-- Bytes are read back from a word that is as wide as they are (R193). -/
theorem bytesOf_leNat {bs : List Byte} {n w : Nat} (hn : bs.length = n) (hw : w = 8 * n) :
    bytesOf n (BitVec.ofNat w (leNat bs)) = bs := by
  have hfits : leNat bs < 2 ^ (8 * bs.length) := by simpa [pow_mul] using leNat_lt bs
  subst hn hw
  rw [bytesOf, BitVec.toNat_ofNat, Nat.mod_eq_of_lt hfits, toBytes_leNat]

/-- A block with its check erased fails it. -/
theorem StoredBlock.good_of_erased {b : StoredBlock} (h : b.check = none) : b.good = false := by
  simp [StoredBlock.good, h]

/-- The block's fields make 33 bytes (R198). -/
theorem length_blockBytes (p : Params) (c : Option Word32) (cal : CalState) (cec : Nat) :
    (blockBytes p c cal cec).length = 33 := by
  simp [blockBytes, signedField]

/-- A block passes the check it was stored with (R101, R198). -/
theorem storedBlock_good (p : Params) (c : Option Word32) (cal : CalState) (cec : Nat) :
    (storedBlock p c cal cec).good = true := by
  have hbytes : bytesOf 33 (storedBlock p c cal cec).contents = blockBytes p c cal cec :=
    bytesOf_leNat (length_blockBytes p c cal cec) rfl
  rw [StoredBlock.good, hbytes]
  simp [storedBlock]

/-- Of the lock a full reset keeps the stored items alone, the counter cell as it stood (R101). -/
theorem Lock.afterReset_frame (ix : Nat) (x : Lock) :
    x.afterReset ix = { Lock.reset with
      block := (x.afterReset ix).block, codeRecord := (x.afterReset ix).codeRecord, counterCell := x.counterCell } := by
  simp only [Lock.afterReset]
  split
  · rfl
  · split <;> rfl
  · rfl

/-- With no maker write in flight the stored items stand (R109, log 15). -/
theorem Lock.afterReset_of_not_maker {ix : Nat} {x : Lock} (hw : ∀ b, x.write ≠ some (.maker b)) :
    x.afterReset ix = { Lock.reset with
      block := x.block, codeRecord := x.codeRecord, counterCell := x.counterCell } := by
  simp only [Lock.afterReset]
  split
  · exact absurd ‹_› (hw false)
  · exact absurd ‹_› (hw true)
  · rfl

/-- A maker write of the code record alone, cut: the record fails its check and the block stands (R109, log 15). -/
theorem Lock.afterReset_code {ix : Nat} {x : Lock} (hw : x.write = some (.maker false)) :
    (x.afterReset ix).block = x.block ∧ (x.afterReset ix).codeRecord.checkGood = false := by
  simp [Lock.afterReset, hw, Lock.eraseCodeCheck]

/-- A maker write of both items, cut in one of them: that one fails its check, the other is not yet or already written
(R109, log 15). -/
theorem Lock.afterReset_both {ix : Nat} {x : Lock} (hw : x.write = some (.maker true)) :
    ((x.afterReset ix).codeRecord.checkGood = false
        ∧ ((x.afterReset ix).block = x.block ∨ (x.afterReset ix).block.good = true))
      ∨ ((x.afterReset ix).block.good = false
        ∧ ((x.afterReset ix).codeRecord = x.codeRecord ∨ (x.afterReset ix).codeRecord = ⟨none, .high, true⟩)) := by
  simp only [Lock.afterReset, hw]
  split
  · exact .inl ⟨rfl, .inl rfl⟩
  · exact .inr ⟨StoredBlock.good_of_erased rfl, .inr rfl⟩
  · exact .inr ⟨StoredBlock.good_of_erased rfl, .inl rfl⟩
  · exact .inl ⟨rfl, .inr (storedBlock_good ..)⟩

/-! ### The journal's slots (R167) -/

/-- The slot of a record write that was cut is BLANK, holds the record, or is DAMAGED (R167, log 12). -/
theorem cutRecord_cases (ix : Nat) (r : Record) :
    cutRecord ix r = BitVec.allOnes 512 ∨ cutRecord ix r = r.bits ∨ patternOf (cutRecord ix r) = .damaged := by
  simp only [cutRecord]
  split
  · exact .inl rfl
  · exact .inr (.inl rfl)
  · split
    · exact .inr (.inr ‹_›)
    · exact .inl rfl

/-- What is written over a sector leaves the slots of every other sector. -/
theorem readSlot_writeSector {m : Slots} (hm : cellsWf erasedSlot m = true) {k n : Nat} (hn : n / 128 ≠ k)
    {vs : List SlotBits} (hvs : vs.length = Config.slotsPerSector) :
    readSlot (writeCells erasedSlot m (k * Config.slotsPerSector) vs) n = readSlot m n := by
  simp only [readSlot, readCell_writeCells vs hm, hvs, Config.slotsPerSector]
  rw [dif_neg (by omega)]

/-- With no work in flight the slots stand. -/
theorem cutSlots_idle {ix : Nat} {j : Journal} (hw : j.writing = none) (he : j.erase = none) :
    cutSlots ix j = j.slots := by
  simp only [cutSlots, hw, he]

/-- Outside a sector whose erase was cut, the slot of a record write holds what the cut left of it (R167). -/
theorem readSlot_cutSlots_written {ix n : Nat} {j : Journal} {r : Record} {rest : List Record}
    (hm : cellsWf erasedSlot j.slots = true) (hn : ∀ e, j.erase = some e → n / 128 ≠ e.sector)
    (hw : j.writing = some n) (hq : j.queue = r :: rest) : readSlot (cutSlots ix j) n = cutRecord ix r := by
  have hwritten : readSlot (writeCell erasedSlot j.slots n (cutRecord ix r)) n = cutRecord ix r := by
    rw [readSlot, readCell_writeCell hm, if_pos rfl]
  simp only [cutSlots, hw, hq]
  split
  next e he => rw [readSlot_writeSector (writeCell_wf hm _ _) (hn e he) (by simp), hwritten]
  next => exact hwritten

/-- Outside a sector whose erase was cut, every slot but that of a record write stands (R167). -/
theorem readSlot_cutSlots_other {ix n : Nat} {j : Journal} (hm : cellsWf erasedSlot j.slots = true)
    (hn : ∀ e, j.erase = some e → n / 128 ≠ e.sector) (hw : j.writing ≠ some n) :
    readSlot (cutSlots ix j) n = readSlot j.slots n := by
  have hother : ∀ i v, j.writing = some i → readSlot (writeCell erasedSlot j.slots i v) n = readSlot j.slots n := by
    intro i v hi
    rw [readSlot, readCell_writeCell hm, if_neg (fun h : n = i => hw (h ▸ hi)), readSlot]
  simp only [cutSlots]
  split
  next e he =>
    split
    next i r rest hi _ => rw [readSlot_writeSector (writeCell_wf hm _ _) (hn e he) (by simp), hother i _ hi]
    next => exact readSlot_writeSector hm (hn e he) (by simp)
  next =>
    split
    next i r rest hi _ => exact hother i _ hi
    next => rfl

/-- Settles O14: the blocks at their reset values by the definition of a full reset; the words of the store, the lock's stored
items and the slots by what a cut leaves of each. -/
theorem fullResetKeepsOnlyStoredItems : Obligations.FullResetKeepsOnlyStoredItems := by
  unfold Obligations.FullResetKeepsOnlyStoredItems
  intro s strap pto
  refine ⟨s.fullReset strap pto, rfl, rfl, rfl, rfl, rfl, rfl, rfl, rfl, rfl, rfl, rfl, rfl, rfl, rfl, rfl,
    ?idleStore, ?idleLock, ?idleJournal, rfl, ?cutStore, Lock.afterReset_frame _ _, ?noMaker, Lock.afterReset_code,
    Lock.afterReset_both, rfl, ?cutJournal⟩
  case idleStore =>
    intro hj
    rw [State.fullReset, Store.afterReset, cutStore_idle hj]
  case idleLock =>
    intro hw
    exact Lock.afterReset_of_not_maker (by simp [hw])
  case idleJournal =>
    intro hw he
    rw [State.fullReset, Journal.afterReset, cutSlots_idle hw he]
  case cutStore =>
    intro hm
    exact ⟨fun _ _ hj => cutStore_write hm hj, fun _ hj => cutStore_erase hm hj⟩
  case noMaker =>
    intro hw
    have hkept : (s.fullReset strap pto).lock = _ := Lock.afterReset_of_not_maker hw
    rw [hkept]
    exact ⟨rfl, rfl, StoredBlock.good_of_erased⟩
  case cutJournal =>
    intro hm n hn
    refine ⟨fun r rest hw hq => ?_, readSlot_cutSlots_other hm hn⟩
    have hslot : readSlot (s.fullReset strap pto).journal.slots n = _ := readSlot_cutSlots_written hm hn hw hq
    rw [hslot]
    exact cutRecord_cases _ r

/-! ## Every command answers a next state and leaves the queue (R1) -/

/-- The queue of commands and the body variant stand. -/
@[simp] def KeepsQueue (s t : State) : Prop := t.pending = s.pending ∧ t.variant = s.variant

/-- What keeps the queue in both branches of a choice keeps it. -/
theorem KeepsQueue.ite {c : Prop} [Decidable c] {s t u : State} (ht : KeepsQueue s t) (hu : KeepsQueue s u) :
    KeepsQueue s (if c then t else u) := by
  split
  · exact ht
  · exact hu

/-- Taking a request from its port keeps the queue. -/
theorem State.take_keepsQueue {s t : State} {h : Header} {r : Request} (ht : s.take h r = some t) : KeepsQueue s t := by
  rcases State.take_eq ht with rfl | ⟨-, rfl⟩ <;> simp

/-- A request whose owner keeps the queue keeps it, whether it is taken, refused or let stand (R186). -/
theorem State.request_keepsQueue {α : Type} {s : State} {h : Header} {r : Request} {b : Payload α}
    {owner : α → State → State} (ho : ∀ f t, KeepsQueue t (owner f t)) : KeepsQueue s (s.request h r b owner) := by
  refine State.request_cases (P := KeepsQueue s) ⟨rfl, rfl⟩ fun t ht => ?_
  obtain ⟨hp, hv⟩ := State.take_keepsQueue ht
  refine ⟨fun c => ?_, fun f _ _ => ?_⟩
  · simp [hp, hv]
  · obtain ⟨hp', hv'⟩ := ho f t
    exact ⟨hp'.trans hp, hv'.trans hv⟩

/-- Every command but FULL_RESET answers a next state and keeps the queue: a request by what its owner keeps, an event by what
its effect keeps, and one that cannot occur since it changes nothing (logs 2, 3). -/
theorem exec_keepsQueue (c : Instr) (hc : ∀ g p, c ≠ .fullReset g p) (s : State) :
    ∃ t, exec c s = .next t ∧ KeepsQueue s t := by
  cases c with
  | fullReset g p => exact absurd rfl (hc g p)
  | lift h b | permit h b | resume h b | abort h b | cycleClear h b | pack h b | unload h b | abortUnload h b
  | faultClear h b | statusGet h b | entryPut h b | entryDrop h b | entryGet h b | tableClear h b | tableReady h b
  | journalRead h b | journalRelease h b | timeSet h b | slotMap h b | settingPut h b | settingGet h b | freezeLock h b
  | closeLock h b | setCode h b | trialSet h b | trialDiscard h b | commit h b | serviceZero h b | liveWeight h b
  | attrRead h b | profileWrite h b | profileErase h b | shadowLoad h b | chassisState h b =>
    exact ⟨_, rfl, State.request_keepsQueue fun _ _ => by simp⟩
  | openLock h b w =>
    have hseen : KeepsQueue (s.setPins { s.pins with lockWireOpen := w }) _ :=
      State.request_keepsQueue (h := h) (r := .openLock b) (b := b) (owner := State.takeOpen h) fun _ _ => by simp
    exact ⟨_, rfl, by simpa using hseen⟩
  | unknownKind h k =>
    refine ⟨_, rfl, ?_⟩
    split
    · obtain ⟨hp, hv⟩ := State.take_keepsQueue ‹_›
      simp [hp, hv]
    · simp
  | frameArrival f | messageSent p | serviceByteGap l | tagLineBreak | busOff p | linkReset p | tagSeen tag n
  | profileWriteDone | profileEraseDone | shadowLoadDone | commitWriteDone | recordWriteDone | sectorEraseDone
  | inclinometerReading x y | inclinometerStale | watchedInputChange w v | payloadTimerExpiry | secondTick
  | lineByteArrival l b => exact ⟨_, rfl, by simp⟩
  | settingsReadDone | metrologyReadDone | storeVerifyDone | journalScanDone | samplePair x y | pressureReading k p
  | ptoChange on | permitExpiry | silenceExpiry | coilOnTimeEnd k d | coilShort k d n =>
    exact ⟨_, rfl, .ite (by simp) (by simp)⟩
  | coilPeriodStart k d n => exact ⟨_, rfl, .ite (.ite (by simp) (by simp)) (by simp)⟩
  | counterWriteDone | verifyWriteDone | makerWriteDone | codeWriteDone | settingsWriteDone | releaseWriteDone =>
    refine ⟨_, rfl, ?_⟩
    split <;> simp
  | stepExpiry k x =>
    refine ⟨_, rfl, ?_⟩
    split
    · exact .ite (by simp) (by simp)
    all_goals simp

/-- Settles O2: FULL_RESET by its definition, every other command by `exec_keepsQueue`. -/
theorem commandsCompleteAndLeaveQueue : Obligations.CommandsCompleteAndLeaveQueue := by
  unfold Obligations.CommandsCompleteAndLeaveQueue
  intro c s
  by_cases hc : ∃ g p, c = .fullReset g p
  · obtain ⟨g, p, rfl⟩ := hc
    exact ⟨s.fullReset g p, rfl, rfl, fun h => absurd rfl (h g p)⟩
  · have hne : ∀ g p, c ≠ .fullReset g p := fun g p h => hc ⟨g, p, h⟩
    obtain ⟨t, hexec, hqueue, hvariant⟩ := exec_keepsQueue c hne s
    exact ⟨t, hexec, hqueue, fun _ => hvariant⟩

end Sys2Proof.Machine

namespace Sys2Proof.Machine

/-! ## One step expiry (R30 to R41) -/

/-! ### Replacing one part twice -/

/-- Of two replacements of one channel's value the later stands. -/
@[simp] theorem Six.put_put {α : Type} (x : Six α) (c : Channel) (v w : α) : (x.put c v).put c w = x.put c w := by
  cases c <;> rfl

/-- Putting back a channel's value changes nothing. -/
@[simp] theorem Six.put_get {α : Type} (x : Six α) (c : Channel) : x.put c (x.get c) = x := by
  cases c <;> rfl

/-- Of two replacements of one compartment's value the later stands. -/
@[simp] theorem Two.putComp_putComp {α : Type} (x : Two α) (c : Compartment) (v w : α) :
    (x.putComp c v).putComp c w = x.putComp c w := by
  cases c <;> rfl

/-- Putting back a compartment's value changes nothing. -/
@[simp] theorem Two.putComp_comp {α : Type} (x : Two α) (c : Compartment) : x.putComp c (x.comp c) = x := by
  cases c <;> rfl

/-- Of two replacements of one channel's record the later stands. -/
@[simp] theorem State.setChan_setChan (s : State) (c : Channel) (r q : Chan) :
    (s.setChan c r).setChan c q = s.setChan c q := by
  simp [State.setChan, State.setChans]

/-- Of two replacements of one compartment's record the later stands. -/
@[simp] theorem State.setComp_setComp (s : State) (c : Compartment) (x y : Comp) :
    (s.setComp c x).setComp c y = s.setComp c y := by
  simp [State.setComp, State.setComps]

/-! ### An expiry and the element it meets (R31, R32) -/

/-- The sensors seen at an expiry leave the channels. -/
@[simp] theorem State.sensed_chans (s : State) (x : Sensors) : (s.sensed x).chans = s.chans := rfl

/-- The sensors seen at an expiry leave every other block but the inputs. -/
@[simp] theorem State.sensed_frame (s : State) (x : Sensors) :
    (s.sensed x).pending = s.pending ∧ (s.sensed x).variant = s.variant ∧ (s.sensed x).links = s.links
      ∧ (s.sensed x).settings = s.settings ∧ (s.sensed x).lcc = s.lcc ∧ (s.sensed x).store = s.store
      ∧ (s.sensed x).shadow = s.shadow ∧ (s.sensed x).slotMap = s.slotMap ∧ (s.sensed x).drive = s.drive
      ∧ (s.sensed x).weigh = s.weigh ∧ (s.sensed x).lock = s.lock ∧ (s.sensed x).houses = s.houses
      ∧ (s.sensed x).comps = s.comps ∧ (s.sensed x).journal = s.journal ∧ (s.sensed x).inter = s.inter
      ∧ (s.sensed x).freeIx = s.freeIx := by
  simp [State.sensed]

/-- With the step timer running, an expiry works the element that the channel is in (R30, R31). -/
theorem exec_stepExpiry {s : State} {c : Channel} (x : Sensors) (h : s.stepping c) :
    exec (.stepExpiry c x) s = .next (((s.sensed x).continueElement c (s.chans.get c)).refresh) := by
  obtain ⟨hpresent, hrunning⟩ := h
  cases hstate : (s.chans.get c).state with
  | run y =>
    have hexpire : (s.sensed x).expire c = (s.sensed x).continueElement c (s.chans.get c) := by
      simp [State.expire, hstate]
    rw [← hexpire]
    change Host.Outcome.next _ = _
    simp only [hstate, hpresent, if_true]
    rfl
  | idle | paused | fault => simp [hstate, ChanState.running] at hrunning

/-- With its progress cleared, a channel reaches the element at its pointer (R31). -/
theorem State.continueElement_cleared {s : State} {c : Channel} {r : Chan} (h : r.progress = .cleared) :
    s.continueElement c r = s.reach reachBound c := by
  simp only [State.continueElement, h]

/-- An expiry that works one more step inside an element and leaves a new record of its channel, nothing else (R31, R67). -/
theorem exec_moved_of_inside {s : State} {c : Channel} {x : Sensors} {e : Element} {p : Progress} {q : Chan}
    (h : s.inside c e p)
    (hq : (s.sensed x).inside c e p →
      (s.sensed x).continueElement c ((s.sensed x).chans.get c) = (s.sensed x).setChan c q) :
    exec (.stepExpiry c x) s = .next (s.moved c x q) := by
  rw [exec_stepExpiry x h.1, State.moved, ← hq h, State.sensed_chans]

/-- An expiry that reaches an element and leaves a new record of its channel, nothing else (R31, R67). -/
theorem exec_moved_of_reaches {s : State} {c : Channel} {x : Sensors} {e : Element} {q : Chan} (h : s.reaches c e)
    (hq : (s.sensed x).elementAt ((s.sensed x).chans.get c).pointer e →
      (s.sensed x).reach reachBound c = (s.sensed x).setChan c q) :
    exec (.stepExpiry c x) s = .next (s.moved c x q) := by
  obtain ⟨hstep, hprogress, helement⟩ := h
  rw [exec_stepExpiry x hstep, State.continueElement_cleared hprogress, State.moved, hq helement]

/-- The element area as a bound leaves an expiry more than two elements to reach (R31). -/
theorem reachBound_eq : reachBound = 16383 + 1 + 1 := rfl

section reach
variable {s : State} {c : Channel} {n : Nat}

theorem State.reach_set {v : Int} (he : s.elementAt (s.chans.get c).pointer (.set v)) (hv : -1000 ≤ v ∧ v ≤ 1000) :
    s.reach (n + 1) c = s.completeElement c v := by
  obtain ⟨hcheck, hdecode⟩ := he
  simp [State.reach, hcheck, hdecode, Element.valid, within, hv]

theorem State.reach_ramp {target : Int} {k : Nat} (he : s.elementAt (s.chans.get c).pointer (.ramp target k))
    (hv : -1000 ≤ target ∧ target ≤ 1000) (hk : 1 ≤ k) :
    s.reach (n + 1) c = s.rampStep c (s.chans.get c).u target 1 k := by
  obtain ⟨hcheck, hdecode⟩ := he
  simp [State.reach, hcheck, hdecode, Element.valid, within, hv, Nat.ne_of_gt hk]

theorem State.reach_delta4 {d1 d2 d3 d4 : Int} {scale : Nat}
    (he : s.elementAt (s.chans.get c).pointer (.delta4 d1 d2 d3 d4 scale)) :
    s.reach (n + 1) c = s.deltaAt c d1 scale 1 := by
  obtain ⟨hcheck, hdecode⟩ := he
  simp [State.reach, hcheck, hdecode, Element.valid]

theorem State.reach_hold {k : Nat} (he : s.elementAt (s.chans.get c).pointer (.hold k)) (hk : 1 ≤ k) :
    s.reach (n + 1) c = s.holdStep c k := by
  obtain ⟨hcheck, hdecode⟩ := he
  simp [State.reach, hcheck, hdecode, Element.valid, Nat.ne_of_gt hk]

theorem State.continueElement_ramp {r : Chan} {u0 target : Int} {k m : Nat} (hp : r.progress = .ramp u0 k)
    (hd : decodeElement (s.elementWord r.pointer) = .ramp target m) :
    s.continueElement c r = s.rampStep c u0 target (k + 1) m := by
  simp only [State.continueElement, hp, hd]

theorem State.continueElement_hold {r : Chan} {k : Nat} (hp : r.progress = .hold k) :
    s.continueElement c r = s.holdStep c k := by
  simp only [State.continueElement, hp]

/-- The delta that follows `k` steps of a DELTA4, the first of them taken (R35). -/
def deltaAfter (d2 d3 d4 : Int) : Nat → Int
  | 1 => d2
  | 2 => d3
  | _ => d4

theorem State.continueElement_delta4 {r : Chan} {d1 d2 d3 d4 : Int} {scale k : Nat} (hp : r.progress = .delta4 k)
    (hk : 1 ≤ k ∧ k ≤ 3) (hd : decodeElement (s.elementWord r.pointer) = .delta4 d1 d2 d3 d4 scale) :
    s.continueElement c r = s.deltaAt c (deltaAfter d2 d3 d4 k) scale (k + 1) := by
  obtain ⟨hlo, hhi⟩ := hk
  interval_cases k <;> simp only [State.continueElement, hp, hd, deltaAfter]

end reach

/-! ### The last step of an element, and the steps before it (R31, R34 to R36) -/

section steps
variable {s : State} {c : Channel}

/-- Below 16,383 the pointer is raised by 1 (R31). -/
theorem State.advance_below (hp : (s.chans.get c).pointer < 16383) :
    s.advance c = (s.setChan c { s.chans.get c with pointer := (s.chans.get c).pointer + 1 }, true) := by
  have hnext : advanced (s.chans.get c).pointer = some ((s.chans.get c).pointer + 1) := if_pos hp
  simp only [State.advance, hnext]

/-- Below 16,383 the last step of an element leaves the channel at the next one (R31). -/
theorem State.completeElement_below (hp : (s.chans.get c).pointer < 16383) (u : Int) :
    s.completeElement c u = s.setChan c ((s.chans.get c).nextElement u) := by
  rw [State.completeElement, State.advance_below (by simpa using hp)]
  simp [Chan.nextElement]

/-- Step `k` of a RAMP of `n` steps; the last one gives its target (R34). -/
theorem State.rampStep_below (hp : (s.chans.get c).pointer < 16383) (u0 target : Int) {k n : Nat} (hk : 0 < k)
    (hkn : k ≤ n) :
    s.rampStep c u0 target k n = s.setChan c (if k = n then (s.chans.get c).nextElement target else
      { s.chans.get c with state := .run .playing, u := u0 + ((target - u0) * k).tdiv n, progress := .ramp u0 k }) := by
  rcases Nat.lt_or_eq_of_le hkn with hlt | rfl
  · rw [if_neg hlt.ne, State.rampStep, if_pos hlt]
    rfl
  · have hlast : rampAt u0 target k k = target := by
      rw [rampAt, truncDiv, Int.mul_tdiv_cancel _ (by omega)]
      omega
    rw [if_pos rfl, State.rampStep, if_neg (Nat.lt_irrefl k), State.completeElement_below hp, hlast]

/-- The scale code of a decoded DELTA4 has two bits (R195). -/
theorem scale_lt_of_decodeElement {w : Word32} {d1 d2 d3 d4 : Int} {scale : Nat}
    (h : decodeElement w = .delta4 d1 d2 d3 d4 scale) : scale < 4 := by
  simp only [decodeElement] at h
  split at h <;> cases h
  exact (w.extractLsb' 16 2).isLt

/-- The multiplier of a scale code is a power of 4 (R35). -/
theorem multiplier_eq_pow {scale : Nat} (h : scale < 4) : multiplier scale = 4 ^ scale := by
  interval_cases scale <;> rfl

/-- A step of a DELTA4 saturates at ±1,000 (R35). -/
theorem deltaStep_eq {scale : Nat} (h : scale < 4) (u d : Int) :
    deltaStep u d scale = max (-1000) (min 1000 (u + d * 4 ^ scale)) := by
  rw [deltaStep, multiplier_eq_pow h, clampTo]
  split
  · omega
  · split <;> omega

/-- Step `k` of a DELTA4 (R35). -/
theorem State.deltaAt_below (hp : (s.chans.get c).pointer < 16383) {scale k : Nat} (hs : scale < 4) (hk : k ≤ 4) (d : Int) :
    s.deltaAt c d scale k = s.setChan c
      (if k = 4 then (s.chans.get c).nextElement (max (-1000) (min 1000 ((s.chans.get c).u + d * 4 ^ scale))) else
        { s.chans.get c with
          state := .run .playing, u := max (-1000) (min 1000 ((s.chans.get c).u + d * 4 ^ scale)), progress := .delta4 k }) := by
  rw [← deltaStep_eq hs]
  rcases Nat.lt_or_eq_of_le hk with hlt | rfl
  · rw [if_neg hlt.ne, State.deltaAt, if_pos hlt]
    rfl
  · rw [if_pos rfl, State.deltaAt, if_neg (Nat.lt_irrefl 4), State.completeElement_below hp]

/-- A step of a HOLD with `n` steps left; the last one goes on with the command as it stands (R36). -/
theorem State.holdStep_below (hp : (s.chans.get c).pointer < 16383) {n : Nat} (hn : 1 ≤ n) :
    s.holdStep c n = s.setChan c (if n = 1 then (s.chans.get c).nextElement (s.chans.get c).u else
      { s.chans.get c with state := .run .holding, progress := .hold (n - 1) }) := by
  rcases Nat.lt_or_eq_of_le hn with hlt | rfl
  · rw [if_neg hlt.ne', State.holdStep, if_pos hlt]
    rfl
  · rw [if_pos rfl, State.holdStep, if_neg (Nat.lt_irrefl 1), State.completeElement_below hp]

end steps

/-- Settles O47: the element met is performed by one of its steps, each of which is one record of its channel. -/
theorem elementsTakeTheirSteps : Obligations.ElementsTakeTheirSteps := by
  unfold Obligations.ElementsTakeTheirSteps
  rintro s c x r rfl hp
  have hb : ((s.sensed x).chans.get c).pointer < 16383 := hp
  refine ⟨fun v h hlo hhi => exec_moved_of_reaches h fun he => ?set,
    fun target n h hlo hhi hn => exec_moved_of_reaches h fun he => ?ramp,
    fun target u0 n k h hk => exec_moved_of_inside h ?rampOn, fun d1 d2 d3 d4 scale u hu => ?delta,
    fun n h hn => exec_moved_of_reaches h fun he => ?hold, fun e n h hn => exec_moved_of_inside h ?holdOn⟩
  case set => rw [reachBound_eq, State.reach_set he ⟨hlo, hhi⟩, State.completeElement_below hb, State.sensed_chans]
  case ramp =>
    rw [reachBound_eq, State.reach_ramp he ⟨hlo, hhi⟩ hn, State.rampStep_below hb _ _ Nat.one_pos hn]
    simp [eq_comm (a := 1)]
  case rampOn =>
    rintro ⟨-, hprogress, hdecode⟩
    rw [State.continueElement_ramp hprogress hdecode, State.rampStep_below hb _ _ k.succ_pos hk]
    simp
  case delta =>
    obtain rfl : u = fun d => max (-1000) (min 1000 ((s.chans.get c).u + d * 4 ^ scale)) := funext hu
    refine ⟨fun h => exec_moved_of_reaches h fun he => ?first, fun h => exec_moved_of_inside h ?second,
      fun h => exec_moved_of_inside h ?third, fun h => exec_moved_of_inside h ?fourth⟩
    case first =>
      rw [reachBound_eq, State.reach_delta4 he, State.deltaAt_below hb (scale_lt_of_decodeElement he.2) (by decide)]
      simp
    case second | third | fourth =>
      rintro ⟨-, hprogress, hdecode⟩
      rw [State.continueElement_delta4 hprogress (by decide) hdecode,
        State.deltaAt_below hb (scale_lt_of_decodeElement hdecode) (by decide)]
      simp [deltaAfter]
  case hold => rw [reachBound_eq, State.reach_hold he hn, State.holdStep_below hb hn, State.sensed_chans]
  case holdOn =>
    rintro ⟨-, hprogress, -⟩
    rw [State.continueElement_hold hprogress, State.holdStep_below hb hn, State.sensed_chans]

/-! ## Elements that take no step (R31, R37, R39 to R41) -/

/-! ### A SET after the element at the pointer -/

/-- The element after the one at a channel's pointer is a SET of `v` that passes its tests (R31 to R33). -/
def State.setFollows (s : State) (c : Channel) (v : Int) : Prop :=
  (s.chans.get c).pointer < 16382 ∧ (-1000 ≤ v ∧ v ≤ 1000) ∧ s.elementAt ((s.chans.get c).pointer + 1) (.set v)

/-- The sensors seen at an expiry do not change the elements. -/
theorem State.setFollows.sensed {s : State} {c : Channel} {v : Int} (h : s.setFollows c v) (x : Sensors) :
    (s.sensed x).setFollows c v := h

/-- The elements are those of the shadow (R57). -/
theorem State.elementAt_of_shadow {s t : State} (h : t.shadow = s.shadow) {a : Nat} {e : Element}
    (he : s.elementAt a e) : t.elementAt a e := by
  simpa only [State.elementAt, State.elementWord, State.elementStored, State.tables, h] using he

/-- A channel record past an element that takes no step and the SET of `v` after it (R31, R33). -/
def Chan.nextTwo (r : Chan) (v : Int) : Chan := { r.nextElement v with pointer := r.pointer + 2 }

/-- A channel at the SET that followed goes on past it (R33). -/
theorem State.reach_followed {s t : State} {c : Channel} {v : Int} {q : Chan} {n : Nat} (hf : s.setFollows c v)
    (ht : t.shadow = s.shadow) (hq : q.pointer = (s.chans.get c).pointer + 1) :
    (t.setChan c q).reach (n + 1) c = t.setChan c (q.nextElement v) := by
  obtain ⟨hp, hv, hset⟩ := hf
  have hat : (t.setChan c q).elementAt (((t.setChan c q).chans.get c).pointer) (.set v) := by
    simpa [hq] using State.elementAt_of_shadow (t := t.setChan c q) ht hset
  rw [State.reach_set hat hv, State.completeElement_below (by simp [hq]; omega)]
  simp

section reach
variable {s : State} {c : Channel} {n : Nat}

/-- A STEP sets the interval and lets the next element be reached (R37). -/
theorem State.reach_step {i : Nat} (he : s.elementAt (s.chans.get c).pointer (.step i)) (hi : 1 ≤ i)
    (hp : (s.chans.get c).pointer < 16383) :
    s.reach (n + 1) c
      = (s.setChan c { (s.chans.get c).nextElement (s.chans.get c).u with interval := i }).reach n c := by
  obtain ⟨hcheck, hdecode⟩ := he
  simp [State.reach, hcheck, hdecode, Element.valid, Nat.ne_of_gt hi, State.advance_below, hp, Chan.nextElement]

/-- A mark's code is one of R39's. -/
theorem code_le_of_deliver {t : State} {code : Nat} (h : s.deliver c code = some t) : code ≤ 12 := by
  by_contra hbig
  obtain ⟨k, rfl⟩ : ∃ k, code = k + 13 := ⟨code - 13, by omega⟩
  cases h

/-- A mark that its owner takes, leaving the channel's record, lets the next element be reached (R39). -/
theorem State.reach_mark {t : State} {code : Nat} (he : s.elementAt (s.chans.get c).pointer (.mark code))
    (hd : s.deliver c code = some t) (ht : t.chans.get c = s.chans.get c) (hp : (s.chans.get c).pointer < 16383) :
    s.reach (n + 1) c = (t.setChan c ((s.chans.get c).nextElement (s.chans.get c).u)).reach n c := by
  obtain ⟨hcheck, hdecode⟩ := he
  simp [State.reach, hcheck, hdecode, Element.valid, code_le_of_deliver hd, hd, State.mapChan, State.advance_below, hp,
    ht, Chan.nextElement]

/-- An AWAIT that holds lets the next element be reached, its deadline cleared (R41). -/
theorem State.passAwait_below (hp : (s.chans.get c).pointer < 16383) :
    s.passAwait c
      = (s.setChan c { (s.chans.get c).nextElement (s.chans.get c).u with deadline := none }, true) := by
  simp [State.passAwait, State.mapChan, State.advance_below, hp, Chan.nextElement]

theorem State.reach_await {cond timeout : Nat} (he : s.elementAt (s.chans.get c).pointer (.await cond timeout))
    (hc : s.holds c (s.chans.get c).origin cond = true) (hp : (s.chans.get c).pointer < 16383) :
    s.reach (n + 1) c
      = (s.setChan c { (s.chans.get c).nextElement (s.chans.get c).u with deadline := none }).reach n c := by
  obtain ⟨hcheck, hdecode⟩ := he
  simp [State.reach, hcheck, hdecode, Element.valid, hc, State.passAwait_below hp]

theorem State.continueElement_await {cond timeout : Nat} {saved : Int} (h : s.inside c (.await cond timeout) (.await saved))
    (hc : s.holds c (s.chans.get c).origin cond = true) (hp : (s.chans.get c).pointer < 16383) :
    s.continueElement c (s.chans.get c)
      = (s.setChan c { (s.chans.get c).nextElement (s.chans.get c).u with deadline := none }).reach reachBound c := by
  obtain ⟨-, hprogress, hdecode⟩ := h
  simp only [State.continueElement, hprogress, hdecode, hc, if_true, State.passAwait_below hp]

end reach

section exec
variable {s : State} {c : Channel} {x : Sensors} {v : Int}

/-- A STEP and the SET after it are one expiry (R31, R37). -/
theorem exec_step_set {i : Nat} (hf : s.setFollows c v) (h : s.reaches c (.step i)) (hi : 1 ≤ i) :
    exec (.stepExpiry c x) s = .next (s.moved c x { (s.chans.get c).nextTwo v with interval := i }) :=
  exec_moved_of_reaches h fun he => by
    rw [reachBound_eq, State.reach_step he hi (Nat.lt_succ_of_lt hf.1), State.reach_followed (hf.sensed x) rfl]
    · rfl
    · rfl

/-- A mark that its owner takes and the SET after it are one expiry (R31, R39). -/
theorem exec_mark_set {t : State} {code : Nat} (hf : s.setFollows c v) (h : s.reaches c (.mark code))
    (hd : (s.sensed x).deliver c code = some t) (ht : t.chans.get c = s.chans.get c) :
    exec (.stepExpiry c x) s = .next ((t.setChan c ((s.chans.get c).nextTwo v)).refresh) := by
  obtain ⟨hstep, hprogress, he⟩ := h
  obtain ⟨-, -, -, -, -, hshadow, -⟩ := State.deliver_frame hd
  rw [exec_stepExpiry x hstep, State.continueElement_cleared hprogress, reachBound_eq,
    State.reach_mark (s := s.sensed x) he hd ht (Nat.lt_succ_of_lt hf.1), State.reach_followed (hf.sensed x) hshadow]
  · rfl
  · rfl

/-- An AWAIT that holds when it is met and the SET after it are one expiry (R31, R41). -/
theorem exec_await_set {cond timeout : Nat} {saved : Int} (hf : s.setFollows c v)
    (hc : (s.sensed x).holds c (s.chans.get c).origin cond = true)
    (h : s.reaches c (.await cond timeout) ∨ s.inside c (.await cond timeout) (.await saved)) :
    exec (.stepExpiry c x) s = .next (s.moved c x { (s.chans.get c).nextTwo v with deadline := none }) := by
  have hp : ((s.sensed x).chans.get c).pointer < 16383 := Nat.lt_succ_of_lt hf.1
  rcases h with h | h
  · refine exec_moved_of_reaches h fun he => ?_
    rw [reachBound_eq, State.reach_await he hc hp, State.reach_followed (hf.sensed x) rfl]
    · rfl
    · rfl
  · refine exec_moved_of_inside h fun hin => ?_
    rw [State.continueElement_await hin hc hp, reachBound_eq, State.reach_followed (hf.sensed x) rfl]
    · rfl
    · rfl

end exec

/-! ### The owners' part of a mark (R40) -/

section marks
variable {s : State} {c : Channel}

theorem State.deliver_tagOpen (ho : (s.chans.get c).origin = some .cycle) (hw : s.houses.windowOpen = false) :
    s.deliver c 0 = some (s.setHouses { s.houses with windowOpen := true }) :=
  if_pos ⟨ho, hw⟩

/-- The marks that open a weigh window, by the kind they open (R40). -/
theorem State.deliver_open {code : Nat} {kind : WindowKind}
    (hk : code = 2 ∧ kind = .gross ∨ code = 4 ∧ kind = .tare ∨ code = 6 ∧ kind = .zero)
    (ho : (s.chans.get c).origin = some .cycle) (hw : s.weigh.enabled = false ∨ s.weigh.window = none) :
    s.deliver c code = some (s.openWindow kind) := by
  have hopen : s.openMark kind (s.chans.get c).origin = some (s.openWindow kind) := if_pos ⟨ho, hw⟩
  rw [← hopen]
  rcases hk with ⟨rfl, rfl⟩ | ⟨rfl, rfl⟩ | ⟨rfl, rfl⟩ <;> rfl

/-- The context told of a window of a kind while the engine is DISABLED (R95). -/
theorem LiftCtx.openedDisabled_eq (y : LiftCtx) (kind : WindowKind) :
    y.openedDisabled kind = { y with
      grossDisabled := y.grossDisabled || Decidable.decide (kind = .gross)
      tareDisabled := y.tareDisabled || Decidable.decide (kind = .tare) } := by
  cases kind <;> simp [LiftCtx.openedDisabled]

theorem State.openWindow_enabled (he : s.weigh.enabled = true) (kind : WindowKind) :
    s.openWindow kind = s.setWeigh (s.weigh.openWindow kind) := if_pos he

theorem State.openWindow_disabled (he : s.weigh.enabled = false) (kind : WindowKind) :
    s.openWindow kind = s.mapCtx fun y => { y with
      grossDisabled := y.grossDisabled || Decidable.decide (kind = .gross)
      tareDisabled := y.tareDisabled || Decidable.decide (kind = .tare) } := by
  simp only [State.openWindow, he, Bool.false_eq_true, if_false, LiftCtx.openedDisabled_eq]

/-- The marks that close a weigh window, by the kind they close (R40). -/
theorem State.deliver_close {code : Nat} {kind : WindowKind}
    (hk : code = 3 ∧ kind = .gross ∨ code = 5 ∧ kind = .tare ∨ code = 7 ∧ kind = .zero)
    (ho : (s.chans.get c).origin = some .cycle) :
    s.deliver c code = if s.weigh.enabled = true then
        (if s.weigh.window.map Window.kind = some kind then some s.closeWindow else none)
      else some s := by
  have hclose : s.closeMark kind (s.chans.get c).origin = _ := if_pos ho
  rw [← hclose]
  rcases hk with ⟨rfl, rfl⟩ | ⟨rfl, rfl⟩ | ⟨rfl, rfl⟩ <;> rfl

/-- The open window closed: the flags in the context and the outcome in the list by its kind, and no window after it (R85,
R114). -/
theorem State.closeWindow_eq {w : Window} (hw : s.weigh.window = some w) :
    s.closeWindow = ((s.setWeigh { s.weigh with window := none, settle := [], hold := false }).setLcc
      { s.lcc with ctx := s.lcc.ctx.map fun y => y.windowEnds (some w) }).setLock
      { s.lock with outcomes := endOutcomes s.lock.outcomes (some w) } := by
  cases hkind : w.kind with
  | zero =>
    have hsame : (s.lcc.ctx.map fun y => y.windowEnds (some w)) = s.lcc.ctx := by
      simp [LiftCtx.windowEnds, hkind]
    simp only [State.closeWindow, hw, hkind, hsame, endOutcomes, if_true]
    rfl
  | gross | tare =>
    simp only [State.closeWindow, hw, hkind, endOutcomes, LiftCtx.windowEnds]
    rfl

/-- TIP_POINT in TIP is passed on with the lift's target (R11, R140). -/
theorem State.deliver_tip {y : LiftCtx} (ho : (s.chans.get c).origin = some .cycle) (hp : s.lcc.phase = .run .tip)
    (hy : s.lcc.ctx = some y) : s.deliver c 8 = some (s.tip y.target) := by
  have htip : s.deliver c 8 = some (s.tip ((s.lcc.ctx.map LiftCtx.target).getD .a)) := if_pos ⟨ho, hp⟩
  rw [htip, hy]
  rfl

end marks

/-! ## Pack cycles and ejections started (R28, R142, R145, R146) -/

/-- A packer's channel is in the body exactly when its compartment is (R1). -/
theorem State.hasChannel_packer (s : State) (m : Compartment) : s.hasChannel m.packer = s.hasComp m := by
  cases m <;> rfl

section start
variable {s : State} {m : Compartment} {o : Origin} {a : Nat}

/-- A packer's channel that is IDLE is started by its owner, with the shadow READY (R28). -/
theorem State.takesStart_packer (hm : s.hasComp m = true) (hidle : (s.chans.get m.packer).state = .idle)
    (hready : s.shadow.state = .ready) : s.takesStart m.packer = true := by
  simp [State.takesStart, State.hasChannel_packer, hm, hidle, hready]

/-- A channel that START finds with no latch set plays from the address (R28). -/
theorem State.startChan_free {c : Channel} {e : Nat} (ht : s.takesStart c = true) (hl : s.drive.latches.get c = none) :
    s.startChan c o a e = s.setChan c (Chan.started o a e) := by
  simp [State.startChan, ht, hl]

/-- A packer's channel as START leaves it in FAULT (R28, R44). -/
def faultedPacker (o : Origin) (a : Nat) : Chan :=
  { Chan.started o a 255 with state := .fault, fault := some ⟨.coil, a⟩ }

/-- A channel that START finds with its latch set is in FAULT at the address (R28, R44). -/
theorem State.startChan_latched {c : Channel} (ht : s.takesStart c = true)
    (hl : (s.drive.latches.get c).isSome = true) : s.startChan c o a 255 = s.setChan c (faultedPacker o a) := by
  simp only [State.startChan, ht, hl, if_true]
  rfl

/-- A packer's channel as it plays after START: paused at once while PTO is off (R145). -/
def State.playsPacker (s : State) (o : Origin) (a : Nat) : Chan :=
  if s.inter.pto = true then Chan.started o a 255 else (Chan.started o a 255).pause

/-- A packer's channel in FAULT stays so over a pause (R47). -/
theorem pause_faultedPacker (o : Origin) (a : Nat) : (faultedPacker o a).pause = faultedPacker o a := rfl

/-- A packer's channel that plays or is paused reports no fault after START. -/
theorem State.reportPackStart_plays (t : State) (hc : t.chans.get m.packer = s.playsPacker o a) :
    t.reportPackStart m = t := by
  simp only [State.reportPackStart, hc, State.playsPacker]
  cases s.inter.pto <;> rfl

/-- A packer's channel in FAULT after START reports it (R146). -/
theorem State.reportPackStart_faulted (t : State) (hc : t.chans.get m.packer = faultedPacker o a) :
    t.reportPackStart m = t.packFault m ⟨.coil, a⟩ := by
  simp only [State.reportPackStart, hc]
  rfl

/-- A channel's record that a pause follows while PTO is off (R145). -/
theorem State.setChan_pauseUnlessPto (t : State) (c : Channel) (q : Chan) :
    (if (t.setChan c q).inter.pto = true then t.setChan c q else (t.setChan c q).mapChan c Chan.pause)
      = t.setChan c (if t.inter.pto = true then q else q.pause) := by
  cases hpto : t.inter.pto <;> simp [hpto, State.mapChan]

/-- A pack cycle's start around its START (R142, R145). -/
theorem State.startPack_eq {q : Chan} (hq : s.startChan m.packer .pack a 255 = s.setChan m.packer q) :
    s.startPack m a = ((s.setComp m { s.comps.comp m with stage := .sweep, stroke := none }).setChan m.packer
      (if s.inter.pto = true then q else q.pause)).reportPackStart m := by
  simp only [State.startPack, hq]
  exact congrArg (State.reportPackStart · m) (State.setChan_pauseUnlessPto (s.setComp m _) _ _)

/-- A pack cycle started with no latch set (R142, R145). -/
theorem State.startPack_free (ht : s.takesStart m.packer = true) (hl : s.drive.latches.get m.packer = none) :
    s.startPack m a = (s.setComp m { s.comps.comp m with stage := .sweep, stroke := none }).setChan m.packer
      (s.playsPacker .pack a) := by
  rw [State.startPack_eq (State.startChan_free ht hl)]
  exact State.reportPackStart_plays (s := s) _ (Six.get_put_same ..)

/-- A packer's fault outside an ejection: the stage FAULT, the stroke closed, PACK_FAULT (R146). -/
theorem State.packFault_packing {t : State} {f : FaultAt} (hstage : (t.comps.comp m).stage ≠ .ejecting) :
    t.packFault m f
      = (t.setComp m { t.comps.comp m with stage := .fault, fault := some f, stroke := none }).alert (.packFault m f) := by
  simp only [State.packFault]
  split
  · contradiction
  · rfl

/-- A pack cycle started with the latch set faults at START (R28, R142, R146). -/
theorem State.startPack_latched (ht : s.takesStart m.packer = true)
    (hl : (s.drive.latches.get m.packer).isSome = true) :
    s.startPack m a = ((s.setChan m.packer (faultedPacker .pack a)).setComp m { s.comps.comp m with
        stage := .fault, stroke := none, fault := some ⟨.coil, a⟩ }).alert (.packFault m ⟨.coil, a⟩) := by
  rw [State.startPack_eq (State.startChan_latched ht hl), pause_faultedPacker, ite_self,
    State.reportPackStart_faulted _ (Six.get_put_same ..), State.packFault_packing (by simp)]
  congr 1
  simp [State.setComp, State.setChan, State.setComps, State.setChans]

end start

/-! ### Tips, and the stroke judged at PACK_RETRACT (R137, R140, R141, R144, R179) -/

section tips
variable {s : State} {m : Compartment}

/-- A tip that makes no pack cycle due is counted (R140, R141). -/
theorem State.tip_counts (ht : (s.comps.comp m).tips < 255)
    (hlow : (s.comps.comp m).tips + 1 < s.settings.inForce.packAfter) :
    s.tip m = s.setComp m { s.comps.comp m with tips := (s.comps.comp m).tips + 1 } := by
  simp [State.tip, raiseSat, ht, State.testDue, hlow]

/-- A due pack cycle is started where the conditions hold (R141). -/
theorem State.testDue_starts {a : Nat} (hdue : s.settings.inForce.packAfter ≤ (s.comps.comp m).tips)
    (hm : s.hasComp m = true) (hrest : (s.comps.comp m).stage = .rest) (hpto : s.inter.pto = true)
    (hready : s.shadow.state = .ready) (hstart : s.journal.starting = false) (ha : s.packEntry m = some a) :
    s.testDue m = s.startPack m a := by
  simp [State.testDue, hdue, hm, hrest, hpto, hready, hstart, ha]

/-- A tip that makes a pack cycle due is counted and starts it (R140 to R142). -/
theorem State.tip_starts {a : Nat} (ht : (s.comps.comp m).tips < 255)
    (hdue : s.settings.inForce.packAfter ≤ (s.comps.comp m).tips + 1) (hm : s.hasComp m = true)
    (hrest : (s.comps.comp m).stage = .rest) (hpto : s.inter.pto = true) (hready : s.shadow.state = .ready)
    (hstart : s.journal.starting = false) (ha : s.packEntry m = some a)
    (hidle : (s.chans.get m.packer).state = .idle) (hl : s.drive.latches.get m.packer = none) :
    s.tip m = (s.setComp m { s.comps.comp m with
        tips := (s.comps.comp m).tips + 1, stage := .sweep, stroke := none }).setChan m.packer
      (Chan.started .pack a 255) := by
  let t := s.setComp m { s.comps.comp m with tips := (s.comps.comp m).tips + 1 }
  have htip : s.tip m = t.testDue m := by simp only [State.tip, raiseSat, ht, if_true]; rfl
  have hstarts : t.testDue m = t.startPack m a :=
    State.testDue_starts (by simpa [t]) hm (by simpa [t]) hpto hready hstart ha
  rw [htip, hstarts, State.startPack_free (s := t) (State.takesStart_packer hm hidle hready) hl]
  simp [t, State.playsPacker, hpto]

/-- A compartment whose total and status stand sends nothing (R137). -/
theorem State.handOver_same {x : Comp} (h : x.report = (s.comps.comp m).report) : s.handOver m x = s.setComp m x :=
  if_pos h

/-- A compartment whose total or status changes sends PAYLOAD (R137, R179). -/
theorem State.handOver_changed {x : Comp} (h : x.report ≠ (s.comps.comp m).report) :
    s.handOver m x = (s.setComp m x).emitPayload :=
  if_neg h

/-- PAYLOAD restarts its timer (R179). -/
theorem State.emitPayload_inter (s : State) : s.emitPayload.inter = { s.inter with payloadTimer := 500 } := by
  simp [State.emitPayload, Config.payloadMs]

/-- PAYLOAD goes to the chassis link (R179). -/
theorem State.emitPayload_sends (s : State) : SendsPayload s s.emitPayload s.payloadMsg := by
  intro hbus hroom
  simp [State.emitPayload, State.sendPayload_eq, hbus, State.setPort, queueUnasked, hroom]

/-- PAYLOAD carries what still stands after it was sent (R179). -/
theorem State.emitPayload_payloadMsg (s : State) : s.emitPayload.payloadMsg = s.payloadMsg := by
  simp [State.payloadMsg, State.emitPayload_inter, State.hasComp]

/-- The compartment as PACK_RETRACT leaves it: the open stroke judged, the status recomputed (R137, R143, R144). -/
def State.retracted (s : State) (m : Compartment) : Comp :=
  ({ s.comps.comp m with stage := .retract } : Comp).judge.recompute s.settings.inForce m

/-- PACK_RETRACT sends PAYLOAD where the status changes, the total standing (R137, R143, R179). -/
theorem State.packRetract_eq (s : State) (m : Compartment) :
    s.packRetract m = if (s.retracted m).status = (s.comps.comp m).status then s.setComp m (s.retracted m)
      else (s.setComp m (s.retracted m)).emitPayload := by
  have htotal : (s.retracted m).total = (s.comps.comp m).total := by
    simp only [State.retracted, Comp.recompute, Comp.judge]
    split <;> rfl
  have hreport : (s.retracted m).report = (s.comps.comp m).report
      ↔ (s.retracted m).status = (s.comps.comp m).status := by
    simp [Comp.report, htotal]
  split
  · exact State.handOver_same (hreport.mpr ‹_›)
  · exact State.handOver_changed (mt hreport.mp ‹_›)

/-- With the stroke closed, PACK_RETRACT sets the stage and the status (R137, R143). -/
theorem State.retracted_closed (hk : (s.comps.comp m).stroke = none) :
    s.retracted m = { s.comps.comp m with
      stage := .retract
      status := statusOf (s.comps.comp m).total (s.comps.comp m).shorts (s.settings.inForce.limit m)
        s.settings.inForce.fullStrokes } := by
  simp only [State.retracted, Comp.judge, hk, Comp.recompute]

/-- With a stroke open, PACK_RETRACT judges it: the shorts counted up to 4, or cleared (R144). -/
theorem State.retracted_open {k : Stroke} (hk : (s.comps.comp m).stroke = some k) (h4 : (s.comps.comp m).shorts ≤ 4) :
    s.retracted m = { s.comps.comp m with
      stage := .retract, stroke := none, lastStroke := some k
      shorts := if k.short = true then min 4 ((s.comps.comp m).shorts + 1) else 0
      status := statusOf (s.comps.comp m).total (if k.short = true then min 4 ((s.comps.comp m).shorts + 1) else 0)
        (s.settings.inForce.limit m) s.settings.inForce.fullStrokes } := by
  have hraise : raiseSat 4 (s.comps.comp m).shorts = min 4 ((s.comps.comp m).shorts + 1) := by
    rw [raiseSat]
    split <;> omega
  simp only [State.retracted, Comp.judge, hk, Comp.recompute, hraise]

end tips

/-! ### The marks of a packer (R40, R143, R149) -/

section packer
variable {s : State} {c : Channel} {m : Compartment}

/-- A packer's own marks reach its compartment, from a channel of origin PACK (R40, R143). -/
theorem State.packMark_taken (hm : c.packed = some m) (f : State → Compartment → State) :
    s.packMark c (some .pack) f = some (f s m) := by
  simp only [State.packMark, hm]

theorem State.deliver_sweep (hm : c.packed = some m) (ho : (s.chans.get c).origin = some .pack) :
    s.deliver c 9 = some (s.packSweep m) := by
  rw [← State.packMark_taken hm State.packSweep, ← ho]
  rfl

theorem State.deliver_compress (hm : c.packed = some m) (ho : (s.chans.get c).origin = some .pack) :
    s.deliver c 10 = some (s.packCompress m) := by
  rw [← State.packMark_taken hm State.packCompress, ← ho]
  rfl

theorem State.deliver_retract (hm : c.packed = some m) (ho : (s.chans.get c).origin = some .pack) :
    s.deliver c 11 = some (s.packRetract m) := by
  rw [← State.packMark_taken hm State.packRetract, ← ho]
  rfl

/-- EJECT_DONE reaches its compartment, from a channel of origin EJECT (R40, R149). -/
theorem State.deliver_ejectDone (hm : c.packed = some m) (ho : (s.chans.get c).origin = some .eject) :
    s.deliver c 12 = some (s.setComp m { s.comps.comp m with ejectDone := some true }) := by
  have htaken : s.ejectMark c (some .eject) = some (s.setComp m { s.comps.comp m with ejectDone := some true }) := by
    simp only [State.ejectMark, hm]
  rw [← htaken, ← ho]
  rfl

end packer

/-! ### The expiries that take a mark and go on (R31, R39, R40) -/

section expiry
variable {s : State} {c : Channel} {x : Sensors} {v : Int}

/-- PACK_RETRACT and the SET after it: the stroke judged, and PAYLOAD where the status changes (R137, R143, R144, R179). -/
theorem exec_retract_set {m : Compartment} (hf : s.setFollows c v) (hm : c.packed = some m) (h : s.reaches c (.mark 11))
    (ho : (s.chans.get c).origin = some .pack) (h4 : (s.comps.comp m).shorts ≤ 4) :
    ∃ t z, exec (.stepExpiry c x) s = .next t ∧ t.comps = s.comps.putComp m z
      ∧ t.chans.get c = (s.chans.get c).nextTwo v
      ∧ (∀ k, k ≠ c → t.chans.get k = s.chans.get k)
      ∧ z = { s.comps.comp m with
          stage := .retract, stroke := none, shorts := z.shorts, lastStroke := z.lastStroke, status := z.status }
      ∧ z.status = statusOf z.total z.shorts (s.settings.inForce.limit m) s.settings.inForce.fullStrokes
      ∧ ((s.comps.comp m).stroke = none → z.shorts = (s.comps.comp m).shorts
          ∧ z.lastStroke = (s.comps.comp m).lastStroke)
      ∧ (∀ k, (s.comps.comp m).stroke = some k → z.lastStroke = some k
          ∧ z.shorts = if k.short then min 4 ((s.comps.comp m).shorts + 1) else 0)
      ∧ (z.status = (s.comps.comp m).status → t.links = s.links ∧ t.inter = s.inter)
      ∧ (z.status ≠ (s.comps.comp m).status → SendsPayload s t t.payloadMsg
          ∧ t.inter = { s.inter with payloadTimer := 500 })
      ∧ t.lcc = s.lcc ∧ t.weigh = s.weigh ∧ t.lock = s.lock ∧ t.journal = s.journal ∧ t.houses = s.houses := by
  have hd : (s.sensed x).deliver c 11 = some ((s.sensed x).packRetract m) := State.deliver_retract hm ho
  have hexec := exec_mark_set hf h hd (by simp)
  let z := s.retracted m
  let w := (s.sensed x).setComp m z
  have hjudged : (s.sensed x).packRetract m = if z.status = (s.comps.comp m).status then w else w.emitPayload :=
    State.packRetract_eq _ _
  have hcomps : ((s.sensed x).packRetract m).comps = s.comps.putComp m z := by
    rw [hjudged]
    split <;> simp [w]
  refine ⟨_, z, hexec, by simpa using hcomps, by simp, fun k hk => ?others, ?shape, ?status, ?closed, ?opened, ?same,
    ?changed, by simp⟩
  case others => simp [Six.get_put_other _ _ _ _ hk]
  case shape =>
    cases hk : (s.comps.comp m).stroke with
    | none => simp [z, State.retracted_closed hk, hk]
    | some k => simp [z, State.retracted_open hk h4]
  case status =>
    cases hk : (s.comps.comp m).stroke with
    | none => simp [z, State.retracted_closed hk]
    | some k => simp [z, State.retracted_open hk h4]
  case closed => exact fun hk => by simp [z, State.retracted_closed hk]
  case opened => exact fun k hk => by simp [z, State.retracted_open hk h4]
  case same =>
    intro hsame
    simp [hjudged, hsame, w]
  case changed =>
    intro hchanged
    rw [hjudged, if_neg hchanged]
    have hmsg : ((w.emitPayload.setChan c ((s.chans.get c).nextTwo v)).refresh).payloadMsg = w.payloadMsg := by
      rw [← State.emitPayload_payloadMsg w]
      simp [State.payloadMsg, State.hasComp]
    refine ⟨fun hbus hroom => ?_, by simp [State.emitPayload_inter, w]⟩
    rw [hmsg]
    simpa [w] using State.emitPayload_sends w hbus hroom

end expiry

/-- Settles O48: STEP, a mark that its owner takes, and an AWAIT that holds lead on to the SET after them; what a mark does is
its owner's part of it. -/
theorem zeroStepElementsGoOn : Obligations.ZeroStepElementsGoOn := by
  unfold Obligations.ZeroStepElementsGoOn
  rintro s c x r r2 v rfl hp hlo hhi hset rfl
  have hf : s.setFollows c v := ⟨hp, ⟨hlo, hhi⟩, hset⟩
  refine ⟨fun i h hi => exec_step_set hf h hi, fun ho => ⟨?tagOpen, ?opens, ?closes, ?tips⟩,
    fun m hm => ⟨?sweep, ?compress, ?retract, ?eject⟩, fun n timeout saved hc h => exec_await_set hf hc h⟩
  case tagOpen => exact fun h hw => exec_mark_set hf h (State.deliver_tagOpen (s := s.sensed x) ho hw) rfl
  case opens =>
    intro code kind h hk
    refine ⟨fun he hw => ?_, fun he => ?_⟩
    · have hd : (s.sensed x).deliver c code = _ := State.deliver_open hk ho (.inr hw)
      rw [State.openWindow_enabled (s := s.sensed x) he] at hd
      exact exec_mark_set hf h hd rfl
    · have hd : (s.sensed x).deliver c code = _ := State.deliver_open hk ho (.inl he)
      rw [State.openWindow_disabled (s := s.sensed x) he] at hd
      exact exec_mark_set hf h hd rfl
  case closes =>
    intro code kind h hk
    have hd : (s.sensed x).deliver c code = _ := State.deliver_close hk ho
    refine ⟨fun w he hw hkind => ?_, fun he => ?_⟩
    · have hsome : (s.sensed x).weigh.window = some w := hw
      rw [if_pos (by simpa using he), if_pos (by simp [hw, hkind]), State.closeWindow_eq hsome] at hd
      exact exec_mark_set hf h hd rfl
    · rw [if_neg (by simp [he])] at hd
      exact exec_mark_set hf h hd rfl
  case tips =>
    intro y h hphase hy ht
    have hd : (s.sensed x).deliver c 8 = _ := State.deliver_tip ho hphase hy
    refine ⟨fun hlow => ?_, fun a hdue hm hrest hpto hready hstart ha hidle hl => ?_⟩
    · rw [State.tip_counts (s := s.sensed x) ht hlow] at hd
      exact exec_mark_set hf h hd rfl
    · rw [State.tip_starts (s := s.sensed x) ht hdue hm hrest hpto hready hstart ha hidle hl] at hd
      have hother : c ≠ y.target.packer := by
        rintro rfl
        obtain ⟨⟨-, hrunning⟩, -⟩ := h
        rw [hidle] at hrunning
        cases hrunning
      exact exec_mark_set hf h hd (by simp [Six.get_put_other _ _ _ _ hother])
  case sweep => exact fun h ho => exec_mark_set hf h (State.deliver_sweep (s := s.sensed x) hm ho) rfl
  case compress => exact fun h ho => exec_mark_set hf h (State.deliver_compress (s := s.sensed x) hm ho) rfl
  case retract => exact fun h ho h4 => exec_retract_set hf hm h ho h4
  case eject => exact fun h ho => exec_mark_set hf h (State.deliver_ejectDone (s := s.sensed x) hm ho) rfl

/-! ## The console's PACK and UNLOAD (R142, R145 to R150) -/

/-! ### What a request of the console leaves -/

/-- The console's requests come in on the body link, and their answers leave by it (R182). -/
theorem port_of_console {n : Node} (h : (n == .console) = true) : n.port = .body := by
  rw [beq_iff_eq.mp h]
  rfl

/-- A request of the body link answered in one frame, with no effect (R182, R186). -/
theorem answered_without_effect {s t : State} {h : Header} {k : Byte} {c : Code} {d : AnswerData}
    (hp : h.src.port = .body) (hd : ∀ ix, partCount ix d = 1) (ht : t = (s.popped h).answer h k c d) :
    t.core = s.core ∧ Settled s t h k c d := by
  subst ht
  exact ⟨by simp, settled_of_answer rfl (by simp [hp]) (hd _).le⟩

/-- A compartment that a request names is in the body (R136). -/
theorem State.hasComp_of_compNamed {s : State} {b : Byte} {m : Compartment} (h : s.compNamed b = some m) :
    s.hasComp m = true := by
  simp only [State.compNamed] at h
  split at h
  · split at h
    · cases h
      assumption
    · cases h
  · cases h

/-! ### PACK (R29, R142) -/

/-- STOP leaves a channel IDLE (R29). -/
theorem Chan.stop_state (r : Chan) : r.stop.state = .idle := by
  simp only [Chan.stop]
  split
  · assumption
  · rfl

/-- What PACK finds of a packer that it may start: at REST with its channel IDLE, or in FAULT, whose fault it clears (R142). -/
def State.packable (s : State) (m : Compartment) (u : Comp) : Prop :=
  (s.comps.comp m).stage = .rest ∧ (s.chans.get m.packer).state = .idle ∧ u = s.comps.comp m
    ∨ (s.comps.comp m).stage = .fault ∧ u = { s.comps.comp m with fault := none }

/-- A packer that PACK may start, once its fault is cleared: its channel IDLE (R29, R142). -/
theorem State.clearPacker_packable {s : State} {m : Compartment} {u : Comp} (h : s.packable m u) :
    ∃ q, q.state = .idle ∧ s.clearPacker m = (s.setChan m.packer q).setComp m u := by
  rcases h with ⟨hrest, hidle, rfl⟩ | ⟨hfault, rfl⟩
  · refine ⟨s.chans.get m.packer, hidle, ?_⟩
    simp [State.clearPacker, hrest, State.setChan, State.setComp, State.setChans, State.setComps]
  · exact ⟨(s.chans.get m.packer).stop, Chan.stop_state _, if_pos hfault⟩

/-- PACK taken: the fault cleared, the cycle started, the sharing made afresh, OK (R142). -/
theorem State.takePack_accepted {s : State} {h : Header} {b : Byte} {m : Compartment} {a : Nat} {u : Comp}
    (hstart : s.journal.starting = false) (hm : s.compNamed b = some m) (hready : s.shadow.state = .ready)
    (ha : s.packEntry m = some a) (hu : s.packable m u) :
    State.takePack h b s = (((s.clearPacker m).startPack m a).refresh).answer h 6#8 .ok .empty := by
  have hstage : ¬ ((s.comps.comp m).stage ≠ .rest ∧ (s.comps.comp m).stage ≠ .fault) := by
    rcases hu with ⟨hrest, -⟩ | ⟨hfault, -⟩
    · exact fun hne => hne.1 hrest
    · exact fun hne => hne.2 hfault
  simp only [State.takePack, hstart, hm, hready, ha, if_neg hstage]
  rfl

/-- Settles O31: each refusal by the check that gives it; the start by `startPack_free` and `startPack_latched`. -/
theorem packStartsTheCycle : Obligations.PackStartsTheCycle := by
  unfold Obligations.PackStartsTheCycle
  intro s h b ht
  have hp : h.src.port = .body := port_of_console ht.2
  refine ⟨State.takePack h b (s.popped h), congrArg Host.Outcome.next (State.request_taken s h _ b _ ht), ?starting,
    ?unnamed, fun c hstart hc => ⟨?notReady, ?busy, ?noEntry, fun a u hready ha hu => ?accepted⟩⟩
  case starting => exact fun hstart => answered_without_effect hp (fun _ => rfl) (by simp [State.takePack, hstart])
  case unnamed =>
    exact fun hstart hnone => answered_without_effect hp (fun _ => rfl) (by simp [State.takePack, hstart, hnone])
  case notReady =>
    exact fun hready => answered_without_effect hp (fun _ => rfl) (by simp [State.takePack, hstart, hc, hready])
  case busy =>
    exact fun hready hrest hfault =>
      answered_without_effect hp (fun _ => rfl) (by simp [State.takePack, hstart, hc, hready, hrest, hfault])
  case noEntry =>
    intro hready hstage hnone
    refine answered_without_effect hp (fun _ => rfl) ?_
    rcases hstage with hstage | hstage <;> simp [State.takePack, hstart, hc, hready, hstage, hnone]
  case accepted =>
    have hpackable : (s.popped h).packable c u := by simpa [State.packable] using hu
    obtain ⟨q, hidle, hclear⟩ := State.clearPacker_packable hpackable
    rw [State.takePack_accepted (by simpa using hstart) (by simpa using hc) (by simpa using hready) (by simpa using ha)
      hpackable, hclear]
    have htakes : (((s.popped h).setChan c.packer q).setComp c u).takesStart c.packer = true :=
      State.takesStart_packer (by simpa [State.hasComp] using State.hasComp_of_compNamed hc) (by simpa) (by simpa)
    cases hl : s.drive.latches.get c.packer with
    | none =>
      rw [State.startPack_free htakes (by simpa using hl)]
      refine ⟨by simp, by simp, by simp, by simp, by simp, by simp, by simp [SameStores], fun _ => ⟨by simp, ?_,
        settled_of_answer (by simp) (by simp [hp]) le_rfl⟩, by simp⟩
      simp [State.playsPacker]
    | some l =>
      rw [State.startPack_latched htakes (by simp [hl])]
      refine ⟨by simp, by simp, by simp, by simp, by simp, by simp, by simp [SameStores], by simp, fun _ => ⟨by simp,
        by simp [faultedPacker], fun hroom => ?_, ?_⟩⟩
      · exact State.answer_last _ _ _ _ _ (by simp [hp]) le_rfl (by simp [hroom])
      · refine Gains.tells_popped (h := h) (PortState.Gains.trans (l := [_]) ?_ (State.answer_gains _ h _ _ _ hp le_rfl))
        exact Gains.after (Gains.before (State.alert_gains _ _) (by simp)) rfl

/-! ### UNLOAD (R148 to R150) -/

/-- A reservation granted counts as one, the queue and the free space standing (R157). -/
@[simp] theorem State.grant_counts (s : State) : s.grant.journal.queue = s.journal.queue
    ∧ s.grant.journal.free = s.journal.free ∧ s.grant.journal.reserved = s.journal.reserved + 1 := by
  simp only [State.grant, State.testLow]
  split <;> simp

/-- A reservation returned counts as one less, the queue and the free space standing (R157). -/
@[simp] theorem State.returnReservation_counts (s : State) : s.returnReservation.journal.queue = s.journal.queue
    ∧ s.returnReservation.journal.free = s.journal.free
    ∧ s.returnReservation.journal.reserved = s.journal.reserved - 1 := by
  simp only [State.returnReservation, Journal.clearLow, State.setJournal_journal]
  split <;> exact ⟨rfl, rfl, rfl⟩

/-- An alert leaves the compartments, and reads none of them. -/
theorem State.alert_setComp (s : State) (m : Compartment) (x : Comp) (a : Alert) :
    (s.setComp m x).alert a = (s.alert a).setComp m x := by
  simp only [State.alert, State.indicate_eq, State.setComp_links, apply_ite (State.setComp · m x)]
  rfl

/-- A reservation returned leaves the compartments, and reads none of them. -/
theorem State.returnReservation_setComp (s : State) (m : Compartment) (x : Comp) :
    (s.setComp m x).returnReservation = s.returnReservation.setComp m x := rfl

section eject
variable {s : State} {m : Compartment} {a : Nat}

/-- A compartment whose ejection has begun (R149). -/
def ejecting (x : Comp) : Comp := { x with stage := .ejecting, ejectDone := some false }

/-- An ejection's start around its START: the reservation, the channel, the stage (R145, R149). -/
theorem State.startEject_eq {q : Chan} (hq : s.grant.startChan m.packer .eject a 255 = s.grant.setChan m.packer q) :
    s.startEject m a = (s.grant.setComp m (ejecting (s.comps.comp m))).setChan m.packer
      (if s.inter.pto = true then q else q.pause) := by
  have hcomp : s.grant.comps.comp m = s.comps.comp m := by simp
  have hpto : s.grant.inter.pto = s.inter.pto := by simp
  simp only [State.startEject, hq, ← hcomp, ← hpto]
  exact State.setChan_pauseUnlessPto (s.grant.setComp m _) _ _

/-- An ejection started with no latch set (R145, R149). -/
theorem State.startEject_free (ht : s.takesStart m.packer = true) (hl : s.drive.latches.get m.packer = none) :
    s.startEject m a
      = (s.grant.setComp m (ejecting (s.comps.comp m))).setChan m.packer (s.playsPacker .eject a) :=
  State.startEject_eq (State.startChan_free (by simpa [State.takesStart, State.hasChannel] using ht) (by simpa using hl))

/-- An ejection started with the latch set: its channel in FAULT, its end still to come (R28, R149). -/
theorem State.startEject_latched (ht : s.takesStart m.packer = true)
    (hl : (s.drive.latches.get m.packer).isSome = true) :
    s.startEject m a
      = (s.grant.setComp m (ejecting (s.comps.comp m))).setChan m.packer (faultedPacker .eject a) := by
  rw [State.startEject_eq
    (State.startChan_latched (by simpa [State.takesStart, State.hasChannel] using ht) (by simpa using hl)),
    pause_faultedPacker, ite_self]

/-- A packer's fault in an ejection before EJECT_DONE: PACK_FAULT, the reservation returned, the outcome FAULT (R146, R150). -/
theorem State.packFault_ejecting {t : State} {x : Comp} {f : FaultAt} (hx : t.comps.comp m = ejecting x) :
    t.packFault m f = ((t.alert (.packFault m f)).returnReservation).setComp m { x with
      stage := .fault, stroke := none, ejectDone := none, lastEject := some .fault, fault := some f } := by
  simp only [State.packFault, hx, ejecting, State.settleEject]
  simp [State.alert_setComp, State.returnReservation_setComp]

/-- UNLOAD taken: the ejection started, OK, and then the fault that START met (R149, R28, log 61). -/
theorem State.takeUnload_accepted {h : Header} {b : Byte} (hstart : s.journal.starting = false)
    (hm : s.compNamed b = some m) (hready : s.shadow.state = .ready) (hphase : s.lcc.phase = .idle)
    (hrest : (s.comps.comp m).stage = .rest) (hstill : s.stationary = true)
    (hbrake : s.inter.report.brakeOn = some true) (hpermit : s.inter.permitHeld = true)
    (ha : s.ejectEntry m = some a) (hgrant : s.journal.canGrant = true) :
    State.takeUnload h b s = (((s.startEject m a).answer h 7#8 .ok .empty).reportPackStart m).refresh := by
  simp [State.takeUnload, hstart, hm, hready, hphase, hrest, hstill, hbrake, hpermit, ha, hgrant]

end eject

/-- Settles O32: each refusal by the check that gives it; the start by `startEject_free` and `startEject_latched`. -/
theorem unloadStartsTheEjection : Obligations.UnloadStartsTheEjection := by
  unfold Obligations.UnloadStartsTheEjection
  intro s h b ht
  have hp : h.src.port = .body := port_of_console ht.2
  have hstill : s.inter.present = true → s.inter.report.speed = some 0 → s.stationary = true := fun hpresent hspeed => by
    simp [State.stationary, hpresent, hspeed]
  refine ⟨State.takeUnload h b (s.popped h), congrArg Host.Outcome.next (State.request_taken s h _ b _ ht), ?starting,
    ?unnamed, fun c hstart hc => ⟨?notReady, ?busy, fun hready hphase hrest => ⟨?moving, ?brakeOff, ?noPermit,
      fun hpresent hspeed hbrake hpermit => ⟨?noEntry, fun a ha => ⟨?full, fun hgrant hidle => ?accepted⟩⟩⟩⟩⟩
  case starting => exact fun hstart => answered_without_effect hp (fun _ => rfl) (by simp [State.takeUnload, hstart])
  case unnamed =>
    exact fun hstart hnone => answered_without_effect hp (fun _ => rfl) (by simp [State.takeUnload, hstart, hnone])
  case notReady =>
    exact fun hready => answered_without_effect hp (fun _ => rfl) (by simp [State.takeUnload, hstart, hc, hready])
  case busy =>
    intro hready hbusy
    refine answered_without_effect hp (fun _ => rfl) ?_
    by_cases hphase : s.lcc.phase = .idle
    · simp [State.takeUnload, hstart, hc, hready, hphase, hbusy.resolve_left (not_not_intro hphase)]
    · simp [State.takeUnload, hstart, hc, hready, hphase]
  case moving =>
    intro hmoving
    have hmoves : s.stationary = false := by
      rcases hmoving with hmoving | hmoving <;> simp [State.stationary, hmoving]
    exact answered_without_effect hp (fun _ => rfl)
      (by simp [State.takeUnload, hstart, hc, hready, hphase, hrest, hmoves])
  case brakeOff =>
    intro hpresent hspeed hbrake
    exact answered_without_effect hp (fun _ => rfl)
      (by simp [State.takeUnload, hstart, hc, hready, hphase, hrest, hstill hpresent hspeed, hbrake])
  case noPermit =>
    intro hpresent hspeed hbrake hpermit
    exact answered_without_effect hp (fun _ => rfl)
      (by simp [State.takeUnload, hstart, hc, hready, hphase, hrest, hstill hpresent hspeed, hbrake, hpermit])
  case noEntry =>
    intro hnone
    exact answered_without_effect hp (fun _ => rfl)
      (by simp [State.takeUnload, hstart, hc, hready, hphase, hrest, hstill hpresent hspeed, hbrake, hpermit, hnone])
  case full =>
    intro hfull
    exact answered_without_effect hp (fun _ => rfl)
      (by simp [State.takeUnload, hstart, hc, hready, hphase, hrest, hstill hpresent hspeed, hbrake, hpermit, ha, hfull])
  case accepted =>
    have htakes : (s.popped h).takesStart c.packer = true :=
      State.takesStart_packer (by simpa using State.hasComp_of_compNamed hc) (by simpa) (by simpa)
    have hlow : Gains (s.popped h) (s.popped h).grant s.lowTold := by
      simpa [State.lowTold] using State.grant_gains (s.popped h)
    rw [State.takeUnload_accepted (by simpa using hstart) (by simpa using hc) (by simpa using hready) (by simpa using hphase)
      (by simpa using hrest) (by simpa using hstill hpresent hspeed) (by simpa using hbrake) (by simpa using hpermit)
      (by simpa using ha) (by simpa using hgrant)]
    have hanswered : ∀ q, Gains (s.popped h) ((((s.popped h).grant.setComp c (ejecting (s.comps.comp c))).setChan c.packer
        q).answer h 7#8 .ok .empty) (s.lowTold ++ [.answer h 7#8 .ok 1 1 .empty]) := fun q =>
      hlow.trans ((State.answer_gains _ h _ _ _ hp le_rfl).before (by simp))
    cases hl : s.drive.latches.get c.packer with
    | none =>
      rw [State.startEject_free htakes (by simpa using hl),
        State.reportPackStart_plays (s := s.popped h) (o := .eject) (a := a) _ (by simp)]
      refine ⟨by simp, by simp, by simp, by simp, by simp, by simp, by simp, by simp [SameStores],
        fun _ => ⟨by simp [ejecting], by simp [State.playsPacker], by simp, fun hroom => ?_,
          Gains.tells_popped (h := h) ((hanswered ((s.popped h).playsPacker .eject a)).after (by simp))⟩, by simp⟩
      exact State.answer_last _ _ _ _ _ (by simp [hp]) le_rfl (by simp [hroom])
    | some l =>
      rw [State.startEject_latched htakes (by simp [hl]), State.reportPackStart_faulted (o := .eject) (a := a) _ (by simp),
        State.packFault_ejecting (x := s.comps.comp c) (by simp)]
      refine ⟨by simp, by simp, by simp, by simp, by simp, by simp, by simp, by simp [SameStores],
        by simp, fun _ => ⟨by simp, by simp [faultedPacker], by simp,
          Gains.tells_popped (h := h) ?_⟩⟩
      have htold := (hanswered (faultedPacker .eject a)).trans (State.alert_gains _ (.packFault c ⟨.coil, a⟩))
      rw [List.append_assoc] at htold
      exact Gains.after htold (by simp)

end Sys2Proof.Machine

namespace Sys2Proof.Machine

/-! ## Channels at rest while the shadow is not READY (R28, R57, R61) -/

/-- Only a channel that START may move is out of IDLE: the shadow READY, the channel present (R26, R28). -/
def Resting (x : ShadowState) (v : Variant) (m : Six Chan) : Prop :=
  ∀ c, (m.get c).state ≠ .idle → x = .ready ∧ c.present v = true

/-- One channel's record replaced: IDLE, or of a channel that was out of IDLE or may be moved. -/
theorem Resting.put {x : ShadowState} {v : Variant} {m : Six Chan} (h : Resting x v m) {c : Channel} {r : Chan}
    (hr : r.state ≠ .idle → (m.get c).state ≠ .idle ∨ (x = .ready ∧ c.present v = true)) : Resting x v (m.put c r) := by
  intro d hd
  by_cases hdc : d = c
  · subst hdc
    rw [Six.get_put_same] at hd
    exact (hr hd).elim (h d) id
  · rw [Six.get_put_other _ _ _ _ hdc] at hd
    exact h d hd

/-- A change of a channel's record that leaves an IDLE one IDLE. -/
@[simp] def KeepsIdle (f : Chan → Chan) : Prop := ∀ r : Chan, r.state = .idle → (f r).state = .idle

theorem Chan.pause_keepsIdle : KeepsIdle Chan.pause := fun r h => by simp [Chan.pause, h]
theorem Chan.unpause_keepsIdle : KeepsIdle Chan.unpause := fun r h => by simp [Chan.unpause, h]
theorem Chan.stop_keepsIdle : KeepsIdle Chan.stop := fun r _ => Chan.stop_state r
theorem Chan.rearm_keepsIdle : KeepsIdle Chan.rearm := fun r h => by simp [Chan.rearm, h]

section resting
variable {x : ShadowState} {v : Variant} {s : State}

theorem State.mapChan_resting (h : Resting x v s.chans) (c : Channel) {f : Chan → Chan} (hf : KeepsIdle f) :
    Resting x v (s.mapChan c f).chans :=
  h.put fun hr => .inl fun hidle => hr (hf _ hidle)

theorem State.mapChans_resting (h : Resting x v s.chans) (l : List Channel) {f : Chan → Chan} (hf : KeepsIdle f) :
    Resting x v (s.mapChans l f).chans := by
  unfold State.mapChans
  induction l generalizing s with
  | nil => exact h
  | cons c l ih => exact ih (State.mapChan_resting h c hf)

theorem State.mapPackers_resting (h : Resting x v s.chans) (w : Origin → Bool) {f : Chan → Chan} (hf : KeepsIdle f) :
    Resting x v (s.mapPackers w f).chans := by
  have hone : ∀ {u : State} (c : Channel), Resting x v u.chans →
      Resting x v (if (u.chans.get c).origin.any w then u.mapChan c f else u).chans := by
    intro u c hu
    split
    · exact State.mapChan_resting hu c hf
    · exact hu
  exact hone _ (hone _ h)

@[simp] theorem State.packers_resting (h : Resting x v s.chans) :
    Resting x v s.packersPtoOff.chans ∧ Resting x v s.packersPtoOn.chans ∧ Resting x v s.packersExpired.chans
      ∧ Resting x v s.packersHeld.chans :=
  ⟨State.mapPackers_resting h _ Chan.pause_keepsIdle, State.mapPackers_resting h _ Chan.unpause_keepsIdle,
    State.mapPackers_resting h _ Chan.pause_keepsIdle, State.mapPackers_resting h _ Chan.unpause_keepsIdle⟩

/-- START moves a present channel with the shadow READY, or nothing (R28). -/
@[simp] theorem State.startChan_resting (hx : s.shadow.state = x) (hv : s.variant = v) (h : Resting x v s.chans)
    (c : Channel) (o : Origin) (a e : Nat) : Resting x v (s.startChan c o a e).chans := by
  subst hx hv
  simp only [State.startChan]
  split
  next htakes =>
    simp only [State.takesStart, Bool.and_eq_true, beq_iff_eq] at htakes
    obtain ⟨⟨hpresent, -⟩, hready⟩ := htakes
    exact h.put fun _ => .inr ⟨hready, hpresent⟩
  next => exact h

/-! ### Halts and faults (R18, R23, R44) -/

@[simp] theorem State.enterStuck_resting (h : Resting x v s.chans) : Resting x v s.enterStuck.chans := by
  simpa [State.enterStuck] using State.mapChans_resting h s.lcc.started Chan.stop_keepsIdle

@[simp] theorem State.halt_resting (h : Resting x v s.chans) (p : ProfilePhase) (c : Causes) (f : Six (Option FaultKind)) :
    Resting x v (s.halt p c f).chans := by
  simpa [State.halt] using State.mapChans_resting h s.lcc.started Chan.pause_keepsIdle

@[simp] theorem State.addCause_resting (h : Resting x v s.chans) (c : InterlockCause) :
    Resting x v (s.addCause c).chans := by
  simp only [State.addCause]
  (repeat' split) <;> simp [h]

@[simp] theorem State.cycleFault_resting (h : Resting x v s.chans) (c : Channel) (k : FaultKind) :
    Resting x v (s.cycleFault c k).chans := by
  simp only [State.cycleFault]
  (repeat' split) <;> simp [h]

@[simp] theorem State.recomputeSpeed_resting (h : Resting x v s.chans) (first : Bool) :
    Resting x v (s.recomputeSpeed first).chans := by
  have hset : ∀ i, Resting x v (s.setInter i).chans := fun _ => h
  simp only [State.recomputeSpeed]
  split
  · simpa using State.addCause_resting (hset _) .speed
  · simpa using h
  · split <;> simpa using h
  · exact h

/-- A fault moves no channel that is IDLE (R44, R45). -/
@[simp] theorem State.failChan_resting (h : Resting x v s.chans) (c : Channel) (k : FaultKind) (a : Nat) :
    Resting x v (s.failChan c k a).chans := by
  simp only [State.failChan]
  split
  case h_3 | h_4 =>
    have hfailed : Resting x v (s.setChan c ((s.chans.get c).fail k a)).chans := h.put fun _ => .inl (by simp [*])
    split
    · exact State.cycleFault_resting hfailed c k
    all_goals simpa using hfailed
  all_goals exact h

@[simp] theorem State.coilFault_resting (h : Resting x v s.chans) (c : Channel) (l : Latch) :
    Resting x v (s.coilFault c l).chans := by
  simp only [State.coilFault]
  split <;> simp [h]

/-! ### Pack cycles and ejections (R141 to R150) -/

@[simp] theorem State.startPack_resting (hx : s.shadow.state = x) (hv : s.variant = v) (h : Resting x v s.chans)
    (c : Compartment) (a : Nat) : Resting x v (s.startPack c a).chans := by
  have hstarted : Resting x v (s.startChan c.packer .pack a 255).chans := State.startChan_resting hx hv h _ _ _ _
  simp only [State.startPack]
  split
  · simpa using hstarted
  · simpa using State.mapChan_resting hstarted c.packer Chan.pause_keepsIdle

@[simp] theorem State.testDue_resting (hx : s.shadow.state = x) (hv : s.variant = v) (h : Resting x v s.chans)
    (c : Compartment) : Resting x v (s.testDue c).chans := by
  simp only [State.testDue]
  (repeat' split) <;> simp [hx, hv, h]

@[simp] theorem State.testDueAll_resting (hx : s.shadow.state = x) (hv : s.variant = v) (h : Resting x v s.chans) :
    Resting x v s.testDueAll.chans := by
  simp [State.testDueAll, hx, hv, h]

@[simp] theorem State.tip_resting (hx : s.shadow.state = x) (hv : s.variant = v) (h : Resting x v s.chans)
    (c : Compartment) : Resting x v (s.tip c).chans :=
  State.testDue_resting (s := s.setComp c _) hx hv h c

@[simp] theorem State.packEnd_resting (hx : s.shadow.state = x) (hv : s.variant = v) (h : Resting x v s.chans)
    (c : Compartment) (o : Origin) : Resting x v (s.packEnd c o).chans := by
  cases o <;> simp [State.packEnd, hx, hv, h]

@[simp] theorem State.startEject_resting (hx : s.shadow.state = x) (hv : s.variant = v) (h : Resting x v s.chans)
    (c : Compartment) (a : Nat) : Resting x v (s.startEject c a).chans := by
  have hstarted : Resting x v (s.grant.startChan c.packer .eject a 255).chans :=
    State.startChan_resting (by simpa) (by simpa) (by simpa) _ _ _ _
  simp only [State.startEject]
  split
  · simpa using hstarted
  · simpa using State.mapChan_resting hstarted c.packer Chan.pause_keepsIdle

@[simp] theorem State.clearPacker_resting (h : Resting x v s.chans) (c : Compartment) :
    Resting x v (s.clearPacker c).chans := by
  simp only [State.clearPacker]
  split
  · simpa using State.mapChan_resting h c.packer Chan.stop_keepsIdle
  · exact h

/-! ### Phases (R7, R9) -/

theorem State.startChans_resting (l : List (Channel × Nat)) (e : Nat) (hx : s.shadow.state = x) (hv : s.variant = v)
    (h : Resting x v s.chans) : Resting x v (l.foldl (fun t a => t.startChan a.1 .cycle a.2 e) s).chans := by
  induction l generalizing s with
  | nil => exact h
  | cons a l ih => exact ih (by simpa) (by simpa) (by simp [hx, hv, h])

@[simp] theorem State.startPhase_resting (hx : s.shadow.state = x) (hv : s.variant = v) (h : Resting x v s.chans)
    (y : LiftCtx) (p : ProfilePhase) : Resting x v (s.startPhase y p).chans := by
  simp only [State.startPhase]
  exact State.startChans_resting _ _ (by simpa) (by simpa) (by simpa)

@[simp] theorem State.reportStarts_resting (h : Resting x v s.chans) (l : List Channel) :
    Resting x v (s.reportStarts l).chans := by
  unfold State.reportStarts
  induction l generalizing s with
  | nil => exact h
  | cons c l ih =>
    have hone : Resting x v (s.reportStarts [c]).chans := by
      simp only [State.reportStarts, List.foldl_cons, List.foldl_nil]
      split
      · exact State.cycleFault_resting h c _
      · exact h
    exact ih hone

@[simp] theorem State.enterPhases_resting (n : Nat) (hx : s.shadow.state = x) (hv : s.variant = v)
    (h : Resting x v s.chans) (p : ProfilePhase) : Resting x v (State.enterPhases n s p).chans := by
  induction n generalizing s p with
  | zero => exact h
  | succ n ih =>
    simp only [State.enterPhases]
    split
    next => exact h
    next y _ =>
      have hstarted : Resting x v (s.startPhase y p).chans := State.startPhase_resting hx hv h y p
      obtain ⟨-, hvariant, -, -, hchans, -, hshadow, -⟩ := State.endPhase_frame (s.startPhase y p) p
      split
      · split
        · rename_i hres
          rw [hres] at hvariant hchans hshadow
          exact ih ((congrArg Shadow.state hshadow).trans (by simpa)) (hvariant.trans (by simpa)) (hchans ▸ hstarted) _
        · rename_i hres
          rw [hres] at hchans
          exact hchans ▸ hstarted
      · exact State.reportStarts_resting hstarted _

@[simp] theorem State.enterPhase_resting (hx : s.shadow.state = x) (hv : s.variant = v) (h : Resting x v s.chans)
    (p : ProfilePhase) : Resting x v (s.enterPhase p).chans :=
  State.enterPhases_resting 8 hx hv h p

@[simp] theorem State.cycleEnd_resting (hx : s.shadow.state = x) (hv : s.variant = v) (h : Resting x v s.chans) :
    Resting x v s.cycleEnd.chans := by
  simp only [State.cycleEnd]
  split
  next p _ =>
    obtain ⟨-, hvariant, -, -, hchans, -, hshadow, -⟩ := State.endPhase_frame s p
    split
    · split
      · rename_i hres
        rw [hres] at hvariant hchans hshadow
        exact State.enterPhase_resting (by rw [hshadow, hx]) (by rw [hvariant, hv]) (hchans ▸ h) _
      · rename_i hres
        rw [hres] at hchans
        exact hchans ▸ h
    · exact h
  all_goals exact h

/-! ### A step expiry (R30 to R41) -/

@[simp] theorem State.endChan_resting (hx : s.shadow.state = x) (hv : s.variant = v) (h : Resting x v s.chans)
    (c : Channel) : Resting x v (s.endChan c).chans := by
  have hended : ∀ r : Chan, r.state = .idle → Resting x v (s.setChan c r).chans :=
    fun r hr => h.put fun hne => absurd hr hne
  simp only [State.endChan]
  split
  · exact State.cycleEnd_resting hx hv (hended _ rfl)
  · exact State.packEnd_resting (s := s.setChan c _) hx hv (hended _ rfl) _ _
  · exact hended _ rfl

/-- A mark that is taken starts a due pack cycle at most (R40, R141). -/
theorem State.deliver_resting {t : State} {c : Channel} {code : Nat} (hx : s.shadow.state = x) (hv : s.variant = v)
    (h : Resting x v s.chans) (hd : s.deliver c code = some t) : Resting x v t.chans := by
  revert hd
  simp only [State.deliver, State.openMark, State.closeMark, State.tagOpenMark, State.tagCloseMark, State.tipMark,
    State.packMark, State.ejectMark, State.packSweep, State.packCompress]
  (repeat' split) <;> intro hd <;> cases hd <;> simp [hx, hv, h]

section moving
variable {c : Channel} (hc : x = .ready ∧ c.present v = true)
include hc

/-- Any record of a channel that may be moved. -/
theorem State.setChan_resting (h : Resting x v s.chans) (r : Chan) : Resting x v (s.setChan c r).chans :=
  h.put fun _ => .inr hc

theorem State.advance_resting (h : Resting x v s.chans) : Resting x v (s.advance c).1.chans := by
  simp only [State.advance]
  split
  · exact State.setChan_resting hc h _
  · exact State.failChan_resting h c _ _

theorem State.completeElement_resting (h : Resting x v s.chans) (u : Int) : Resting x v (s.completeElement c u).chans :=
  State.advance_resting hc (State.setChan_resting hc h _)

theorem State.rampStep_resting (h : Resting x v s.chans) (u0 target : Int) (k n : Nat) :
    Resting x v (s.rampStep c u0 target k n).chans := by
  simp only [State.rampStep]
  split
  · exact State.setChan_resting hc h _
  · exact State.completeElement_resting hc h _

theorem State.deltaAt_resting (h : Resting x v s.chans) (d : Int) (e k : Nat) :
    Resting x v (s.deltaAt c d e k).chans := by
  simp only [State.deltaAt]
  split
  · exact State.setChan_resting hc h _
  · exact State.completeElement_resting hc h _

theorem State.holdStep_resting (h : Resting x v s.chans) (n : Nat) : Resting x v (s.holdStep c n).chans := by
  simp only [State.holdStep]
  split
  · exact State.setChan_resting hc h _
  · exact State.completeElement_resting hc h _

theorem State.passAwait_resting (h : Resting x v s.chans) : Resting x v (s.passAwait c).1.chans :=
  State.advance_resting hc (State.setChan_resting hc h _)

theorem State.countAwait_resting (h : Resting x v s.chans) : Resting x v (s.countAwait c).chans := by
  simp only [State.countAwait]
  split
  · exact h
  · split
    · exact State.failChan_resting (State.setChan_resting hc h _) c _ _
    · exact State.setChan_resting hc h _

/-- The elements that one expiry reaches move their own channel; what it tells its owner starts channels by START (R31). -/
theorem State.reach_resting (n : Nat) (hx : s.shadow.state = x) (hv : s.variant = v) (h : Resting x v s.chans) :
    Resting x v (s.reach n c).chans := by
  induction n generalizing s with
  | zero => exact h
  | succ n ih =>
    have hnext : ∀ {u : State}, u.shadow.state = x → u.variant = v → Resting x v u.chans →
        Resting x v (if (u.advance c).2 then State.reach n (u.advance c).1 c else (u.advance c).1).chans := by
      intro u hux huv hu
      split
      · exact ih (by simpa) (by simpa) (State.advance_resting hc hu)
      · exact State.advance_resting hc hu
    simp only [State.reach]
    split
    · exact State.failChan_resting h c _ _
    split
    · exact State.failChan_resting h c _ _
    split
    case h_1 => exact State.completeElement_resting hc h _
    case h_2 => exact State.rampStep_resting hc h _ _ _ _
    case h_3 => exact State.deltaAt_resting hc h _ _ _
    case h_4 => exact State.holdStep_resting hc h _
    case h_5 => exact hnext (by simpa) (by simpa) (State.setChan_resting hc h _)
    case h_6 =>
      split
      next t hd =>
        have hframe := State.deliver_frame hd
        exact hnext (by simp [hframe, hx]) (by simp [hframe, hv])
          (State.setChan_resting hc (State.deliver_resting hx hv h hd) _)
      next => exact State.failChan_resting h c _ _
    case h_7 =>
      split
      · exact hnext (by simpa) (by simpa) (State.setChan_resting hc h _)
      · exact State.setChan_resting hc h _
    case h_8 => exact State.endChan_resting hx hv h c
    case h_9 => exact State.failChan_resting h c _ _

theorem State.continueElement_resting (hx : s.shadow.state = x) (hv : s.variant = v) (h : Resting x v s.chans) (r : Chan) :
    Resting x v (s.continueElement c r).chans := by
  simp only [State.continueElement]
  split
  case h_1 => exact State.rampStep_resting hc h _ _ _ _
  case h_2 | h_3 | h_4 => exact State.deltaAt_resting hc h _ _ _
  case h_5 => exact State.holdStep_resting hc h _
  case h_6 =>
    split
    · have hpassed : Resting x v (s.passAwait c).1.chans := State.passAwait_resting hc h
      obtain ⟨-, hvariant, -, -, -, hshadow, -⟩ := State.passAwait_frame s c
      split
      · rename_i hres
        rw [hres] at hpassed hvariant hshadow
        exact State.reach_resting hc _ ((congrArg Shadow.state hshadow).trans hx) (hvariant.trans hv) hpassed
      · rename_i hres
        rw [hres] at hpassed
        exact hpassed
    · exact State.countAwait_resting hc h
  case h_7 => exact State.reach_resting hc _ hx hv h

end moving

/-- A channel whose step timer runs is out of IDLE, so it may be moved (R30). -/
@[simp] theorem State.expire_resting (hx : s.shadow.state = x) (hv : s.variant = v) (h : Resting x v s.chans)
    (c : Channel) : Resting x v (s.expire c).chans := by
  simp only [State.expire]
  split
  next hrun => exact State.continueElement_resting (h c (by simp [hrun])) hx hv h _
  all_goals exact h

/-! ### The owners of requests, and the Interlocks' events (R4 to R6, R18 to R24, R142 to R151, R173 to R177) -/

@[simp] theorem State.takeLift_resting (hx : s.shadow.state = x) (hv : s.variant = v) (h : Resting x v s.chans)
    (hdr : Header) (f : LiftFields) : Resting x v (State.takeLift hdr f s).chans := by
  have haccepted : ∀ st slot creep, Resting x v (s.acceptLift st slot creep).chans := fun st slot creep =>
    State.enterPhase_resting (by simpa) (by simpa) (by simpa) .approach
  simp only [State.takeLift]
  (repeat' split) <;> simp [h, haccepted]

@[simp] theorem State.renewPermit_resting (h : Resting x v s.chans) : Resting x v s.renewPermit.chans := by
  have hheld : ∀ u : State, u.chans = s.chans → Resting x v u.packersHeld.chans := fun u hu =>
    (State.packers_resting (hu ▸ h)).2.2.2
  simp only [State.renewPermit]
  split
  · simpa using h
  · simpa using hheld _ (by simp)

@[simp] theorem State.resumeCycle_resting (hx : s.shadow.state = x) (hv : s.variant = v) (h : Resting x v s.chans)
    (p : ProfilePhase) : Resting x v (s.resumeCycle p).chans := by
  have hunpaused : Resting x v (s.weighResume.mapChans s.lcc.started Chan.unpause).chans :=
    State.mapChans_resting (by simpa) _ Chan.unpause_keepsIdle
  simp only [State.resumeCycle]
  split
  · exact State.enterPhase_resting (by simpa) (by simpa) (by simpa) _
  · simpa using State.mapChans_resting hunpaused _ Chan.rearm_keepsIdle

@[simp] theorem State.takeResume_resting (hx : s.shadow.state = x) (hv : s.variant = v) (h : Resting x v s.chans)
    (hdr : Header) : Resting x v (s.takeResume hdr).chans := by
  simp only [State.takeResume]
  (repeat' split) <;> simp [hx, hv, h]

@[simp] theorem State.abandon_resting (h : Resting x v s.chans) : Resting x v s.abandon.chans := by
  simpa [State.abandon] using State.mapChans_resting h s.lcc.started Chan.stop_keepsIdle

@[simp] theorem State.enterRecover_resting (hx : s.shadow.state = x) (hv : s.variant = v) (h : Resting x v s.chans)
    (hadFault : Bool) : Resting x v (s.enterRecover hadFault).chans := by
  simp only [State.enterRecover]
  (repeat' split) <;> simp [hx, hv, h]

@[simp] theorem State.takeAbort_resting (hx : s.shadow.state = x) (hv : s.variant = v) (h : Resting x v s.chans)
    (hdr : Header) : Resting x v (s.takeAbort hdr).chans := by
  simp only [State.takeAbort]
  (repeat' split) <;> simp [hx, hv, h]

@[simp] theorem State.takePack_resting (hx : s.shadow.state = x) (hv : s.variant = v) (h : Resting x v s.chans)
    (hdr : Header) (b : Byte) : Resting x v (State.takePack hdr b s).chans := by
  simp only [State.takePack]
  (repeat' split) <;> simp [hx, hv, h]

@[simp] theorem State.takeUnload_resting (hx : s.shadow.state = x) (hv : s.variant = v) (h : Resting x v s.chans)
    (hdr : Header) (b : Byte) : Resting x v (State.takeUnload hdr b s).chans := by
  simp only [State.takeUnload]
  (repeat' split) <;> simp [hx, hv, h]

@[simp] theorem State.takeAbortUnload_resting (hx : s.shadow.state = x) (hv : s.variant = v) (h : Resting x v s.chans)
    (hdr : Header) (b : Byte) : Resting x v (State.takeAbortUnload hdr b s).chans := by
  have hstopped : ∀ c, Resting x v (s.mapChan c Chan.stop).chans := fun c =>
    State.mapChan_resting h c Chan.stop_keepsIdle
  have hdue : ∀ c t g o d, Resting x v (((s.mapChan d Chan.stop).settleEject c t g o).testDue c).chans := fun c t g o d =>
    State.testDue_resting (by simpa) (by simpa) (by simpa using hstopped d) c
  simp only [State.takeAbortUnload]
  (repeat' split) <;> simp [h, hdue]

@[simp] theorem State.useSettings_resting (hx : s.shadow.state = x) (hv : s.variant = v) (h : Resting x v s.chans)
    (l : List (Setting × Nat)) : Resting x v (s.useSettings l).chans := by
  simp only [State.useSettings]
  (repeat' split) <;> simp [hx, hv, h]

@[simp] theorem State.takeSettingPut_resting (hx : s.shadow.state = x) (hv : s.variant = v) (h : Resting x v s.chans)
    (hdr : Header) (l : List (Byte × BitVec 16)) : Resting x v (State.takeSettingPut hdr l s).chans := by
  have hused : ∀ b pairs, Resting x v ((s.setSettings b).useSettings pairs).chans := fun b pairs =>
    State.useSettings_resting (s := s.setSettings b) hx hv h pairs
  simp only [State.takeSettingPut, State.applySettings]
  (repeat' split) <;> simp [h, hused]

@[simp] theorem State.takeChassis_resting (h : Resting x v s.chans) (f : ChassisFields) :
    Resting x v (State.takeChassis f s).chans := by
  have hspeed : ∀ i first, Resting x v ((s.setInter i).recomputeSpeed first).chans := fun i =>
    State.recomputeSpeed_resting (s := s.setInter i) h
  simp [State.takeChassis, hspeed]

@[simp] theorem State.chassisSilent_resting (h : Resting x v s.chans) : Resting x v s.chassisSilent.chans := by
  simpa [State.chassisSilent] using State.recomputeSpeed_resting (s := (s.setInter _).recomputeQa) (by simpa) _

@[simp] theorem State.expirePermit_resting (h : Resting x v s.chans) : Resting x v s.expirePermit.chans := by
  have hcaused : ∀ i, Resting x v ((s.setInter i).addCause .permit).chans := fun i =>
    State.addCause_resting (s := s.setInter i) h .permit
  simp [State.expirePermit, hcaused]

@[simp] theorem State.changePto_resting (hx : s.shadow.state = x) (hv : s.variant = v) (h : Resting x v s.chans)
    (on : Bool) : Resting x v (s.changePto on).chans := by
  have hcaused : ∀ i, Resting x v ((s.setInter i).addCause .pto).chans := fun i =>
    State.addCause_resting (s := s.setInter i) h .pto
  have hon : ∀ u : State, u.chans = s.chans → Resting x v u.packersPtoOn.chans := fun u hu =>
    (State.packers_resting (hu ▸ h)).2.1
  simp only [State.changePto]
  split
  · simpa using State.testDueAll_resting (by simpa) (by simpa) (hon _ (by simp))
  · simp [hcaused]

@[simp] theorem State.finishScan_resting (hx : s.shadow.state = x) (hv : s.variant = v) (h : Resting x v s.chans) :
    Resting x v s.finishScan.chans := by
  simp only [State.finishScan, State.refresh_frame]
  exact State.testDueAll_resting (by simpa) (by simpa) (by simpa)

end resting

/-! ## Commands that touch neither memory nor the shadow -/

/-- The commands that write an addressed memory, or load, verify or discard the shadow. -/
def touchesMemories : Instr → Bool
  | .fullReset .. | .storeVerifyDone | .journalScanDone | .profileWriteDone | .profileEraseDone | .shadowLoad ..
  | .shadowLoadDone | .recordWriteDone | .sectorEraseDone => true
  | _ => false

/-- The shadow, the body variant and the store's verification stand, and no channel is moved that START may not move. -/
@[simp] def KeepsShadow (s t : State) : Prop :=
  t.shadow = s.shadow ∧ t.variant = s.variant ∧ t.store.verifying = s.store.verifying
    ∧ (Resting s.shadow.state s.variant s.chans → Resting s.shadow.state s.variant t.chans)

/-- Beside the shadow, the words and the slots stand. -/
@[simp] def KeepsStored (s t : State) : Prop :=
  KeepsShadow s t ∧ t.store.words = s.store.words ∧ t.journal.slots = s.journal.slots

/-- What keeps the memories and the shadow in both branches of a choice keeps them. -/
theorem KeepsStored.ite {c : Prop} [Decidable c] {s t u : State} (ht : KeepsStored s t) (hu : KeepsStored s u) :
    KeepsStored s (if c then t else u) := by
  split
  · exact ht
  · exact hu

/-- Taking a request from its port keeps the memories and the shadow. -/
theorem State.take_keepsStored {s t : State} {h : Header} {r : Request} (ht : s.take h r = some t) : KeepsStored s t := by
  rcases State.take_eq ht with rfl | ⟨-, rfl⟩ <;> simp

/-- A request whose owner keeps the memories and the shadow keeps them, whether it is taken, refused or let stand (R186). -/
theorem State.request_keepsStored {α : Type} {s : State} {h : Header} {r : Request} {b : Payload α}
    {owner : α → State → State} (ho : ∀ f t, KeepsStored t (owner f t)) : KeepsStored s (s.request h r b owner) := by
  refine State.request_cases (P := KeepsStored s) (by simp) fun t ht => ?_
  rcases State.take_eq ht with rfl | ⟨-, rfl⟩
  · exact ⟨fun c => by simp, fun f _ _ => ho f t⟩
  · exact ⟨fun c => by simp, fun f _ _ => by simpa using ho f (s.popped h)⟩

/-- A release request starts a write of a mark cell, which is no slot (R165). -/
@[simp] theorem State.takeJournalRelease_slots (h : Header) (w : Word32) (s : State) :
    (State.takeJournalRelease h w s).journal.slots = s.journal.slots := by
  simp only [State.takeJournalRelease, State.startRelease, Journal.startRelease]
  (repeat' split) <;> simp

/-- A store request leaves the words as they stand until its completion (R53, R54). -/
@[simp] theorem State.startStoreJob_words (s : State) (h : Header) (k : Byte) (j : StoreJob) :
    (s.startStoreJob h k j).store.words = s.store.words := by
  simp only [State.startStoreJob, Store.begin]
  (repeat' split) <;> simp

@[simp] theorem State.takeProfileWrite_words (h : Header) (f : ProfileWriteFields) (s : State) :
    (State.takeProfileWrite h f s).store.words = s.store.words := by
  simp only [State.takeProfileWrite, State.storeRequest]
  (repeat' split) <;> simp

@[simp] theorem State.takeProfileErase_words (h : Header) (b : Byte) (s : State) :
    (State.takeProfileErase h b s).store.words = s.store.words := by
  simp only [State.takeProfileErase, State.storeRequest]
  (repeat' split) <;> simp

/-- A store request leaves the verification as it stands (R51). -/
@[simp] theorem State.startStoreJob_verifying (s : State) (h : Header) (k : Byte) (j : StoreJob) :
    (s.startStoreJob h k j).store.verifying = s.store.verifying := by
  simp only [State.startStoreJob, Store.begin]
  (repeat' split) <;> simp

@[simp] theorem State.takeProfileWrite_verifying (h : Header) (f : ProfileWriteFields) (s : State) :
    (State.takeProfileWrite h f s).store.verifying = s.store.verifying := by
  simp only [State.takeProfileWrite, State.storeRequest]
  (repeat' split) <;> simp

@[simp] theorem State.takeProfileErase_verifying (h : Header) (b : Byte) (s : State) :
    (State.takeProfileErase h b s).store.verifying = s.store.verifying := by
  simp only [State.takeProfileErase, State.storeRequest]
  (repeat' split) <;> simp

/-- A completed release write raises the mark and leaves the slots (R165). -/
@[simp] theorem Journal.finishRelease_slots (j : Journal) (w : ReleaseWrite) : (j.finishRelease w).slots = j.slots := by
  simp [Journal.finishRelease]

/-- Every other command keeps the memories and the shadow, and moves no channel that START may not move: a request by what its
owner keeps, an event by what its effect keeps. -/
theorem exec_keepsStored (i : Instr) (hi : touchesMemories i = false) (s : State) :
    ∃ t, exec i s = .next t ∧ KeepsStored s t := by
  cases i with
  | fullReset g p | storeVerifyDone | journalScanDone | profileWriteDone | profileEraseDone | shadowLoad h b
  | shadowLoadDone | recordWriteDone | sectorEraseDone => cases hi
  | lift h b | permit h b | resume h b | abort h b | cycleClear h b | pack h b | unload h b | abortUnload h b
  | faultClear h b | statusGet h b | entryPut h b | entryDrop h b | entryGet h b | tableClear h b | tableReady h b
  | journalRead h b | journalRelease h b | timeSet h b | slotMap h b | settingPut h b | settingGet h b | freezeLock h b
  | closeLock h b | setCode h b | trialSet h b | trialDiscard h b | commit h b | serviceZero h b | liveWeight h b
  | attrRead h b | profileWrite h b | profileErase h b | chassisState h b =>
    exact ⟨_, rfl, State.request_keepsStored fun _ _ => by simp +contextual⟩
  | openLock h b w =>
    have hseen : KeepsStored (s.setPins { s.pins with lockWireOpen := w }) _ :=
      State.request_keepsStored (h := h) (r := .openLock b) (b := b) (owner := State.takeOpen h) fun _ _ => by simp
    exact ⟨_, rfl, hseen⟩
  | unknownKind h k =>
    refine ⟨_, rfl, ?_⟩
    split
    next t ht => simpa using State.take_keepsStored ht
    next => simp
  | frameArrival f | messageSent p | serviceByteGap l | tagLineBreak | busOff p | linkReset p | tagSeen tag n
  | commitWriteDone | inclinometerReading x y | inclinometerStale | watchedInputChange w v | payloadTimerExpiry
  | secondTick | lineByteArrival l b => exact ⟨_, rfl, by simp⟩
  | settingsReadDone | metrologyReadDone | samplePair x y | pressureReading k p | ptoChange on | permitExpiry
  | silenceExpiry | coilOnTimeEnd k d | coilShort k d n =>
    exact ⟨_, rfl, .ite (by simp +contextual) (by simp +contextual)⟩
  | coilPeriodStart k d n => exact ⟨_, rfl, .ite (.ite (by simp +contextual) (by simp)) (by simp)⟩
  | counterWriteDone | verifyWriteDone | makerWriteDone | codeWriteDone | settingsWriteDone | releaseWriteDone =>
    refine ⟨_, rfl, ?_⟩
    split <;> simp
  | stepExpiry k x =>
    refine ⟨_, rfl, ?_⟩
    split
    next =>
      refine .ite ⟨⟨by simp, by simp, by simp, fun h => ?_⟩, by simp, by simp⟩ (by simp)
      simpa using State.expire_resting (s := s.setPins { s.pins with sensors := x }) rfl rfl h k
    all_goals simp

end Sys2Proof.Machine

namespace Sys2Proof.Machine

/-! ## The addressed memories in canonical form (R50, R55, R153) -/

/-- Writes at any addresses, some of them left out, keep the canonical form. -/
theorem foldl_writeCell_wf {α : Type} {w : Nat} {erased : Nat → BitVec w} (skip : α → Bool) (a : α → Nat)
    (v : α → BitVec w)
    (l : List α) {m : List (Nat × BitVec w)} (hm : cellsWf erased m = true) :
    cellsWf erased (l.foldl (fun m e => if skip e then m else writeCell erased m (a e) (v e)) m) = true := by
  induction l generalizing m with
  | nil => exact hm
  | cons e l ih =>
    rw [List.foldl_cons]
    cases skip e with
    | true => exact ih hm
    | false => exact ih (writeCell_wf hm _ _)

/-- The words of a store whose work was cut (R53, log 14). -/
theorem cutStore_wf (ix : Nat) {x : Store} (hm : cellsWf erasedWord x.words = true) :
    cellsWf erasedWord (cutStore ix x) = true := by
  simp only [cutStore]
  split
  next => exact hm
  next base ws _ =>
    simpa using foldl_writeCell_wf (fun e : Nat × Word32 => decide (Config.freeNat (ix + e.1) % 2 = 0)) (base + ·.1) (·.2) _ hm
  next => exact filter_wf hm _

/-- The slots of a journal whose record write or erase was cut (R167, logs 12, 13). -/
theorem cutSlots_wf (ix : Nat) {j : Journal} (hm : cellsWf erasedSlot j.slots = true) :
    cellsWf erasedSlot (cutSlots ix j) = true := by
  have hwritten : ∀ i r, cellsWf erasedSlot (writeCell erasedSlot j.slots i (cutRecord ix r)) = true :=
    fun i r => writeCell_wf hm i _
  simp only [cutSlots]
  split <;> split
  · exact writeCells_wf _ (hwritten _ _) _
  · exact writeCells_wf _ hm _
  · exact hwritten _ _
  · exact hm

/-- The words of a store after an erase (R54). -/
theorem eraseWords_wf {m : Words} (hm : cellsWf erasedWord m = true) (area : Option Area) :
    cellsWf erasedWord (eraseWords m area) = true := by
  cases area with
  | none => rfl
  | some a => exact eraseRange_wf hm _ _

/-- The slots with the torn records voided (R169). -/
theorem Journal.voided_wf {j : Journal} (hm : cellsWf erasedSlot j.slots = true) :
    cellsWf erasedSlot j.voided = true := by
  simp only [Journal.voided]
  split
  · exact hm
  · simpa using foldl_writeCell_wf (fun _ => false) _ (fun _ => 0#512) _ hm

/-- The scan changes no slot but those it voids (R169). -/
theorem Journal.scan_slots (j : Journal) : j.scan.slots = j.voided := by
  simp [Journal.scan]

/-- A completed record write keeps the slots canonical (R160). -/
theorem Journal.finishWrite_wf {j : Journal} (hm : cellsWf erasedSlot j.slots = true) :
    cellsWf erasedSlot j.finishWrite.slots = true := by
  simp only [Journal.finishWrite]
  split
  next i r _ _ _ =>
    have hwritten : cellsWf erasedSlot (writeCell erasedSlot j.slots i r.bits) = true := writeCell_wf hm i _
    rw [Journal.startErase_slots]
    (repeat' split) <;> simpa using hwritten
  next => exact hm

/-- A completed sector erase keeps the slots canonical (R162). -/
theorem Journal.finishErase_wf {j : Journal} (hm : cellsWf erasedSlot j.slots = true) :
    cellsWf erasedSlot j.finishErase.slots = true := by
  simp only [Journal.finishErase]
  split
  · simpa using eraseRange_wf hm _ _
  · exact hm

/-- The checks of a copy's elements stand as its words do: at rising addresses, none that of an erased element (R58). -/
theorem copyOf_checks_wf {m : Words} (hm : cellsWf erasedWord m = true) :
    cellsWf erasedCheck (copyOf m).checks = true := by
  have hrising := ((cellsWf_iff m).mp hm).1
  rw [cellsWf_iff]
  refine ⟨((hrising.filter _).map (fun e : Nat × Word32 => (e.1, elementCheck e.2)) fun _ _ h => h).filter _, fun e he => ?_⟩
  simpa [erasedCheck] using (List.mem_filter.mp he).2

/-- The words and the slots stand, and the shadow's copy stands or is discarded. -/
@[simp] def KeepsMemories (s t : State) : Prop :=
  t.store.words = s.store.words ∧ t.journal.slots = s.journal.slots ∧ (t.shadow = s.shadow ∨ t.shadow.content = none)

/-- Memories that stand stay canonical. -/
theorem KeepsMemories.canonical {s t : State} (h : KeepsMemories s t) (hs : MemoryCanonical s) : MemoryCanonical t := by
  obtain ⟨hwords, hslots, hshadow⟩ := h
  obtain ⟨hw, hj, hc⟩ := hs
  refine ⟨by rwa [hwords], by rwa [hslots], fun c hcopy => ?_⟩
  rcases hshadow with hshadow | hnone
  · exact hc c (hshadow ▸ hcopy)
  · rw [hnone] at hcopy
    cases hcopy

/-- What keeps the shadow keeps its copy. -/
theorem KeepsStored.memories {s t : State} (h : KeepsStored s t) : KeepsMemories s t := by
  obtain ⟨⟨hshadow, -⟩, hwords, hslots⟩ := h
  exact ⟨hwords, hslots, .inl hshadow⟩

/-- A SHADOW_LOAD leaves the copy or discards it (R56). -/
@[simp] theorem State.takeShadowLoad_copy (h : Header) (s : State) :
    (s.takeShadowLoad h).shadow = s.shadow ∨ (s.takeShadowLoad h).shadow.content = none := by
  simp only [State.takeShadowLoad, State.storeRequest, Shadow.loading]
  (repeat' split) <;> simp

/-- The start-up verification leaves the words, and the copy or discards it (R51, R59). -/
theorem State.verifyStore_keepsMemories (s : State) : KeepsMemories s s.verifyStore := by
  simp only [State.verifyStore, Shadow.loading]
  split <;> simp

/-- A full reset: what the cuts leave of the words and of the slots, the shadow without a copy (R1, R53, R167). -/
theorem State.fullReset_canonical {s : State} (h : MemoryCanonical s) (strap pto : Bool) :
    MemoryCanonical (s.fullReset strap pto) := by
  obtain ⟨hw, hj, -⟩ := h
  exact ⟨cutStore_wf _ hw, cutSlots_wf _ hj, fun c hc => nomatch hc⟩

/-- The scan's end leaves the slots with the torn records voided (R169). -/
@[simp] theorem State.finishScan_slots (s : State) : s.finishScan.journal.slots = s.journal.voided := by
  simp [State.finishScan, Journal.scan_slots]

theorem State.finishScan_canonical {s : State} (h : MemoryCanonical s) : MemoryCanonical s.finishScan := by
  obtain ⟨hw, hj, hc⟩ := h
  simpa [MemoryCanonical, hw, Journal.voided_wf hj] using hc

theorem State.finishProfileWrite_canonical {s : State} (h : MemoryCanonical s) : MemoryCanonical s.finishProfileWrite := by
  obtain ⟨hw, hj, hc⟩ := h
  simp only [State.finishProfileWrite]
  split
  next base ws _ => simpa [MemoryCanonical, Store.settle, hj, writeCells_wf ws hw base] using hc
  next => exact ⟨hw, hj, hc⟩

theorem State.finishProfileErase_canonical {s : State} (h : MemoryCanonical s) : MemoryCanonical s.finishProfileErase := by
  obtain ⟨hw, hj, hc⟩ := h
  simp only [State.finishProfileErase]
  split
  next area _ => simpa [MemoryCanonical, Store.settle, hj, eraseWords_wf hw area] using hc
  next => exact ⟨hw, hj, hc⟩

/-- The completion of a load leaves the copy of the store's words, or none (R57). -/
theorem State.finishShadowLoad_canonical {s : State} (h : MemoryCanonical s) : MemoryCanonical s.finishShadowLoad := by
  obtain ⟨hw, hj, hc⟩ := h
  have hcopy : cellsWf erasedWord (copyOf s.store.words).words = true := hw
  simp only [State.finishShadowLoad]
  split
  next =>
    simp only [State.finishLoad]
    split <;> rename_i heq <;> split at heq <;> cases heq
    · simp [MemoryCanonical, hw, hj, hcopy, copyOf_checks_wf hw]
    · simp [MemoryCanonical, hw, hj, Shadow.reset]
  all_goals exact ⟨hw, hj, hc⟩

/-- SHADOW_LOAD keeps the words and the slots, and the copy or discards it (R56). -/
theorem State.request_shadowLoad_keepsMemories (s : State) (h : Header) (b : Payload Unit) :
    KeepsMemories s (s.request h (.shadowLoad b) b fun _ t => t.takeShadowLoad h) := by
  refine State.request_cases (P := KeepsMemories s) (by simp) fun t ht => ?_
  obtain ⟨⟨hshadow, -⟩, hwords, hslots⟩ := State.take_keepsStored ht
  refine ⟨fun c => by simp [hwords, hslots, hshadow], fun _ _ _ => ?_⟩
  have hcopy : (t.takeShadowLoad h).shadow = t.shadow ∨ (t.takeShadowLoad h).shadow.content = none :=
    State.takeShadowLoad_copy h t
  exact ⟨by simp [hwords], by simp [hslots], by rwa [hshadow] at hcopy⟩

/-- Every command keeps the addressed memories canonical: those that touch them by their own lemmas (R50, R55, R153). -/
theorem exec_canonical (i : Instr) {s : State} (hs : MemoryCanonical s) :
    ∃ t, exec i s = .next t ∧ MemoryCanonical t := by
  have hother : touchesMemories i = false → ∃ t, exec i s = .next t ∧ MemoryCanonical t := fun hi => by
    obtain ⟨t, hexec, hkept⟩ := exec_keepsStored i hi s
    exact ⟨t, hexec, hkept.memories.canonical hs⟩
  cases i with
  | fullReset g p => exact ⟨_, rfl, State.fullReset_canonical hs g p⟩
  | storeVerifyDone =>
    refine ⟨_, rfl, ?_⟩
    split
    · exact s.verifyStore_keepsMemories.canonical hs
    · exact hs
  | journalScanDone =>
    refine ⟨_, rfl, ?_⟩
    split
    · exact State.finishScan_canonical hs
    · exact hs
  | profileWriteDone => exact ⟨_, rfl, State.finishProfileWrite_canonical hs⟩
  | profileEraseDone => exact ⟨_, rfl, State.finishProfileErase_canonical hs⟩
  | shadowLoad h b => exact ⟨_, rfl, (s.request_shadowLoad_keepsMemories h b).canonical hs⟩
  | shadowLoadDone => exact ⟨_, rfl, State.finishShadowLoad_canonical hs⟩
  | recordWriteDone =>
    obtain ⟨hw, hj, hc⟩ := hs
    exact ⟨_, rfl, hw, Journal.finishWrite_wf hj, hc⟩
  | sectorEraseDone =>
    obtain ⟨hw, hj, hc⟩ := hs
    exact ⟨_, rfl, hw, Journal.finishErase_wf hj, hc⟩
  | _ => exact hother rfl

/-- Settles O3: an empty queue idles, and the command at its front keeps the memories canonical by `exec_canonical`. -/
theorem memoryStaysCanonical : Obligations.MemoryStaysCanonical := by
  unfold Obligations.MemoryStaysCanonical
  intro s t h hstep
  simp only [step] at hstep
  split at hstep
  next => cases hstep; exact h
  next c rest _ =>
    obtain ⟨u, hexec, hu⟩ := exec_canonical c (s := { s with pending := rest }) h
    rw [hexec] at hstep
    cases hstep
    exact hu

end Sys2Proof.Machine

namespace Sys2Proof.Machine

/-! ## The shadow is not changed in motion (R57, R61) -/

/-- The guards, by the channels at rest. -/
theorem shadowGuards_iff (s : State) :
    ShadowGuards s ↔ Resting s.shadow.state s.variant s.chans ∧ (s.store.verifying = true → s.shadow.state = .invalid) := by
  have hrest : Resting s.shadow.state s.variant s.chans
      ↔ ∀ c, (s.shadow.state ≠ .ready ∨ s.hasChannel c = false) → (s.chans.get c).state = .idle := by
    refine forall_congr' fun c => ?_
    rw [← Bool.not_eq_true, ← not_and_or, not_imp_comm]
    rfl
  rw [ShadowGuards, hrest]

/-- A shadow that stands keeps the guards. -/
theorem KeepsShadow.guards {s t : State} (h : KeepsShadow s t) (hs : ShadowGuards s) : ShadowGuards t := by
  obtain ⟨hshadow, hvariant, hverifying, hrest⟩ := h
  rw [shadowGuards_iff] at hs ⊢
  rw [hshadow, hvariant, hverifying]
  exact ⟨hrest hs.1, hs.2⟩

@[simp] theorem State.finishProfile_verifying (s : State) :
    s.finishProfileWrite.store.verifying = s.store.verifying ∧ s.finishProfileErase.store.verifying = s.store.verifying := by
  simp only [State.finishProfileWrite, State.finishProfileErase, Store.settle]
  constructor <;> split <;> simp

/-- With the shadow not READY every channel is IDLE. -/
theorem Resting.idle {x : ShadowState} {v : Variant} {m : Six Chan} (h : Resting x v m) (hx : x ≠ .ready) (c : Channel) :
    (m.get c).state = .idle := by
  by_contra hne
  exact hx (h c hne).1

/-- Channels that are all IDLE are at rest, whatever the shadow. -/
theorem Resting.of_idle {m : Six Chan} (h : ∀ c, (m.get c).state = .idle) (x : ShadowState) (v : Variant) :
    Resting x v m :=
  fun c hne => absurd (h c) hne

/-- A command met the guards with every channel IDLE, or it left the shadow as it stood. -/
def ShadowSafe (s t : State) : Prop := ShadowGuards t ∧ (t.shadow = s.shadow ∨ ∀ c, (s.chans.get c).state = .idle)

/-- A shadow that stands is safe. -/
theorem KeepsShadow.safe {s t : State} (h : KeepsShadow s t) (hs : ShadowGuards s) : ShadowSafe s t :=
  ⟨h.guards hs, .inl h.1⟩

/-- The start-up verification finds the shadow INVALID, so every channel IDLE (R51, R59). -/
theorem State.verifyStore_safe {s : State} (hs : ShadowGuards s) (hv : s.store.verifying = true) :
    ShadowSafe s s.verifyStore := by
  obtain ⟨hrest, hinvalid⟩ := (shadowGuards_iff s).mp hs
  have hidle : ∀ c, (s.chans.get c).state = .idle := hrest.idle (by simp [hinvalid hv])
  refine ⟨(shadowGuards_iff _).mpr ⟨by simpa using Resting.of_idle hidle _ _, ?_⟩, .inr hidle⟩
  simp only [State.verifyStore]
  split <;> simp

/-- A load is taken with every channel IDLE: a present one by its check, an absent one by the guards (R56). -/
theorem State.idle_of_mayLoad {s : State} (hs : ShadowGuards s) (h : s.mayLoad = true) (c : Channel) :
    (s.chans.get c).state = .idle := by
  cases hc : s.hasChannel c with
  | false => exact hs.1 c (.inr hc)
  | true =>
    simp only [State.mayLoad, Bool.and_eq_true, List.all_eq_true] at h
    obtain ⟨⟨⟨-, hchans⟩, -⟩, -⟩ := h
    simpa [hc] using hchans c (by cases c <;> simp [allChannels])

/-- SHADOW_LOAD discards the shadow with every channel IDLE, or leaves it (R56, R57). -/
theorem State.takeShadowLoad_safe {s : State} (hs : ShadowGuards s) (h : Header) : ShadowSafe s (s.takeShadowLoad h) := by
  have hkept : ∀ k code d, ShadowSafe s (s.answer h k code d) := fun k code d =>
    KeepsShadow.safe (by simp) hs
  simp only [State.takeShadowLoad, State.storeRequest]
  split
  · exact hkept _ _ _
  split
  · exact hkept _ _ _
  split
  · exact hkept _ _ _
  rename_i hverifying hmay _
  have hidle : ∀ c, (s.chans.get c).state = .idle := State.idle_of_mayLoad hs (by simpa using hmay)
  exact ⟨(shadowGuards_iff _).mpr ⟨by simpa using Resting.of_idle hidle _ _, by simp [hverifying]⟩, .inr hidle⟩

/-- The completion of a load finds the shadow LOADING, so every channel IDLE; a due pack cycle starts with it READY (R57). -/
theorem State.finishShadowLoad_safe {s : State} (hs : ShadowGuards s) : ShadowSafe s s.finishShadowLoad := by
  obtain ⟨hrest, hinvalid⟩ := (shadowGuards_iff s).mp hs
  simp only [State.finishShadowLoad]
  split
  next hloading =>
    have hidle : ∀ c, (s.chans.get c).state = .idle := hrest.idle (by simp [hloading])
    have hverified : s.store.verifying = false := by
      by_contra hv
      simp [hinvalid (by simpa using hv)] at hloading
    refine ⟨(shadowGuards_iff _).mpr ?_, .inr hidle⟩
    simp only [State.finishLoad]
    split <;> rename_i heq <;> split at heq <;> cases heq
    · refine ⟨?_, by simp [hverified]⟩
      simpa using State.testDueAll_resting (x := .ready) (v := s.variant) (by simp) (by simp)
        (by simpa using Resting.of_idle hidle _ _)
    · exact ⟨by simpa using Resting.of_idle hidle _ _, by simp [hverified]⟩
  all_goals exact KeepsShadow.safe (by simp) hs

/-- A request for a load leaves the guards, and changes the shadow only with every channel IDLE (R56, R57). -/
theorem State.request_shadowLoad_safe {s : State} (hs : ShadowGuards s) (h : Header) (b : Payload Unit) :
    ShadowSafe s (s.request h (.shadowLoad b) b fun _ t => t.takeShadowLoad h) := by
  refine State.request_cases (P := ShadowSafe s) (KeepsShadow.safe (by simp) hs) fun t ht => ?_
  obtain ⟨hkept, -⟩ := State.take_keepsStored ht
  have hchans : t.chans = s.chans := by rcases State.take_eq ht with rfl | ⟨-, rfl⟩ <;> simp
  refine ⟨fun c => KeepsShadow.safe (by simpa using hkept) hs, fun _ _ _ => ?_⟩
  have htaken : ShadowSafe t (t.takeShadowLoad h) := State.takeShadowLoad_safe (hkept.guards hs) h
  rwa [ShadowSafe, hkept.1, hchans] at htaken

/-- Every command but FULL_RESET leaves the guards, and changes the shadow only with every channel IDLE: those that touch it by
their own lemmas (R57, R61). -/
theorem exec_shadowSafe (i : Instr) (hreset : ∀ g p, i ≠ .fullReset g p) {s : State} (hs : ShadowGuards s) :
    ∃ t, exec i s = .next t ∧ ShadowSafe s t := by
  have hother : touchesMemories i = false → ∃ t, exec i s = .next t ∧ ShadowSafe s t := fun hi => by
    obtain ⟨t, hexec, hkept⟩ := exec_keepsStored i hi s
    exact ⟨t, hexec, hkept.1.safe hs⟩
  cases i with
  | fullReset g p => exact absurd rfl (hreset g p)
  | storeVerifyDone =>
    refine ⟨_, rfl, ?_⟩
    split
    next hv => exact State.verifyStore_safe hs (by simp_all)
    next => exact KeepsShadow.safe (by simp) hs
  | journalScanDone =>
    refine ⟨_, rfl, ?_⟩
    split
    · exact KeepsShadow.safe (by simp +contextual) hs
    · exact KeepsShadow.safe (by simp) hs
  | shadowLoad h b => exact ⟨_, rfl, State.request_shadowLoad_safe hs h b⟩
  | shadowLoadDone => exact ⟨_, rfl, State.finishShadowLoad_safe hs⟩
  | profileWriteDone | profileEraseDone | recordWriteDone | sectorEraseDone =>
    exact ⟨_, rfl, KeepsShadow.safe (by simp) hs⟩
  | _ => exact hother rfl

/-- A full reset leaves every channel IDLE and the shadow INVALID (R1). -/
theorem State.fullReset_guards (s : State) (strap pto : Bool) : ShadowGuards (s.fullReset strap pto) :=
  ⟨fun c _ => by cases c <;> rfl, fun _ => rfl⟩

/-- Settles O9: FULL_RESET by `fullReset_guards`, every other command by `exec_shadowSafe`. -/
theorem shadowNeverChangesInMotion : Obligations.ShadowNeverChangesInMotion := by
  unfold Obligations.ShadowNeverChangesInMotion
  intro s t i hs hexec
  by_cases hreset : ∃ g p, i = .fullReset g p
  · obtain ⟨g, p, rfl⟩ := hreset
    cases hexec
    exact ⟨State.fullReset_guards s g p, fun _ h => absurd rfl (h g p)⟩
  · obtain ⟨u, hu, hguards, hsafe⟩ := exec_shadowSafe i (by simpa using hreset) hs
    rw [hu] at hexec
    cases hexec
    exact ⟨hguards, fun ⟨c, hc⟩ _ => hsafe.resolve_right fun hidle => hc (hidle c)⟩

end Sys2Proof.Machine

namespace Sys2Proof.Machine

/-! ## The start-up verification of the store (R51, R59) -/

/-- What the body link gains is the indication (R188). -/
theorem Gains.indicated {s t : State} {i : Indication} (h : Gains s t [.indication i]) : Indicated s t i :=
  fun hb hl => h.2 hb (by simpa using hl)

/-- A stored check that matches the words makes the store VALID and starts the automatic load (R51, R59). -/
theorem State.verifyStore_match {s : State} (h : s.store.check = some (storeCrc s.store.words)) :
    s.verifyStore = (s.setStore { s.store with verifying := false, state := .valid }).setShadow Shadow.loading :=
  if_pos h

/-- Any other stored check makes the store INVALID, with the alert (R51). -/
theorem State.verifyStore_mismatch {s : State} (h : s.store.check ≠ some (storeCrc s.store.words)) :
    s.verifyStore = (s.setStore { s.store with verifying := false, state := .invalid }).alert .storeInvalid :=
  if_neg h

/-- Settles O17, by the two outcomes of the verification. -/
theorem storeVerifiedAtStartUp : Obligations.StoreVerifiedAtStartUp := by
  unfold Obligations.StoreVerifiedAtStartUp
  intro s hverifying hread
  have hexec : exec .storeVerifyDone s = .next s.verifyStore := by
    change Host.Outcome.next _ = _
    simp [hverifying, hread]
  refine ⟨s.verifyStore, hexec, ?_⟩
  by_cases hmatch : s.store.check = some (storeCrc s.store.words)
  · rw [State.verifyStore_match hmatch]
    exact ⟨rfl, rfl, rfl, fun _ => ⟨rfl, rfl, rfl⟩, fun hne => absurd hmatch hne, rfl⟩
  · rw [State.verifyStore_mismatch hmatch]
    have halert : Indicated s _ (.alert .storeInvalid) := Gains.indicated
      (State.alert_gains (s.setStore { s.store with verifying := false, state := .invalid }) .storeInvalid)
    exact ⟨by simp, by simp, by simp, fun heq => absurd heq hmatch, fun _ => ⟨by simp, by simp, halert⟩,
      by simp [State.core_eq_iff]⟩

end Sys2Proof.Machine

namespace Sys2Proof.Machine

/-! ## The clock and the slot map (R62, R180) -/

/-- A request other than CHASSIS_STATE that its sender may make does not come in on the chassis link (R186). -/
theorem Taken.port_ne_chassis {s : State} {h : Header} {r : Request} (ht : Taken s h r) (hr : ∀ b, r ≠ .chassisState b) :
    h.src.port ≠ .chassis :=
  Request.port_of_allowed ht.2 hr

/-- A request answered in one frame, with no other effect (R182, R186). -/
theorem settled_unchanged {s t : State} {h : Header} {k : Byte} {c : Code} {d : AnswerData} (hp : h.src.port ≠ .chassis)
    (hd : ∀ ix, partCount ix d = 1) (ht : t = (s.popped h).answer h k c d) : t.core = s.core ∧ Settled s t h k c d := by
  subst ht
  exact ⟨by simp, settled_of_answer rfl hp (hd _).le⟩

/-! ### The slot map -/

/-- The set of a slot after another or the same slot was given one (R62). -/
theorem SlotSets.get_put (m : SlotSets) {i k : Nat} (hi : i ≤ 3) (hk : k ≤ 3) (n : Nat) :
    (m.put i n).get k = if k = i then n else m.get k := by
  interval_cases i <;> interval_cases k <;> rfl

/-- The slot map with the pairs of a list applied in turn (R62). -/
def SlotSets.putAll (m : SlotSets) (l : List (Byte × Byte)) : SlotSets := l.foldl (fun m e => m.put e.1.toNat e.2.toNat) m

@[simp] theorem SlotSets.putAll_cons (m : SlotSets) (e : Byte × Byte) (l : List (Byte × Byte)) :
    m.putAll (e :: l) = (m.put e.1.toNat e.2.toNat).putAll l := rfl

/-- A slot that no pair names keeps its set. -/
theorem SlotSets.putAll_get_other {l : List (Byte × Byte)} (hr : ∀ e ∈ l, e.1.toNat ≤ 3) {k : Nat} (hk : k ≤ 3)
    (hn : ∀ e ∈ l, e.1.toNat ≠ k) (m : SlotSets) : (m.putAll l).get k = m.get k := by
  induction l generalizing m with
  | nil => rfl
  | cons e l ih =>
    rw [List.forall_mem_cons] at hr hn
    rw [SlotSets.putAll_cons, ih hr.2 hn.2, SlotSets.get_put m hr.1 hk, if_neg (Ne.symm hn.1)]

/-- A slot that one pair names has the set of that pair. -/
theorem SlotSets.putAll_get {l : List (Byte × Byte)} (hr : ∀ e ∈ l, e.1.toNat ≤ 3) (hd : (l.map Prod.fst).Nodup)
    (m : SlotSets) : ∀ e ∈ l, (m.putAll l).get e.1.toNat = e.2.toNat := by
  induction l generalizing m with
  | nil => simp
  | cons f l ih =>
    rw [List.forall_mem_cons] at hr
    rw [List.map_cons, List.nodup_cons] at hd
    have hother : ∀ e ∈ l, e.1.toNat ≠ f.1.toNat := fun e he heq =>
      hd.1 (BitVec.eq_of_toNat_eq heq ▸ List.mem_map_of_mem he)
    rw [List.forall_mem_cons, SlotSets.putAll_cons]
    refine ⟨?_, ih hr.2 hd.2 _⟩
    rw [SlotSets.putAll_get_other hr.2 hr.1 hother, SlotSets.get_put m hr.1 hr.1, if_pos rfl]

/-- The model's test for names that stand once. -/
theorem distinct_iff {α : Type} [DecidableEq α] (l : List α) : distinct l = true ↔ l.Nodup := by
  induction l with
  | nil => simp [distinct]
  | cons a l ih => simp [distinct, ih]

/-- A list that SLOT_MAP takes: 1 to 4 pairs in range, no slot twice (R62, log 27). -/
theorem slotListOk_iff (l : List (Byte × Byte)) :
    slotListOk l = true ↔ 1 ≤ l.length ∧ l.length ≤ 4 ∧ (∀ e ∈ l, e.1.toNat ≤ 3 ∧ e.2.toNat ≤ 15)
      ∧ (l.map Prod.fst).Nodup := by
  simp only [slotListOk, Bool.and_eq_true, decide_eq_true_eq, List.all_eq_true, distinct_iff, and_assoc]

/-- Settles O38: TIME_SET and SLOT_MAP by the branches of their owners, SECOND_TICK by its definition. -/
theorem clockAndSlotMap : Obligations.ClockAndSlotMap := by
  unfold Obligations.ClockAndSlotMap
  intro s h
  refine ⟨fun w ht => ?time, rfl, fun l ht => ?slots⟩
  case time =>
    have hp : h.src.port ≠ .chassis := ht.port_ne_chassis (by simp)
    refine ⟨State.takeTimeSet h w (s.popped h), congrArg Host.Outcome.next (State.request_taken s h _ w _ ht),
      fun hw => settled_unchanged hp (fun _ => rfl) (if_pos hw), fun hw => ?_⟩
    have htaken : State.takeTimeSet h w (s.popped h) = _ := if_neg hw
    rw [htaken]
    exact ⟨by simp [State.core_eq_iff], settled_of_answer rfl hp le_rfl⟩
  case slots =>
    have hp : h.src.port ≠ .chassis := ht.port_ne_chassis (by simp)
    refine ⟨State.takeSlotMap h l (s.popped h), congrArg Host.Outcome.next (State.request_taken s h _ l _ ht),
      fun hmin hmax hrange hdistinct => ?_, fun hbad => settled_unchanged hp (fun _ => rfl) (if_neg ?_)⟩
    · have hslots : ∀ e ∈ l, e.1.toNat ≤ 3 := fun e he => (hrange e he).1
      have htaken : State.takeSlotMap h l (s.popped h)
          = ((s.popped h).setSlotMap (s.slotMap.putAll l)).answer h 24#8 .ok (.slots (s.slotMap.putAll l)) := by
        rw [State.takeSlotMap, if_pos ((slotListOk_iff l).mpr ⟨hmin, hmax, hrange, hdistinct⟩), SlotSets.putAll]
        simp
      have hmap : (State.takeSlotMap h l (s.popped h)).slotMap = s.slotMap.putAll l := by rw [htaken]; simp
      rw [hmap, htaken]
      exact ⟨SlotSets.putAll_get hslots hdistinct _, fun k hk hn => SlotSets.putAll_get_other hslots hk hn _,
        by simp [State.core_eq_iff], settled_of_answer rfl hp le_rfl⟩
    · rw [slotListOk_iff]
      rintro ⟨hmin, hmax, hrange, hdistinct⟩
      rcases hbad with hnil | hlong | ⟨e, he, hout⟩ | htwice
      · omega
      · omega
      · have hin := hrange e he
        omega
      · exact htwice hdistinct

end Sys2Proof.Machine

namespace Sys2Proof.Machine

/-! ## Writes and erases of the profile store (R50 to R54) -/

/-! ### Areas and permitted entries (R50, R195) -/

/-- An address table's entry fits its field of 14 bits, or is absent (R195). -/
theorem addressWordOk_iff (w : Word32) : addressWordOk w = true ↔ w = 0xFFFFFFFF#32 ∨ w.toNat ≤ 16383 := by
  have hlt : w.toNat < 2 ^ 32 := w.isLt
  have hfield : (w.extractLsb' 14 18).toNat = 0 ↔ w.toNat ≤ 16383 := by
    rw [BitVec.extractLsb'_toNat, Nat.shiftRight_eq_div_pow]
    omega
  simp only [addressWordOk, Bool.or_eq_true, beq_iff_eq, hfield]

/-- A condition table's entry has its form, or is unused (R195). -/
theorem conditionWordOk_iff (w : Word32) :
    conditionWordOk w = true ↔ w = 0xFFFFFFFF#32 ∨ ((w.extractLsb' 0 5).toNat ≤ 14 ∧ (w.extractLsb' 8 2).toNat ≤ 2
      ∧ w.extractLsb' 5 3 = 0#3 ∧ w.extractLsb' 10 6 = 0#6) := by
  have hzero : ∀ {n : Nat} (x : BitVec n), x.toNat = 0 ↔ x = 0#n := fun x =>
    ⟨fun h => BitVec.eq_of_toNat_eq (by simpa using h), fun h => by simp [h]⟩
  simp only [conditionWordOk, Bool.or_eq_true, Bool.and_eq_true, beq_iff_eq, decide_eq_true_eq, hzero, and_assoc]

/-- The table of areas and the model's areas: place, size, code and permitted entries (R50, R195, R197). -/
theorem areaTable_spec {a : Area} {code base size : Nat} (h : (a, code, base, size) ∈ areaTable) :
    a.base = base ∧ a.size = size ∧ (∀ b : Byte, b.toNat = code → areaOf b = some a)
      ∧ ∀ w, wordOk a w = true ↔ PermittedEntry code w := by
  simp only [areaTable, List.mem_cons, List.not_mem_nil, or_false, Prod.mk.injEq] at h
  rcases h with ⟨rfl, rfl, rfl, rfl⟩ | ⟨rfl, rfl, rfl, rfl⟩ | ⟨rfl, rfl, rfl, rfl⟩ | ⟨rfl, rfl, rfl, rfl⟩
    | ⟨rfl, rfl, rfl, rfl⟩ | ⟨rfl, rfl, rfl, rfl⟩ | ⟨rfl, rfl, rfl, rfl⟩ | ⟨rfl, rfl, rfl, rfl⟩ <;>
  refine ⟨rfl, rfl, fun b hb => by simp only [areaOf, hb], fun w => ?_⟩ <;>
  simp [wordOk, PermittedEntry, addressWordOk_iff, conditionWordOk_iff]

/-- No area has a code above 7 (R197). -/
theorem areaOf_none {b : Byte} (h : 8 ≤ b.toNat) : areaOf b = none := by
  simp only [areaOf]
  split <;> grind

/-- A write that R52 lets pass (R50, R52). -/
theorem writeOf_some {f : ProfileWriteFields} {a : Area} {code base size : Nat} (h : (a, code, base, size) ∈ areaTable)
    (hf : f.area.toNat = code) (hmin : 1 ≤ f.words.length) (hmax : f.words.length ≤ 12)
    (hfit : f.offset.toNat + f.words.length ≤ size) (hw : ∀ w ∈ f.words, PermittedEntry code w) :
    writeOf f = some (.write (base + f.offset.toNat) f.words) := by
  obtain ⟨hbase, hsize, harea, hok⟩ := areaTable_spec h
  have hall : f.words.all (wordOk a) = true := List.all_eq_true.mpr fun w hmem => (hok w).mpr (hw w hmem)
  simp only [writeOf, harea f.area hf, hsize, hbase, hall, hmin, hmax, hfit, and_self, if_true]

/-- A write that R52 finds malformed (R50, R52). -/
theorem writeOf_none {f : ProfileWriteFields} {a : Area} {code base size : Nat} (h : (a, code, base, size) ∈ areaTable)
    (hf : f.area.toNat = code) (hbad : f.words = [] ∨ 12 < f.words.length ∨ size < f.offset.toNat + f.words.length
      ∨ ∃ w ∈ f.words, ¬ PermittedEntry code w) : writeOf f = none := by
  obtain ⟨-, hsize, harea, hok⟩ := areaTable_spec h
  simp only [writeOf, harea f.area hf, hsize]
  refine if_neg ?_
  rintro ⟨hmin, hmax, hfit, hall⟩
  rcases hbad with hnil | hlong | hout | ⟨w, hmem, hno⟩
  · simp [hnil] at hmin
  · omega
  · omega
  · exact hno ((hok w).mp (List.all_eq_true.mp hall w hmem))

/-- An area named by its code is erased alone (R54, R197). -/
theorem eraseOf_area {b : Byte} {a : Area} (h : areaOf b = some a) : eraseOf b = some (.erase (some a)) := by
  have hne : b ≠ 255#8 := by
    rintro rfl
    cases h
  simp [eraseOf, hne, h]

/-- The eight codes and all ones name what an erase takes (R54, R197). -/
theorem eraseOf_some {b : Byte} (h : b.toNat < 8 ∨ b = 255#8) : ∃ j, eraseOf b = some j := by
  rcases h with h | h
  · have hnamed : ∃ a, areaOf b = some a := by
      simp only [areaOf]
      generalize b.toNat = n at h
      interval_cases n <;> exact ⟨_, rfl⟩
    obtain ⟨a, ha⟩ := hnamed
    exact ⟨_, eraseOf_area ha⟩
  · exact ⟨_, if_pos h⟩

/-! ### Deferred answers (R186, R192) -/

/-- The first entry of a kind in a pending list, and the list without it. -/
theorem deferred_split {l r : List Deferred} {d : Deferred} {k : Byte} (hl : ∀ e ∈ l, e.kind ≠ k) (hd : d.kind = k) :
    (l ++ d :: r).find? (fun e => e.kind == k) = some d ∧ (l ++ d :: r).eraseP (fun e => e.kind == k) = l ++ r := by
  have hnone : l.find? (fun e => e.kind == k) = none := by simpa using hl
  refine ⟨by simp [List.find?_append, hnone, hd], ?_⟩
  rw [List.eraseP_append_right _ (by simpa using hl), List.eraseP_cons_of_pos (by simp [hd])]

/-- The answer of deferred work in a state whose port is as it was goes to the pending entry of its kind, where there is one
(R186, R192). -/
theorem answersHeld_of_answerDeferred {s u : State} {p : Port} {k : Byte} {c : Code} {d : AnswerData} (hp : p ≠ .chassis)
    (hu : u.port p = s.port p) (hn : ∀ ix, partCount ix d = 1) :
    AnswersHeld s (u.answerDeferred p k c d) p k c d := by
  refine ⟨fun l e r hlist hl he hport => ?_, fun hnone => ?_⟩
  · obtain ⟨hfind, herase⟩ := deferred_split (r := r) hl he
    have hanswered : u.answerDeferred p k c d
        = (u.setPort p { s.port p with deferred := l ++ r }).answer e.header k c d := by
      simp only [State.answerDeferred, hu, hlist, hfind, herase]
    rw [hanswered]
    refine ⟨?_, fun hroom => State.answer_last _ _ _ _ _ (by rwa [hport]) (hn _).le ?_⟩
    · obtain ⟨-, hkept, -⟩ := State.answer_keeps (u.setPort p { s.port p with deferred := l ++ r }) e.header k c d
      rw [(hkept p).2.1, State.port_setPort_same]
    · simpa [State.room, hport] using hroom
  · have hfind : (s.port p).deferred.find? (fun e => e.kind == k) = none := by simpa using hnone
    simp only [State.answerDeferred, hu, hfind]

/-! ### Requests to the store (R52 to R54) -/

/-- What the checks of R52 let a well-formed request do, on the state that the request was taken from (R52, R53, R54). -/
theorem startStoreJob_outcomes {s : State} {h : Header} (k : Byte) (j : StoreJob) (hp : h.src.port ≠ .chassis) {t : State}
    (ht : t = (s.popped h).startStoreJob h k j) :
    (s.lock.state ≠ .opened → t.core = s.core ∧ Settled s t h k .locked .empty)
      ∧ (s.lock.state = .opened → (s.store.state = .busy ∨ s.shadow.state = .loading) →
          t.core = s.core ∧ Settled s t h k .busy .empty)
      ∧ (s.lock.state = .opened → s.store.state ≠ .busy → s.shadow.state ≠ .loading →
          t.core = (s.setStore { s.store with state := .busy, check := none, job := some j }).core ∧ Held s t h k) := by
  subst ht
  refine ⟨fun hlocked => settled_unchanged hp (fun _ => rfl) ?_, fun hopen hbusy => settled_unchanged hp (fun _ => rfl) ?_,
    fun hopen hstore hshadow => ?_⟩
  · exact if_pos (by simpa using hlocked)
  · have hfree : s.storeFree = false := by rcases hbusy with hbusy | hbusy <;> simp [State.storeFree, hbusy]
    simp [State.startStoreJob, hopen, hfree]
  · have hfree : s.storeFree = true := by simp [State.storeFree, hstore, hshadow]
    have hstarted : (s.popped h).startStoreJob h k j = ((s.popped h).setStore (s.store.begin j)).defer h k := by
      simp [State.startStoreJob, hopen, hfree]
    rw [hstarted]
    exact ⟨by simp [State.core_eq_iff, Store.begin], held_of_defer rfl⟩

/-! ### Completions (R53, R54) -/

/-- A store write in flight completed (R53). -/
theorem State.finishProfileWrite_write {s : State} {base : Nat} {ws : List Word32}
    (hj : s.store.job = some (.write base ws)) :
    s.finishProfileWrite = (s.setStore (s.store.settle (writeCells erasedWord s.store.words base ws))).answerDeferred
      .service 41#8 .ok (.check (storeCrc (writeCells erasedWord s.store.words base ws))) := by
  simp [State.finishProfileWrite, hj, Store.settle]

/-- A store erase in flight completed (R54). -/
theorem State.finishProfileErase_erase {s : State} {area : Option Area} (hj : s.store.job = some (.erase area)) :
    s.finishProfileErase = (s.setStore (s.store.settle (eraseWords s.store.words area))).answerDeferred
      .service 42#8 .ok (.check (storeCrc (eraseWords s.store.words area))) := by
  simp [State.finishProfileErase, hj, Store.settle]

/-- What the completion of a store's work leaves: its words with their check, and the answer (R53, R54). -/
theorem settled_store {s t : State} {m : Words} {k : Byte}
    (ht : t = (s.setStore (s.store.settle m)).answerDeferred .service k .ok (.check (storeCrc m))) :
    t.store = s.store.settle m ∧ t.core = (s.setStore (s.store.settle m)).core
      ∧ AnswersHeld s t .service k .ok (.check (storeCrc m)) := by
  subst ht
  exact ⟨by simp, by simp, answersHeld_of_answerDeferred (by decide) rfl fun _ => rfl⟩

/-- Settles O45: the forms by `areaTable_spec`, the requests by `startStoreJob_outcomes`, the completions by what stands at each
address after them. -/
theorem storeWritesAndErases : Obligations.StoreWritesAndErases := by
  unfold Obligations.StoreWritesAndErases
  refine ⟨fun f => ⟨fun a code base size harea hcode => ⟨?fits, ?malformed⟩, ?noArea⟩,
    fun b => ⟨?eraseAll, fun a code base size harea hcode => ?eraseOne, ?eraseNone⟩,
    fun s h => ⟨fun f ht hv => ?write, fun f ht hv => ?writeEarly, fun b ht => ?erase, ?noWrite, ?noErase,
      fun base ws hj hm => ?writeDone, fun area hj => ?eraseDone⟩⟩
  case fits => exact fun ⟨hmin, hmax, hfit, hw⟩ => writeOf_some harea hcode hmin hmax hfit hw
  case malformed => exact writeOf_none harea hcode
  case noArea => exact fun h => by simp only [writeOf, areaOf_none h]
  case eraseAll => exact fun h => if_pos h
  case eraseOne =>
    obtain ⟨hbase, hsize, hnamed, -⟩ := areaTable_spec harea
    exact ⟨eraseOf_area (hnamed b hcode), hbase, hsize⟩
  case eraseNone => exact fun h hne => by simp [eraseOf, hne, areaOf_none h]
  case write =>
    have hp : h.src.port ≠ .chassis := ht.port_ne_chassis (by simp)
    refine ⟨State.takeProfileWrite h f (s.popped h), congrArg Host.Outcome.next (State.request_taken s h _ f _ ht),
      fun hnone => settled_unchanged hp (fun _ => rfl) ?_, fun j hj => startStoreJob_outcomes 41#8 j hp ?_⟩
    · simp [State.takeProfileWrite, State.storeRequest, hv, hnone]
    · simp [State.takeProfileWrite, State.storeRequest, hv, hj]
  case writeEarly =>
    exact ⟨State.takeProfileWrite h f (s.popped h), congrArg Host.Outcome.next (State.request_taken s h _ f _ ht),
      settled_unchanged (ht.port_ne_chassis (by simp)) (fun _ => rfl)
        (by simp [State.takeProfileWrite, State.storeRequest, hv])⟩
  case erase =>
    have hp : h.src.port ≠ .chassis := ht.port_ne_chassis (by simp)
    refine ⟨State.takeProfileErase h b (s.popped h), congrArg Host.Outcome.next (State.request_taken s h _ b _ ht),
      fun hv => settled_unchanged hp (fun _ => rfl) ?_, fun hv hlow hne => settled_unchanged hp (fun _ => rfl) ?_,
      fun hv hnamed => ?_⟩
    · simp [State.takeProfileErase, State.storeRequest, hv]
    · simp [State.takeProfileErase, State.storeRequest, hv, eraseOf, hne, areaOf_none hlow]
    · obtain ⟨j, hj⟩ := eraseOf_some hnamed
      refine ⟨j, hj, startStoreJob_outcomes 42#8 j hp ?_⟩
      simp [State.takeProfileErase, State.storeRequest, hv, hj]
  case noWrite =>
    intro hno
    refine congrArg Host.Outcome.next ?_
    simp only [State.finishProfileWrite]
  case noErase =>
    intro hno
    refine congrArg Host.Outcome.next ?_
    simp only [State.finishProfileErase]
  case writeDone =>
    obtain ⟨hstore, hcore, hanswers⟩ := settled_store (State.finishProfileWrite_write hj)
    refine ⟨s.finishProfileWrite, rfl, ?_⟩
    rw [hstore]
    refine ⟨rfl, rfl, rfl, fun i hi => ?_, fun a ha => ?_, hcore, hanswers⟩
    · simp [Store.settle, readCell_writeCells ws hm, hi]
    · rw [Store.settle, readCell_writeCells ws hm, dif_neg (by omega)]
  case eraseDone =>
    obtain ⟨hstore, hcore, hanswers⟩ := settled_store (State.finishProfileErase_erase hj)
    refine ⟨s.finishProfileErase, rfl, ?_⟩
    rw [hstore]
    refine ⟨rfl, rfl, rfl, ?_, ?_, hcore, hanswers⟩
    · rintro rfl a
      rfl
    · rintro r rfl
      refine ⟨fun a hlo hhi => ?_, fun a ha => ?_⟩
      · rw [Store.settle, eraseWords, readCell_eraseRange, if_pos ⟨hlo, hhi⟩]
      · rw [Store.settle, eraseWords, readCell_eraseRange, if_neg (by omega)]

end Sys2Proof.Machine

namespace Sys2Proof.Machine

/-! ## Loads of the shadow (R55 to R58) -/

/-! ### A copy and its checks (R57, R58) -/

/-- The check of an erased word (R58). -/
theorem elementCheck_erased : elementCheck allOnes32 = 15#4 := by decide

/-- The check that a copy keeps of an element is the check of its word (R57, R58). -/
theorem copyOf_check {m : Words} (hm : cellsWf erasedWord m = true) {a : Nat} (ha : a < 16384) :
    readCell erasedCheck (copyOf m).checks a = elementCheck (readCell erasedWord m a) := by
  by_cases hin : ∃ e ∈ m, e.1 = a
  · obtain ⟨e, he, rfl⟩ := hin
    rw [readCell_of_mem hm he]
    by_cases hc : elementCheck e.2 = 15#4
    · rw [hc]
      refine readCell_of_not_mem fun f hf hfe => ?_
      simp only [copyOf, List.mem_filter, List.mem_map] at hf
      obtain ⟨⟨g, ⟨hg, -⟩, rfl⟩, hne⟩ := hf
      have hge : g = e := Prod.ext hfe (by rw [← readCell_of_mem hm hg, hfe, readCell_of_mem hm he])
      simp [hge, hc] at hne
    · exact readCell_of_mem (copyOf_checks_wf hm) (e := (e.1, elementCheck e.2)) (by
        simp only [copyOf, List.mem_filter, List.mem_map]
        exact ⟨⟨e, ⟨he, by simpa using ha⟩, rfl⟩, by simpa using hc⟩)
  · have hout : ∀ e ∈ m, e.1 ≠ a := fun e he hea => hin ⟨e, he, hea⟩
    rw [readCell_of_not_mem hout, erasedWord, if_pos (by omega), elementCheck_erased]
    refine readCell_of_not_mem fun f hf => ?_
    simp only [copyOf, List.mem_filter, List.mem_map] at hf
    obtain ⟨⟨g, ⟨hg, -⟩, rfl⟩, -⟩ := hf
    exact hout g hg

/-! ### The drive at rest (R48, R55, R65, R67) -/

/-- A channel that is IDLE has the gated command 0, whatever lets it move (R48, R67). -/
theorem State.gated_idle {s : State} {c : Channel} (h : (s.chans.get c).state = .idle) : s.gated c = 0 := by
  simp [State.gated, Chan.driveCommand, h]

/-- A gated command of 0 is shared as 0, with a shortage of flow too (R68). -/
theorem shareFlow_shared_zero (qa : Nat) (q : Channel → Nat) {g : Channel → Int} {c : Channel} (h : g c = 0) :
    ((shareFlow qa q g).chans.get c).shared = 0 := by
  simp only [shareFlow, Six.get_make]
  split <;> simp [h, scaled, truncDiv]

/-- A shared command of 0 leaves both coils off (R65, R69). -/
theorem computeCoils_zero (x : Two Coil) (m : Words) (c : Channel) :
    computeCoils x (coilDuties m c 0) = ⟨Coil.reset, Coil.reset⟩ := rfl

/-- With every channel IDLE the sharing made afresh leaves all coils off and starts no timer (R65, R67, R68). -/
theorem State.refresh_idle {s : State} (h : ∀ c, (s.chans.get c).state = .idle) :
    s.refresh.drive.timer0 = s.drive.timer0 ∧ s.refresh.drive.timer1 = s.drive.timer1
      ∧ ∀ c, s.refresh.drive.coils.get c = ⟨Coil.reset, Coil.reset⟩ := by
  have hshared : ∀ c, ((shareFlow s.drive.qa (qmax s.tables) s.gated).chans.get c).shared = 0 := fun c =>
    shareFlow_shared_zero _ _ (State.gated_idle (h c))
  have hcoils : ∀ c, s.refresh.drive.coils.get c = ⟨Coil.reset, Coil.reset⟩ := fun c => by
    simp only [State.refresh, Drive.share, State.setDrive_drive, Six.get_make, hshared, computeCoils_zero]
  have hnone : ∀ c, anyDuty (s.refresh.drive.coils.get c) = false := fun c => by rw [hcoils]; rfl
  refine ⟨?_, ?_, hcoils⟩
  · have ht : s.refresh.drive.timer0 = (s.drive.timer0 || anyDuty (s.refresh.drive.coils.get .reach)
        || anyDuty (s.refresh.drive.coils.get .lift) || anyDuty (s.refresh.drive.coils.get .grip)) := rfl
    simpa [hnone] using ht
  · have ht : s.refresh.drive.timer1 = (s.drive.timer1 || anyDuty (s.refresh.drive.coils.get .divert)
        || anyDuty (s.refresh.drive.coils.get .packA) || anyDuty (s.refresh.drive.coils.get .packB)) := rfl
    simpa [hnone] using ht

/-- The sharing made afresh leaves the groups' periods (R65). -/
@[simp] theorem State.refresh_periods (s : State) :
    s.refresh.drive.period0 = s.drive.period0 ∧ s.refresh.drive.period1 = s.drive.period1 := ⟨rfl, rfl⟩

/-! ### The ports at a completion (R186 to R188) -/

/-- An alert leaves every port but the body link (R188). -/
theorem State.alert_port {q : Port} (hq : q ≠ .body) (s : State) (a : Alert) : (s.alert a).port q = s.port q := by
  simp only [State.alert, State.indicate_eq]
  split
  · exact State.port_setPort_other _ _ _ _ hq
  · rfl

/-- The answer of deferred work goes to its own port, where that port's pending list holds its own requests alone (R186). -/
theorem State.answerDeferred_port_other {s : State} {p q : Port} (hq : q ≠ p)
    (hd : ∀ d ∈ (s.port p).deferred, d.header.src.port = p) (k : Byte) (c : Code) (x : AnswerData) :
    (s.answerDeferred p k c x).port q = s.port q := by
  simp only [State.answerDeferred]
  split
  · rfl
  · rename_i d hfind
    have hport : d.header.src.port = p := hd d (List.mem_of_find?_eq_some hfind)
    obtain ⟨hother, -⟩ := State.answer_keeps
      (s.setPort p { s.port p with deferred := (s.port p).deferred.eraseP fun e => e.kind == k }) d.header k c x
    rw [hother q (by rwa [hport]), State.port_setPort_other _ _ _ _ hq]

/-! ### The two completions (R57, R65) -/

/-- The shadow READY with the copy and its check, the timers stopped with the periods loaded (R55, R57). -/
def State.loaded (s : State) : State :=
  (s.setShadow ⟨.ready, some (copyOf s.store.words), some (storeCrc s.store.words)⟩).stopTimers (some s.store.words)

/-- The shadow and the store INVALID, the timers stopped with no periods (R55, R57, log 42). -/
def State.unloaded (s : State) : State :=
  ((s.setShadow Shadow.reset).setStore { s.store with state := .invalid }).stopTimers none

/-- A load that finds a mismatch, with its alert (R57). -/
def State.loadFailed (s : State) : State := s.unloaded.alert .storeInvalid

/-- Where too few tips are counted no pack cycle is due (R141). -/
theorem State.testDueAll_none {s : State} (ha : s.comps.a.tips < s.settings.inForce.packAfter)
    (hb : s.comps.b.tips < s.settings.inForce.packAfter) : s.testDueAll = s := by
  have hdue : ∀ m, s.testDue m = s := fun m => by
    have htips : (s.comps.comp m).tips < s.settings.inForce.packAfter := by cases m <;> assumption
    simp [State.testDue, Nat.not_le.mpr htips]
  rw [State.testDueAll, hdue, hdue]

/-- A load completed with the stored check matching, and no pack cycle due (R57). -/
theorem State.finishShadowLoad_match {s : State} (hl : s.shadow.state = .loading)
    (hm : s.store.check = some (storeCrc s.store.words)) (ha : s.comps.a.tips < s.settings.inForce.packAfter)
    (hb : s.comps.b.tips < s.settings.inForce.packAfter) :
    s.finishShadowLoad = s.loaded.refresh.answerDeferred .service 43#8 .ok (.check (storeCrc s.store.words)) := by
  have hnone : s.loaded.testDueAll = s.loaded := State.testDueAll_none ha hb
  have hfinish : s.finishLoad = (s.loaded, true) := if_pos hm
  simp only [State.finishShadowLoad, hl, hfinish, hnone]
  rfl

/-- A load completed with a mismatch (R57). -/
theorem State.finishShadowLoad_mismatch {s : State} (hl : s.shadow.state = .loading)
    (hm : s.store.check ≠ some (storeCrc s.store.words)) :
    s.finishShadowLoad = s.loadFailed.refresh.answerDeferred .service 43#8 .storeInvalid .empty := by
  have hfinish : s.finishLoad = (s.loadFailed, false) := if_neg hm
  simp only [State.finishShadowLoad, hl, hfinish]

/-- What a matching load leaves of the shadow, the store and the periods (R55, R57). -/
@[simp] theorem State.loaded_blocks (s : State) :
    s.loaded.shadow = ⟨.ready, some (copyOf s.store.words), some (storeCrc s.store.words)⟩ ∧ s.loaded.store = s.store
      ∧ s.loaded.drive.period0 = some (groupPeriod s.store.words 0)
      ∧ s.loaded.drive.period1 = some (groupPeriod s.store.words 1) ∧ s.loaded.drive.timer0 = false
      ∧ s.loaded.drive.timer1 = false :=
  ⟨rfl, rfl, rfl, rfl, rfl, rfl⟩

/-- What a mismatch leaves of the shadow, the store and the periods (R55, R57, log 42). -/
@[simp] theorem State.loadFailed_blocks (s : State) :
    s.loadFailed.shadow = Shadow.reset ∧ s.loadFailed.store = { s.store with state := .invalid }
      ∧ s.loadFailed.drive.period0 = none ∧ s.loadFailed.drive.period1 = none ∧ s.loadFailed.drive.timer0 = false
      ∧ s.loadFailed.drive.timer1 = false := by
  simp [State.loadFailed, State.unloaded, State.stopTimers]

/-- A mismatch sends its alert by the body link and leaves the service line (R57, R188). -/
theorem State.loadFailed_ports (s : State) :
    s.loadFailed.refresh.port .service = s.port .service ∧ Gains s s.loadFailed.refresh [alertTold .storeInvalid] :=
  ⟨State.alert_port (q := .service) (by decide) s.unloaded .storeInvalid, State.alert_gains s.unloaded .storeInvalid⟩

/-- A load leaves every block that it does not name (R57). -/
@[simp] theorem State.load_frame (s : State) :
    (s.loaded.lcc = s.lcc ∧ s.loaded.chans = s.chans ∧ s.loaded.comps = s.comps ∧ s.loaded.journal = s.journal
      ∧ s.loaded.lock = s.lock ∧ s.loaded.weigh = s.weigh ∧ s.loaded.houses = s.houses ∧ s.loaded.inter = s.inter)
    ∧ s.loadFailed.lcc = s.lcc ∧ s.loadFailed.chans = s.chans ∧ s.loadFailed.comps = s.comps
      ∧ s.loadFailed.journal = s.journal ∧ s.loadFailed.lock = s.lock ∧ s.loadFailed.weigh = s.weigh
      ∧ s.loadFailed.houses = s.houses ∧ s.loadFailed.inter = s.inter := by
  simp [State.loaded, State.loadFailed, State.unloaded]

/-- The words and the checks that a READY shadow offers (R55, R57, R58). -/
theorem State.copy_reads {t : State} {m : Words} {check : Option Word32} (h : t.shadow = ⟨.ready, some (copyOf m), check⟩) :
    t.tables = m
      ∧ (cellsWf erasedWord m = true → ∀ a, a < 16384 → t.elementStored a = elementCheck (readWord m .elements a)) := by
  refine ⟨by simp [State.tables, h, copyOf], fun hm a ha => ?_⟩
  simp [State.elementStored, h, copyOf_check hm ha, readWord, Area.base]

/-- The checks of R56 on SHADOW_LOAD. -/
theorem State.mayLoad_iff (s : State) :
    s.mayLoad = true ↔ s.lcc.phase = .idle ∧ (∀ c, s.hasChannel c = true → (s.chans.get c).state = .idle)
      ∧ (∀ c, s.hasComp c = true → (s.comps.comp c).stage = .rest) ∧ s.store.state ≠ .busy ∧ s.shadow.state ≠ .loading := by
  have hchans : ∀ c, c ∈ allChannels := fun c => by cases c <;> simp [allChannels]
  have hcomps : ∀ c, c ∈ [Compartment.a, .b] := fun c => by cases c <;> simp
  simp only [State.mayLoad, State.storeFree, Bool.and_eq_true, Bool.or_eq_true, Bool.not_eq_true', List.all_eq_true,
    beq_iff_eq, bne_iff_ne, hchans, hcomps, forall_const, and_assoc, ← Bool.not_eq_true, imp_iff_not_or]

/-- Settles O46: the request by the checks of R56, the completion by the two outcomes of the comparison. -/
theorem shadowLoads : Obligations.ShadowLoads := by
  unfold Obligations.ShadowLoads
  intro s h
  refine ⟨fun ht hv => ?request, fun hl hdeferred ha hb => ?completion, fun hl => ?noLoad, fun ht hv => ?early⟩
  case request =>
    have hp : h.src.port ≠ .chassis := ht.port_ne_chassis (by simp)
    refine ⟨(s.popped h).takeShadowLoad h, congrArg Host.Outcome.next (State.request_taken s h _ () _ ht),
      fun hbusy => settled_unchanged hp (fun _ => rfl) ?_, fun hphase hstore hshadow hchans hcomps => ?_⟩
    · have hmay : s.mayLoad = false := by
        rw [← Bool.not_eq_true, State.mayLoad_iff]
        rintro ⟨hphase, hchans, hcomps, hstore, hshadow⟩
        rcases hbusy with hbusy | hbusy | hbusy | ⟨c, hc, hbusy⟩ | ⟨c, hc, hbusy⟩
        · exact hbusy hphase
        · exact hstore hbusy
        · exact hshadow hbusy
        · exact hbusy (hchans c hc)
        · exact hbusy (hcomps c hc)
      simp [State.takeShadowLoad, State.storeRequest, hv, hmay]
    · have hmay : s.mayLoad = true := (State.mayLoad_iff s).mpr ⟨hphase, hchans, hcomps, hstore, hshadow⟩
      refine ⟨fun hinvalid => settled_unchanged hp (fun _ => rfl) ?_, fun hvalid => ?_⟩
      · simp [State.takeShadowLoad, State.storeRequest, hv, hmay, hinvalid]
      · have htaken : (s.popped h).takeShadowLoad h = ((s.popped h).setShadow Shadow.loading).defer h 43#8 := by
          simp [State.takeShadowLoad, State.storeRequest, hv, hmay, hvalid]
        rw [htaken]
        exact ⟨by simp [State.core_eq_iff, Shadow.loading], held_of_defer rfl⟩
  case completion =>
    refine ⟨s.finishShadowLoad, rfl, ?_⟩
    by_cases hmatch : s.store.check = some (storeCrc s.store.words)
    · rw [State.finishShadowLoad_match hl hmatch ha hb]
      have hreads := State.copy_reads (t := s.loaded.refresh.answerDeferred .service 43#8 .ok
        (.check (storeCrc s.store.words))) (m := s.store.words) (check := some (storeCrc s.store.words)) (by simp)
      refine ⟨fun _ => ⟨by simp, by simp [hmatch], hreads.1, by simp, by simp [groupPeriod], by simp [groupPeriod],
        fun hm a w ha hw => ?_, answersHeld_of_answerDeferred (by decide) ?_ fun _ => rfl⟩,
        fun hne => absurd hmatch hne, fun hidle => ?_, by simp⟩
      · rw [hreads.2 hm a ha, ← hw, elementCheck]
      · rfl
      · have hrest := State.refresh_idle (s := s.loaded) (by simpa using hidle)
        simpa using hrest
    · rw [State.finishShadowLoad_mismatch hl hmatch]
      obtain ⟨hservice, halert⟩ := s.loadFailed_ports
      have hbody : (s.loadFailed.refresh.answerDeferred .service 43#8 .storeInvalid .empty).links.body
          = s.loadFailed.refresh.links.body :=
        State.answerDeferred_port_other (q := .body) (by decide) (by rwa [hservice]) _ _ _
      refine ⟨fun heq => absurd heq hmatch, fun _ => ⟨by simp [Shadow.reset], by simp, by simp, by simp,
        Gains.indicated (by rwa [Gains, hbody]), answersHeld_of_answerDeferred (by decide) hservice fun _ => rfl⟩,
        fun hidle => ?_, by simp⟩
      · have hrest := State.refresh_idle (s := s.loadFailed) (by simpa using hidle)
        simpa using hrest
  case noLoad =>
    refine congrArg Host.Outcome.next ?_
    simp only [State.finishShadowLoad]
    split
    next hloading => exact absurd hloading hl
    all_goals rfl
  case early =>
    exact ⟨(s.popped h).takeShadowLoad h, congrArg Host.Outcome.next (State.request_taken s h _ () _ ht),
      settled_unchanged (ht.port_ne_chassis (by simp)) (fun _ => rfl)
        (by simp [State.takeShadowLoad, State.storeRequest, hv])⟩

end Sys2Proof.Machine

namespace Sys2Proof.Machine

/-! ## The coils of a channel that may not move (R65, R67, R71) -/

/-! ### The sharing made afresh (R65, R67 to R69) -/

/-- A channel that may not move has the gated command 0 (R67). -/
theorem State.gated_of_gatedOff {s : State} {c : Channel} (h : s.gatedOff c = true) : s.gated c = 0 := by
  simp only [State.gatedOff, Bool.or_eq_true] at h
  rcases h with ((h | h) | h) | h <;> simp [State.gated, h]

/-- The coils of a channel as the sharing made afresh leaves them (R65, R69). -/
theorem State.refresh_coils (s : State) (c : Channel) :
    s.refresh.drive.coils.get c = computeCoils (s.drive.coils.get c)
      (coilDuties s.tables c (s.refresh.drive.sharing.chans.get c).shared) :=
  Six.get_make _ c

/-- The sharing made afresh gives every channel its gated command or its share of it: 0 where the command is 0 (R68). -/
theorem State.refresh_shared_zero {s : State} {c : Channel} (h : s.gated c = 0) :
    (s.refresh.drive.sharing.chans.get c).shared = 0 :=
  shareFlow_shared_zero _ _ h

/-- A coil given a new duty has that duty computed (R65). -/
@[simp] theorem Coil.compute_computed (x : Coil) (n : Nat) : (x.compute n).computed = n := by
  simp only [Coil.compute]
  split
  next h => rw [h]; rfl
  next => rfl

/-- A coil given the duty 0 is off (R65). -/
theorem Coil.compute_off (x : Coil) {n : Nat} (h : n = 0) : (x.compute n).off := by
  rw [Coil.compute, if_pos h]
  exact ⟨rfl, rfl, rfl⟩

/-- Of a channel's two coils one at most has a duty (R69). -/
theorem coilDuties_opposed (m : Words) (c : Channel) (u : Int) : (coilDuties m c u).a = 0 ∨ (coilDuties m c u).b = 0 := by
  by_cases hu : 0 < u
  · exact .inr (if_neg (by omega))
  · exact .inl (if_neg hu)

/-- The sharing made afresh makes every channel's coils safe, whatever they were (R65, R67, R69). -/
@[simp] theorem State.refresh_coilsSafe (s : State) : CoilsSafe s.refresh := by
  intro c
  rw [State.refresh_coils]
  refine ⟨fun hoff => ?_, ?_, fun h => Coil.compute_off _ (by simpa [computeCoils] using h),
    fun h => Coil.compute_off _ (by simpa [computeCoils] using h)⟩
  · rw [State.refresh_shared_zero (State.gated_of_gatedOff (s := s) hoff), computeCoils_zero]
    exact ⟨⟨rfl, rfl, rfl⟩, rfl, rfl, rfl⟩
  · exact (coilDuties_opposed _ _ _).imp (Coil.compute_off _) (Coil.compute_off _)

/-! ### What a command leaves of the gates and the coils -/

/-- The Valve Drive and what gates its channels stand. -/
@[simp] def KeepsGates (s t : State) : Prop :=
  t.drive = s.drive ∧ t.variant = s.variant ∧ t.inter.pto = s.inter.pto ∧ t.inter.permitHeld = s.inter.permitHeld

/-- Coils are as safe as they were where the drive and its gates stand. -/
theorem KeepsGates.coilsSafe_iff {s t : State} (h : KeepsGates s t) : CoilsSafe t ↔ CoilsSafe s := by
  obtain ⟨hdrive, hvariant, hpto, hpermit⟩ := h
  simp only [CoilsSafe, State.gatedOff, State.hasChannel, hdrive, hvariant, hpto, hpermit]

/-- Where the drive and its gates stand, safe coils stay safe. -/
theorem KeepsGates.coilsSafe {s t : State} (h : KeepsGates s t) (hs : CoilsSafe s) : CoilsSafe t := h.coilsSafe_iff.mpr hs

/-- An answer leaves the coils and their gates. -/
@[simp] theorem State.answer_coilsSafe (s : State) (h : Header) (k : Byte) (c : Code) (d : AnswerData) :
    CoilsSafe (s.answer h k c d) ↔ CoilsSafe s :=
  KeepsGates.coilsSafe_iff (by simp)

/-- The answer of deferred work leaves the coils and their gates. -/
@[simp] theorem State.answerDeferred_coilsSafe (s : State) (p : Port) (k : Byte) (c : Code) (d : AnswerData) :
    CoilsSafe (s.answerDeferred p k c d) ↔ CoilsSafe s :=
  KeepsGates.coilsSafe_iff (by simp)

/-- An alert leaves the coils and their gates. -/
@[simp] theorem State.alert_coilsSafe (s : State) (a : Alert) : CoilsSafe (s.alert a) ↔ CoilsSafe s :=
  KeepsGates.coilsSafe_iff (by simp)

/-- A choice between two states with safe coils. -/
theorem CoilsSafe.ite {c : Prop} [Decidable c] {t u : State} (ht : CoilsSafe t) (hu : CoilsSafe u) :
    CoilsSafe (if c then t else u) := by
  split
  · exact ht
  · exact hu

/-! ### PTO and the permit at the Interlocks' other events (R173, R177 to R180) -/

@[simp] theorem State.emitPayload_gates (s : State) :
    s.emitPayload.inter.pto = s.inter.pto ∧ s.emitPayload.inter.permitHeld = s.inter.permitHeld := by
  simp [State.emitPayload_inter]

@[simp] theorem State.raiseAlarm_gates (s : State) :
    s.raiseAlarm.inter.pto = s.inter.pto ∧ s.raiseAlarm.inter.permitHeld = s.inter.permitHeld := by
  simp only [State.raiseAlarm]
  (repeat' split) <;> simp

@[simp] theorem State.testSnapshot_gates (s : State) :
    s.testSnapshot.inter.pto = s.inter.pto ∧ s.testSnapshot.inter.permitHeld = s.inter.permitHeld := by
  simp only [State.testSnapshot]
  (repeat' split) <;> simp

@[simp] theorem State.watchInput_gates (s : State) (w : WatchedInput) (v : Bool) :
    (s.watchInput w v).inter.pto = s.inter.pto ∧ (s.watchInput w v).inter.permitHeld = s.inter.permitHeld := by
  simp only [State.watchInput]
  (repeat' split) <;> simp

@[simp] theorem State.takeTimeSet_gates (h : Header) (w : Word32) (s : State) :
    (State.takeTimeSet h w s).inter.pto = s.inter.pto
      ∧ (State.takeTimeSet h w s).inter.permitHeld = s.inter.permitHeld := by
  simp only [State.takeTimeSet]
  split <;> simp

@[simp] theorem State.stageLift_gates (s : State) (x : LiftCtx) :
    (s.stageLift x).inter.pto = s.inter.pto ∧ (s.stageLift x).inter.permitHeld = s.inter.permitHeld := by
  simp only [State.stageLift, State.contribute, State.handOver]
  (repeat' split) <;> simp

@[simp] theorem State.stageCycle_gates (s : State) :
    s.stageCycle.inter.pto = s.inter.pto ∧ s.stageCycle.inter.permitHeld = s.inter.permitHeld := by
  simp only [State.stageCycle]
  (repeat' split) <;> simp

@[simp] theorem State.takeCycleClear_gates (h : Header) (s : State) :
    (State.takeCycleClear h s).inter.pto = s.inter.pto
      ∧ (State.takeCycleClear h s).inter.permitHeld = s.inter.permitHeld := by
  simp only [State.takeCycleClear]
  split <;> simp

/-! ### The requests that end with the sharing made afresh -/

section owners
variable {s : State}

/-! Each refusal is an answer alone; what is accepted ends with the sharing made afresh, and its answer. -/

theorem State.takeLift_coilsSafe (hs : CoilsSafe s) (h : Header) (f : LiftFields) : CoilsSafe (State.takeLift h f s) := by
  simp only [State.takeLift]
  (repeat' split) <;> simp [hs]

/-- PERMIT stands on a permit that is HELD; one that was EXPIRED has the sharing made afresh (R67, R173). -/
theorem State.renewPermit_coilsSafe (hs : CoilsSafe s) : CoilsSafe s.renewPermit := by
  simp only [State.renewPermit]
  split
  next hheld => exact KeepsGates.coilsSafe (by simp [hheld]) hs
  next => exact State.refresh_coilsSafe _

theorem State.takeResume_coilsSafe (hs : CoilsSafe s) (h : Header) : CoilsSafe (State.takeResume h s) := by
  simp only [State.takeResume]
  (repeat' split) <;> simp [hs]

theorem State.takeAbort_coilsSafe (hs : CoilsSafe s) (h : Header) : CoilsSafe (State.takeAbort h s) := by
  simp only [State.takeAbort]
  (repeat' split) <;> simp [hs]

theorem State.takePack_coilsSafe (hs : CoilsSafe s) (h : Header) (b : Byte) : CoilsSafe (State.takePack h b s) := by
  simp only [State.takePack]
  (repeat' split) <;> simp [hs]

theorem State.takeUnload_coilsSafe (hs : CoilsSafe s) (h : Header) (b : Byte) : CoilsSafe (State.takeUnload h b s) := by
  simp only [State.takeUnload]
  (repeat' split) <;> simp [hs]

theorem State.takeAbortUnload_coilsSafe (hs : CoilsSafe s) (h : Header) (b : Byte) :
    CoilsSafe (State.takeAbortUnload h b s) := by
  simp only [State.takeAbortUnload]
  (repeat' split) <;> simp [hs]

theorem State.takeFaultClear_coilsSafe (hs : CoilsSafe s) (h : Header) (b : Byte) :
    CoilsSafe (State.takeFaultClear h b s) := by
  simp only [State.takeFaultClear]
  (repeat' split) <;> simp [hs]

theorem State.takeSettingPut_coilsSafe (hs : CoilsSafe s) (h : Header) (l : List (Byte × BitVec 16)) :
    CoilsSafe (State.takeSettingPut h l s) := by
  simp only [State.takeSettingPut, State.applySettings, State.useSettings]
  (repeat' split) <;> simp [hs]

end owners

/-- A request whose owner keeps safe coils keeps them, whether it is taken, refused or let stand (R186). -/
theorem State.request_coilsSafe {α : Type} {s : State} {h : Header} {r : Request} {b : Payload α}
    {owner : α → State → State} (hs : CoilsSafe s) (ho : ∀ f t, CoilsSafe t → CoilsSafe (owner f t)) :
    CoilsSafe (s.request h r b owner) := by
  refine State.request_cases hs fun t ht => ?_
  have htaken : CoilsSafe t := by
    rcases State.take_eq ht with rfl | ⟨-, rfl⟩
    · exact hs
    · exact KeepsGates.coilsSafe (by simp) hs
  exact ⟨fun c => KeepsGates.coilsSafe (by simp) htaken, fun f _ _ => ho f t htaken⟩

/-! ### The coils' own events (R65, R70, R71) -/

/-- A coil whose computed duty stands, and which is off with no duty, leaves its channel safe. -/
theorem CoilsSafe.setCoil {s : State} {c : Channel} {d : Side} {x : Coil} (hs : CoilsSafe s)
    (hsame : x.computed = (s.coil c d).computed) (hoff : x.computed = 0 → x.off) : CoilsSafe (s.setCoil c d x) := by
  have hkept : (s.coil c d).off → x.off := fun h => hoff (hsame.trans h.1)
  intro k
  obtain ⟨hgate, hopposed, ha, hb⟩ := hs k
  change (s.gatedOff k = true → _) ∧ _
  by_cases hk : k = c
  · subst hk
    have hget : (s.setCoil k d x).drive.coils.get k = (s.drive.coils.get k).putSide d x := Six.get_put_same ..
    rw [hget]
    cases d with
    | a => exact ⟨fun h => ⟨hkept (hgate h).1, (hgate h).2⟩, hopposed.imp_left hkept, hoff, hb⟩
    | b => exact ⟨fun h => ⟨(hgate h).1, hkept (hgate h).2⟩, hopposed.imp_right hkept, ha, hoff⟩
  · have hget : (s.setCoil c d x).drive.coils.get k = s.drive.coils.get k := Six.get_put_other _ _ _ _ hk
    rw [hget]
    exact ⟨hgate, hopposed, ha, hb⟩

/-- A coil with no duty computed is off. -/
theorem CoilsSafe.coil_off {s : State} (hs : CoilsSafe s) {c : Channel} {d : Side} (h : (s.coil c d).computed = 0) :
    (s.coil c d).off := by
  obtain ⟨-, -, ha, hb⟩ := hs c
  cases d with
  | a => exact ha h
  | b => exact hb h

/-- A period start takes up the duty computed: with none the coil is off (R65). -/
theorem Coil.begin_off {x : Coil} (h : x.computed = 0) : x.begin.off := by
  simp [Coil.begin, h]

/-- A coil fault ends with the sharing made afresh, or finds the latch set (R71). -/
theorem State.coilFault_coilsSafe {s : State} (hs : CoilsSafe s) (c : Channel) (l : Latch) :
    CoilsSafe (s.coilFault c l) :=
  .ite hs (State.refresh_coilsSafe _)

/-! ### Every command -/

/-- The completion of a load ends with the sharing made afresh, or finds the shadow not LOADING (R57, R65). -/
theorem State.finishShadowLoad_coilsSafe {s : State} (hs : CoilsSafe s) : CoilsSafe s.finishShadowLoad := by
  simp only [State.finishShadowLoad]
  (repeat' split) <;> simp [hs]

/-- The settings read end with the sharing made afresh (R66, R190). -/
theorem State.readSettings_coilsSafe (s : State) : CoilsSafe s.readSettings := by
  simp only [State.readSettings]
  split <;> simp

/-- A full reset leaves every coil off (R1). -/
theorem State.fullReset_coilsSafe (s : State) (strap pto : Bool) : CoilsSafe (s.fullReset strap pto) := by
  have hreset : ∀ c, (s.fullReset strap pto).drive.coils.get c = ⟨Coil.reset, Coil.reset⟩ := fun c => by
    cases c <;> rfl
  intro c
  rw [hreset]
  exact ⟨fun _ => ⟨⟨rfl, rfl, rfl⟩, rfl, rfl, rfl⟩, .inl ⟨rfl, rfl, rfl⟩, fun _ => ⟨rfl, rfl, rfl⟩, fun _ => ⟨rfl, rfl, rfl⟩⟩

/-- Every command keeps the coils safe: one that moves a channel, a gate or the flow makes the sharing afresh, a coil's own
event keeps its computed duty, and any other leaves the drive and its gates. -/
theorem exec_coilsSafe (i : Instr) {s : State} (hs : CoilsSafe s) : ∃ t, exec i s = .next t ∧ CoilsSafe t := by
  cases i with
  | fullReset g p => exact ⟨_, rfl, State.fullReset_coilsSafe s g p⟩
  | lift h b => exact ⟨_, rfl, State.request_coilsSafe hs fun f _ ht => State.takeLift_coilsSafe ht h f⟩
  | permit h b =>
    exact ⟨_, rfl, State.request_coilsSafe hs fun _ _ ht => (State.answer_coilsSafe ..).mpr (State.renewPermit_coilsSafe ht)⟩
  | resume h b => exact ⟨_, rfl, State.request_coilsSafe hs fun _ _ ht => State.takeResume_coilsSafe ht h⟩
  | abort h b => exact ⟨_, rfl, State.request_coilsSafe hs fun _ _ ht => State.takeAbort_coilsSafe ht h⟩
  | pack h b => exact ⟨_, rfl, State.request_coilsSafe hs fun f _ ht => State.takePack_coilsSafe ht h f⟩
  | unload h b => exact ⟨_, rfl, State.request_coilsSafe hs fun f _ ht => State.takeUnload_coilsSafe ht h f⟩
  | abortUnload h b => exact ⟨_, rfl, State.request_coilsSafe hs fun f _ ht => State.takeAbortUnload_coilsSafe ht h f⟩
  | faultClear h b => exact ⟨_, rfl, State.request_coilsSafe hs fun f _ ht => State.takeFaultClear_coilsSafe ht h f⟩
  | settingPut h b => exact ⟨_, rfl, State.request_coilsSafe hs fun f _ ht => State.takeSettingPut_coilsSafe ht h f⟩
  | chassisState h b => exact ⟨_, rfl, State.request_coilsSafe hs fun _ _ _ => State.refresh_coilsSafe _⟩
  | cycleClear h b | statusGet h b | entryPut h b | entryDrop h b | entryGet h b | tableClear h b | tableReady h b
  | journalRead h b | journalRelease h b | timeSet h b | slotMap h b | settingGet h b | freezeLock h b | closeLock h b
  | setCode h b | trialSet h b | trialDiscard h b | commit h b | serviceZero h b | liveWeight h b | attrRead h b
  | profileWrite h b | profileErase h b | shadowLoad h b =>
    exact ⟨_, rfl, State.request_coilsSafe hs fun _ _ ht => KeepsGates.coilsSafe (by simp) ht⟩
  | openLock h b w =>
    have hseen : CoilsSafe (s.setPins { s.pins with lockWireOpen := w }) := KeepsGates.coilsSafe (by simp) hs
    exact ⟨_, rfl, State.request_coilsSafe hseen fun _ _ ht => KeepsGates.coilsSafe (by simp) ht⟩
  | unknownKind h k =>
    refine ⟨_, rfl, ?_⟩
    split
    next t ht =>
      rcases State.take_eq ht with rfl | ⟨-, rfl⟩
      · exact (State.answer_coilsSafe ..).mpr hs
      · exact KeepsGates.coilsSafe (by simp) hs
    next => exact hs
  | settingsReadDone => exact ⟨_, rfl, .ite (State.readSettings_coilsSafe s) hs⟩
  | journalScanDone => exact ⟨_, rfl, .ite (State.refresh_coilsSafe _) hs⟩
  | shadowLoadDone => exact ⟨_, rfl, State.finishShadowLoad_coilsSafe hs⟩
  | permitExpiry | silenceExpiry => exact ⟨_, rfl, .ite (State.refresh_coilsSafe _) hs⟩
  | ptoChange on =>
    exact ⟨_, rfl, .ite hs (.ite (State.refresh_coilsSafe _) (State.refresh_coilsSafe _))⟩
  | stepExpiry k x =>
    refine ⟨_, rfl, ?_⟩
    split
    next => exact .ite (State.refresh_coilsSafe _) hs
    all_goals exact hs
  | coilPeriodStart k d n =>
    exact ⟨_, rfl, .ite (.ite (State.coilFault_coilsSafe hs _ _) (hs.setCoil rfl Coil.begin_off)) hs⟩
  | coilOnTimeEnd k d =>
    refine ⟨_, rfl, .ite (hs.setCoil rfl fun h => ?_) hs⟩
    obtain ⟨hcomputed, hforce, -⟩ := hs.coil_off h
    exact ⟨hcomputed, hforce, rfl⟩
  | coilShort k d n => exact ⟨_, rfl, .ite (State.coilFault_coilsSafe hs _ _) hs⟩
  | metrologyReadDone | storeVerifyDone | samplePair x y | pressureReading k p =>
    exact ⟨_, rfl, .ite (KeepsGates.coilsSafe (by simp) hs) hs⟩
  | frameArrival f | messageSent p | serviceByteGap l | tagLineBreak | busOff p | linkReset p | tagSeen tag n
  | profileWriteDone | profileEraseDone | commitWriteDone | recordWriteDone | sectorEraseDone
  | inclinometerReading x y | inclinometerStale | watchedInputChange w v | payloadTimerExpiry | secondTick
  | lineByteArrival l b => exact ⟨_, rfl, KeepsGates.coilsSafe (by simp) hs⟩
  | counterWriteDone | verifyWriteDone | makerWriteDone | codeWriteDone | settingsWriteDone | releaseWriteDone =>
    refine ⟨_, rfl, KeepsGates.coilsSafe ?_ hs⟩
    split <;> simp

/-! ### What safe coils say -/

/-- With PTO off, both coils of every channel are off (R67). -/
theorem CoilsSafe.off_of_pto {s : State} (hs : CoilsSafe s) (h : s.inter.pto = false) (c : Channel) :
    (s.drive.coils.get c).a.off ∧ (s.drive.coils.get c).b.off :=
  (hs c).1 (by simp [State.gatedOff, h])

/-- With the permit EXPIRED, both coils of every arm channel are off (R67). -/
theorem CoilsSafe.off_of_permit {s : State} (hs : CoilsSafe s) (h : s.inter.permitHeld = false) {c : Channel}
    (hc : c.isArm = true) : (s.drive.coils.get c).a.off ∧ (s.drive.coils.get c).b.off :=
  (hs c).1 (by simp [State.gatedOff, h, hc])

/-- The two coils of a channel are never both driven (R69). -/
theorem CoilsSafe.not_both_driven {s : State} (hs : CoilsSafe s) (c : Channel) :
    ¬((s.drive.coils.get c).a.driven = true ∧ (s.drive.coils.get c).b.driven = true) := by
  rintro ⟨ha, hb⟩
  obtain ⟨-, ⟨-, -, hoff⟩ | ⟨-, -, hoff⟩, -⟩ := hs c
  · rw [hoff] at ha
    cases ha
  · rw [hoff] at hb
    cases hb

/-- Settles O7: a step is idling or its command, which keeps the coils safe by `exec_coilsSafe`. -/
theorem gatedCoilsStayOff : Obligations.GatedCoilsStayOff := by
  unfold Obligations.GatedCoilsStayOff
  intro s t hs hstep
  have ht : CoilsSafe t := by
    unfold step at hstep
    split at hstep
    next =>
      cases hstep
      exact hs
    next c rest _ =>
      obtain ⟨u, hexec, hu⟩ := exec_coilsSafe c (s := { s with pending := rest }) hs
      rw [hexec] at hstep
      cases hstep
      exact hu
  exact ⟨ht, ht.off_of_pto, fun h c hc => ht.off_of_permit h hc, ht.not_both_driven⟩

end Sys2Proof.Machine

namespace Sys2Proof.Machine

/-! ## FAULT_CLEAR (R72) -/

/-- A channel that a request names has the number that the request gives (R26). -/
theorem State.number_of_chanNamed {s : State} {b : Byte} {c : Channel} (h : s.chanNamed b = some c) : c.number = b.toNat := by
  simp only [State.chanNamed] at h
  split at h
  next d hd =>
    split at h
    · cases h
      simp only [channelOf] at hd
      split at hd <;> cases hd <;> simp_all [Channel.number]
    · cases h
  next => cases h

/-- FAULT_CLEAR of a latch that is set: it is cleared, the sharing made afresh, the latch answered (R67, R72). -/
theorem State.takeFaultClear_latched {s : State} {h : Header} {b : Byte} {c : Channel} {l : Latch}
    (hc : s.chanNamed b = some c) (hrun : (s.chans.get c).state ≠ .run .playing) (hl : s.drive.latches.get c = some l) :
    State.takeFaultClear h b s = ((s.clearLatch c).refresh).answer h 9#8 .ok (.latch (some l)) := by
  simp only [State.takeFaultClear, hc, if_neg hrun, hl]

/-- The sharing made afresh leaves the latches, of which one was cleared (R67, R72). -/
theorem State.clearLatch_refresh_latches (s : State) (c : Channel) :
    (s.clearLatch c).refresh.drive.latches = s.drive.latches.put c none := rfl

/-- Settles O34: each branch of the owner, the cleared latch by `takeFaultClear_latched`. -/
theorem faultClearClearsTheLatch : Obligations.FaultClearClearsTheLatch := by
  unfold Obligations.FaultClearClearsTheLatch
  intro s h b ht
  have hp : h.src.port = .body := port_of_console ht.2
  refine ⟨State.takeFaultClear h b (s.popped h), congrArg Host.Outcome.next (State.request_taken s h _ b _ ht), ?unnamed,
    fun c hc => ⟨State.number_of_chanNamed hc, ?playing, ?clear, fun l hrun hl => ?latched⟩⟩
  case unnamed => exact fun hnone => answered_without_effect hp (fun _ => rfl) (by simp [State.takeFaultClear, hnone])
  case playing => exact fun hrun => answered_without_effect hp (fun _ => rfl) (by simp [State.takeFaultClear, hc, hrun])
  case clear =>
    exact fun hrun hl => answered_without_effect hp (fun _ => rfl) (by simp [State.takeFaultClear, hc, hrun, hl])
  case latched =>
    rw [State.takeFaultClear_latched (by simpa using hc) (by simpa using hrun) (by simpa using hl)]
    exact ⟨by simp [State.clearLatch_refresh_latches], by simp [State.core_eq_iff],
      settled_of_answer (by simp) (by simp [hp]) le_rfl⟩

end Sys2Proof.Machine

namespace Sys2Proof.Machine

/-! ## The sharing of the flow (R68, R69) -/

/-! ### The demand, and the trim of the scale (R68) -/

/-- A sum over the five channels whose flow is shared. -/
theorem sumShared_eq (f : Channel → Nat) :
    sumShared f = f .reach + f .lift + f .divert + f .packA + f .packB := by
  simp [sumShared, sharedChannels]

/-- The demand of the channels whose flow is shared, at the commands `g` (R68). -/
def demandAt (q : Channel → Nat) (g : Channel → Int) : Nat := sumShared fun c => demandOf (q c) (g c)

/-- The demand counts the channels whose flow is shared, and no other (R68). -/
theorem demandAt_congr {q : Channel → Nat} {g u : Channel → Int} (h : ∀ c, c ≠ .grip → g c = u c) :
    demandAt q g = demandAt q u := by
  simp [demandAt, sumShared_eq, h]

/-- Commands of 0 have no demand (R68). -/
theorem demandAt_zero {q : Channel → Nat} {g : Channel → Int} (h : ∀ c, g c = 0) : demandAt q g = 0 := by
  simp [demandAt, sumShared_eq, demandOf, h]

section trim
variable (q : Channel → Nat) (g : Channel → Int) (budget : Nat)

/-- The trim only lowers the scale (R68). -/
theorem trimScale_le (k : Nat) : trimScale q g budget k ≤ k := by
  induction k with
  | zero => exact le_rfl
  | succ k ih =>
    simp only [trimScale]
    split
    · exact ih.trans k.le_succ
    · exact le_rfl

/-- At the trimmed scale the scaled demands meet the budget: at the scale 0 there is none (R68). -/
theorem trimScale_fits (k : Nat) : demandAt q (fun c => scaled (trimScale q g budget k) (g c)) ≤ budget := by
  induction k with
  | zero =>
    rw [demandAt_zero fun c => by simp [trimScale, scaled, truncDiv]]
    exact budget.zero_le
  | succ k ih =>
    simp only [trimScale]
    split
    · exact ih
    next h => exact not_lt.mp h

/-- At every scale that the trim passed over the scaled demands exceed the budget (R68). -/
theorem trimScale_greatest (k : Nat) : ∀ j, trimScale q g budget k < j → j ≤ k →
    budget < demandAt q fun c => scaled j (g c) := by
  induction k with
  | zero => exact fun j hlo hhi => absurd hhi (by omega)
  | succ k ih =>
    intro j hlo hhi
    simp only [trimScale] at hlo
    split at hlo
    next hover =>
      rcases Nat.of_le_succ hhi with hle | rfl
      · exact ih j hlo hle
      · exact hover
    next => omega

end trim

/-! ### The sharing computation (R68) -/

section share
variable (qa : Nat) (q : Channel → Nat) (g : Channel → Int)

/-- GRIP is exempt (R68). -/
theorem shareFlow_grip : ((shareFlow qa q g).chans.get .grip).shared = g .grip := by
  simp only [shareFlow, Six.get_make]
  split <;> rfl

/-- Where the total demand meets the budget nothing is scaled (R68). -/
theorem shareFlow_enough (h : demandAt q g ≤ (shareFlow qa q g).budget) :
    (shareFlow qa q g).scale = none ∧ ∀ c, ((shareFlow qa q g).chans.get c).shared = g c := by
  have hscale : (shareFlow qa q g).scale = none := if_pos h
  refine ⟨hscale, fun c => ?_⟩
  simp only [shareFlow] at hscale
  simp only [shareFlow, Six.get_make, hscale]

/-- At a shortage every channel but GRIP is scaled alike, by the trimmed scale (R68). -/
theorem shareFlow_shortage {k : Nat} (h : (shareFlow qa q g).budget < demandAt q g)
    (hk : k = trimScale q g (shareFlow qa q g).budget ((shareFlow qa q g).budget * 1024 / demandAt q g)) :
    (shareFlow qa q g).scale = some k
      ∧ ∀ c, c ≠ .grip → ((shareFlow qa q g).chans.get c).shared = scaled k (g c) := by
  have hscale : (shareFlow qa q g).scale = some k := by
    rw [hk]
    exact if_neg (not_le.mpr h)
  refine ⟨hscale, fun c hc => ?_⟩
  simp only [shareFlow] at hscale
  simp only [shareFlow, Six.get_make, hscale]

/-- The shared commands' demand never exceeds the budget (R68). -/
theorem shareFlow_fits : demandAt q (fun c => ((shareFlow qa q g).chans.get c).shared) ≤ (shareFlow qa q g).budget := by
  by_cases h : demandAt q g ≤ (shareFlow qa q g).budget
  · obtain ⟨-, hshared⟩ := shareFlow_enough qa q g h
    simpa only [hshared] using h
  · obtain ⟨-, hshared⟩ := shareFlow_shortage qa q g (not_le.mp h) rfl
    rw [demandAt_congr hshared]
    exact trimScale_fits ..

end share

/-! ### The duties (R69) -/

/-- The duty of a driven coil between its calibration's bounds, in natural numbers (R69). -/
theorem dutyOf_eq {w : Word32} {lo hi : Nat} (hlo : lo = (w.extractLsb' 0 16).toNat)
    (hhi : hi = (w.extractLsb' 16 16).toNat) (h : lo ≤ hi) (u : Nat) : dutyOf w u = lo + (hi - lo) * u / 1000 := by
  have hdiff : ((hi : Int) - lo) * u = (((hi - lo) * u : Nat) : Int) := by
    rw [Nat.cast_mul, Nat.cast_sub h]
  simp only [dutyOf, truncDiv, ← hlo, ← hhi, hdiff]
  rfl

/-- The duty computed of a coil from its channel's shared command: of the A coil for a positive one, of the B coil for a
negative one (R69). -/
theorem State.refresh_duty (s : State) (c : Channel) (d : Side) {u : Int}
    (hu : u = (s.refresh.drive.sharing.chans.get c).shared) :
    ((s.refresh.drive.coils.get c).side d).computed
      = if (d = .a ∧ 0 < u) ∨ (d = .b ∧ u < 0) then dutyOf (coilWord s.tables c d) u.natAbs else 0 := by
  rw [State.refresh_coils, ← hu]
  cases d <;> simp [computeCoils, Two.side, coilDuties]

/-- Settles O51: the sharing by `shareFlow_enough` and `shareFlow_shortage`, the trim's own laws and `shareFlow_fits`; the
duties by `refresh_duty` and `dutyOf_eq`. -/
theorem sharingKeepsTheBudget : Obligations.SharingKeepsTheBudget := by
  unfold Obligations.SharingKeepsTheBudget
  refine ⟨fun qa q g need r hneed hr => ?sharing, fun s c d u w dmin dmax duty hu hw hmin hmax hduty =>
    ⟨rfl, rfl, fun hoff => ?off, fun hdriven hle => ?driven⟩⟩
  case sharing =>
    obtain rfl : need = demandAt q := funext fun u => by rw [hneed, demandAt, sumShared_eq]; rfl
    subst hr
    refine ⟨fun c => by simp [shareFlow, demandOf], rfl, rfl, shareFlow_grip qa q g, shareFlow_enough qa q g, fun hshort => ?_,
      shareFlow_fits qa q g⟩
    obtain ⟨hscale, hshared⟩ := shareFlow_shortage qa q g hshort rfl
    have hstart : (shareFlow qa q g).budget * 1024 / demandAt q g < 1024 := by
      rw [Nat.div_lt_iff_lt_mul (by omega)]
      omega
    have hle := trimScale_le q g (shareFlow qa q g).budget ((shareFlow qa q g).budget * 1024 / demandAt q g)
    exact ⟨_, hscale, hle, hle.trans_lt hstart, hshared, trimScale_greatest q g _ _⟩
  case off => rw [hduty, State.refresh_duty s c d hu, if_neg hoff]
  case driven =>
    have hval : duty = dmin + (dmax - dmin) * u.natAbs / 1000 := by
      rw [hduty, State.refresh_duty s c d hu, if_pos hdriven]
      subst hw
      exact dutyOf_eq hmin hmax hle _
    refine ⟨hval, by omega, fun hfull => ?_⟩
    rw [hval, hfull]
    omega

end Sys2Proof.Machine

namespace Sys2Proof.Machine

/-! ## Settings put, read and written (R190, R191) -/

/-! ### The list of a SETTING_PUT (R191, R197) -/

/-- A setting's number is below 13 (R197). -/
theorem settingOf_isSome (b : Byte) : (settingOf b).isSome = true ↔ b.toNat < 13 := by
  simp [settingOf, allSettings]

/-- No setting has two numbers (R197). -/
theorem settingOf_inj {b d : Byte} (hb : b.toNat < 13) (h : settingOf b = settingOf d) : b = d :=
  BitVec.eq_of_toNat_eq ((List.getElem?_inj hb (by decide : allSettings.Nodup)).mp h)

/-- The enumerated settings are those of the numbers 5, 11 and 12, each with a list of two codes (R191, R197). -/
theorem enumerated_of_settingOf {b : Byte} {k : Setting} (h : settingOf b = some k) :
    k.enumerated = decide (b.toNat = 5 ∨ 11 ≤ b.toNat) ∧ (k.enumerated = true → k.range.2 = 1) := by
  have hb : b.toNat < 13 := (settingOf_isSome b).mp (by simp [h])
  simp only [settingOf] at h
  generalize b.toNat = n at h hb
  interval_cases n <;> cases h <;> decide

/-- A pair by the name of its setting; none where its number names none (R197). -/
def namedPair (e : Byte × BitVec 16) : Option (Setting × Nat) := (settingOf e.1).map fun k => (k, e.2.toNat)

/-- The pairs of a list that name a setting, by their names (R197). -/
def namedPairs (l : List (Byte × BitVec 16)) : List (Setting × Nat) := l.filterMap namedPair

/-- A list whose numbers are all settings' is its pairs by name, one for one (R197). -/
theorem map_namedPairs {l : List (Byte × BitVec 16)} (h : ∀ e ∈ l, e.1.toNat < 13) :
    l.map (fun e => (settingOf e.1, e.2.toNat)) = (namedPairs l).map fun e => (some e.1, e.2) := by
  induction l with
  | nil => rfl
  | cons e l ih =>
    rw [List.forall_mem_cons] at h
    obtain ⟨k, hk⟩ := Option.isSome_iff_exists.mp ((settingOf_isSome e.1).mpr h.1)
    have hpair : namedPair e = some (k, e.2.toNat) := by simp [namedPair, hk]
    rw [namedPairs, List.filterMap_cons_some hpair, List.map_cons, List.map_cons, hk]
    exact congrArg _ (ih h.2)

/-- As many pairs by name as there are pairs: every number is a setting's (R197). -/
theorem length_namedPairs_iff (l : List (Byte × BitVec 16)) :
    (namedPairs l).length = l.length ↔ ∀ e ∈ l, e.1.toNat < 13 := by
  rw [namedPairs, List.filterMap_length_eq_length]
  simp [namedPair, ← settingOf_isSome]

/-- A name stands twice exactly where its number does (R191). -/
theorem nodup_namedPairs_iff {l : List (Byte × BitVec 16)} (h : ∀ e ∈ l, e.1.toNat < 13) :
    ((namedPairs l).map Prod.fst).Nodup ↔ (l.map Prod.fst).Nodup := by
  have hnames : (l.map Prod.fst).map settingOf = ((namedPairs l).map Prod.fst).map some := by
    have hfst := congrArg (List.map Prod.fst) (map_namedPairs h)
    simpa [Function.comp_def] using hfst
  rw [← List.nodup_map_iff (Option.some_injective Setting), ← hnames]
  refine ⟨List.Nodup.of_map _, fun hd => List.Nodup.map_on (fun b hb d _ heq => ?_) hd⟩
  obtain ⟨e, he, rfl⟩ := List.mem_map.mp hb
  exact settingOf_inj (h e he) heq

/-- Every enumerated setting of a list has a code of its list exactly where the numbers 5, 11 and 12 have the codes 0 and 1
(R191, R197). -/
theorem codes_namedPairs_iff {l : List (Byte × BitVec 16)} (h : ∀ e ∈ l, e.1.toNat < 13) :
    ((namedPairs l).all fun e => !e.1.enumerated || decide (e.2 ≤ e.1.range.2)) = true
      ↔ ∀ e ∈ l, (e.1.toNat = 5 ∨ 11 ≤ e.1.toNat) → e.2.toNat ≤ 1 := by
  simp only [List.all_eq_true, Bool.or_eq_true, Bool.not_eq_true', decide_eq_true_eq, namedPairs, List.mem_filterMap]
  constructor
  · intro hall e he henum
    obtain ⟨k, hk⟩ := Option.isSome_iff_exists.mp ((settingOf_isSome e.1).mpr (h e he))
    obtain ⟨hcode, hrange⟩ := enumerated_of_settingOf hk
    have hlist : k.enumerated = true := by simpa [hcode] using henum
    rcases hall (k, e.2.toNat) ⟨e, he, by simp [namedPair, hk]⟩ with hno | hle
    · rw [hlist] at hno
      cases hno
    · rwa [hrange hlist] at hle
  · rintro hcodes ⟨k, v⟩ ⟨e, he, hpair⟩
    simp only [namedPair, Option.map_eq_some_iff, Prod.mk.injEq] at hpair
    obtain ⟨_, hk, rfl, rfl⟩ := hpair
    obtain ⟨hcode, hrange⟩ := enumerated_of_settingOf hk
    by_cases henum : e.1.toNat = 5 ∨ 11 ≤ e.1.toNat
    · rw [hrange (by simpa [hcode] using henum)]
      exact .inr (hcodes e he henum)
    · exact .inl (by simpa [hcode] using henum)

/-- A list that SETTING_PUT takes (R191, log 27). -/
abbrev TakesSettings (l : List (Byte × BitVec 16)) : Prop :=
  1 ≤ l.length ∧ l.length ≤ 8 ∧ (∀ e ∈ l, e.1.toNat < 13) ∧ (l.map Prod.fst).Nodup
    ∧ ∀ e ∈ l, (e.1.toNat = 5 ∨ 11 ≤ e.1.toNat) → e.2.toNat ≤ 1

/-- SETTING_PUT takes a list as its pairs by name (R191, log 27). -/
theorem settingPairs_eq_some_iff (l : List (Byte × BitVec 16)) (pairs : List (Setting × Nat)) :
    settingPairs l = some pairs ↔ TakesSettings l ∧ pairs = namedPairs l := by
  have hform : settingPairs l = if 1 ≤ l.length ∧ l.length ≤ 8 ∧ (namedPairs l).length = l.length
      ∧ distinct ((namedPairs l).map Prod.fst)
      ∧ ((namedPairs l).all fun e => !e.1.enumerated || decide (e.2 ≤ e.1.range.2)) then some (namedPairs l) else none := rfl
  rw [hform, Option.ite_none_right_eq_some, distinct_iff, length_namedPairs_iff, Option.some.injEq, eq_comm (a := pairs)]
  refine and_congr_left fun _ => and_congr_right fun _ => and_congr_right fun _ => and_congr_right fun hall => ?_
  rw [nodup_namedPairs_iff hall, codes_namedPairs_iff hall]

/-! ### The settings with pairs applied (R191) -/

/-- A setting given a value of its range has it (R191). -/
theorem Settings.value_put_same (x : Settings) (k : Setting) {v : Nat} (h : k.enumerated = true → v ≤ 1) :
    (x.put k v).value k = v := by
  have hcode : k.enumerated = true → v = 0 ∨ v = 1 := fun he => Nat.le_one_iff_eq_zero_or_eq_one.mp (h he)
  cases k with
  | untaggedPolicy | mapRefuse | mapRecycle => rcases hcode rfl with rfl | rfl <;> rfl
  | _ => rfl

/-- A setting given a value leaves every other (R191). -/
theorem Settings.value_put_other (x : Settings) {j k : Setting} (v : Nat) (h : j ≠ k) :
    (x.put k v).value j = x.value j := by
  cases k <;> cases j <;> first | rfl | exact absurd rfl h

/-- A value brought to the nearer bound of an enumerated setting is a code of its list (R191). -/
theorem Setting.clamp_code {k : Setting} (h : k.enumerated = true) (v : Nat) : k.clamp v ≤ 1 := by
  have hrange : k.range = (0, 1) := by cases k <;> first | rfl | cases h
  simp only [Setting.clamp, clampNat, hrange]
  (repeat' split) <;> omega

@[simp] theorem Settings.apply_cons (x : Settings) (e : Setting × Nat) (l : List (Setting × Nat)) :
    x.apply (e :: l) = (x.put e.1 (e.1.clamp e.2)).apply l := rfl

/-- A setting that no pair names keeps its value (R191). -/
theorem Settings.apply_value_other {l : List (Setting × Nat)} {k : Setting} (h : ∀ e ∈ l, k ≠ e.1) (x : Settings) :
    (x.apply l).value k = x.value k := by
  induction l generalizing x with
  | nil => rfl
  | cons e l ih =>
    rw [List.forall_mem_cons] at h
    rw [Settings.apply_cons, ih h.2, Settings.value_put_other x _ h.1]

/-- A setting that one pair names has that pair's value, at its nearer bound (R191). -/
theorem Settings.apply_value {l : List (Setting × Nat)} (hd : (l.map Prod.fst).Nodup) (x : Settings) :
    ∀ e ∈ l, (x.apply l).value e.1 = e.1.clamp e.2 := by
  induction l generalizing x with
  | nil => simp
  | cons f l ih =>
    rw [List.map_cons, List.nodup_cons] at hd
    rw [List.forall_mem_cons, Settings.apply_cons]
    refine ⟨?_, ih hd.2 _⟩
    have hother : ∀ e ∈ l, f.1 ≠ e.1 := fun e he heq => hd.1 (heq ▸ List.mem_map_of_mem he)
    rw [Settings.apply_value_other hother, Settings.value_put_same x f.1 fun h => Setting.clamp_code h f.2]

/-! ### The block and its write (R190) -/

/-- The block with pairs applied and made dirty, a write started where none runs (R190, R191). -/
def SettingsBlock.applied (x : SettingsBlock) (l : List (Setting × Nat)) : SettingsBlock :=
  SettingsBlock.startWrite { x with inForce := x.inForce.apply l, dirty := true }

/-- The start of a write leaves the settings in force and the generation (R190). -/
@[simp] theorem SettingsBlock.startWrite_frame (x : SettingsBlock) :
    x.startWrite.inForce = x.inForce ∧ x.startWrite.generation = x.generation ∧ x.startWrite.holder = x.holder := by
  simp only [SettingsBlock.startWrite]
  split <;> simp

/-- A write of a dirty block starts where none runs and a generation is left (R190). -/
theorem SettingsBlock.startWrite_starts {x : SettingsBlock} (hd : x.dirty = true) (hw : x.write = none)
    (hg : x.generation < 4294967294) :
    x.startWrite.write = some ⟨x.inForce, x.generation + 1⟩ ∧ x.startWrite.dirty = false := by
  have hstart : x.startWrite = _ := if_pos ⟨hd, hw, hg⟩
  rw [hstart]
  exact ⟨rfl, rfl⟩

/-- No write starts of a clean block, during another write, or past the last generation (R190). -/
theorem SettingsBlock.startWrite_waits {x : SettingsBlock}
    (h : x.dirty = false ∨ x.write ≠ none ∨ 4294967294 ≤ x.generation) : x.startWrite = x := by
  refine if_neg ?_
  rintro ⟨hd, hw, hg⟩
  rcases h with h | h | h
  · rw [hd] at h
    cases h
  · exact h hw
  · exact absurd hg (not_lt.mpr h)

/-- The settings in force with pairs applied, whether a write starts or not (R191). -/
@[simp] theorem SettingsBlock.applied_inForce (x : SettingsBlock) (l : List (Setting × Nat)) :
    (x.applied l).inForce = x.inForce.apply l :=
  (SettingsBlock.startWrite_frame _).1

/-- Pairs applied while no write runs start one (R190, R191). -/
theorem SettingsBlock.applied_starts {x : SettingsBlock} (l : List (Setting × Nat)) (hw : x.write = none)
    (hg : x.generation < 4294967294) :
    (x.applied l).write = some ⟨(x.applied l).inForce, x.generation + 1⟩ ∧ (x.applied l).dirty = false := by
  rw [SettingsBlock.applied_inForce]
  exact SettingsBlock.startWrite_starts (x := { x with inForce := x.inForce.apply l, dirty := true }) rfl hw hg

/-- Pairs applied during a write, or past the last generation, leave the block dirty (R190, R191). -/
theorem SettingsBlock.applied_waits {x : SettingsBlock} (l : List (Setting × Nat))
    (h : x.write ≠ none ∨ 4294967294 ≤ x.generation) :
    (x.applied l).write = x.write ∧ (x.applied l).dirty = true := by
  rw [SettingsBlock.applied,
    SettingsBlock.startWrite_waits (x := { x with inForce := x.inForce.apply l, dirty := true }) (.inr h)]
  exact ⟨rfl, rfl⟩

/-! ### What stands of the accounts (R137, R179) -/

/-- Two compartment records of the same total, counts and status (R137, R138, R140). -/
@[simp] def Comp.SameAccount (x y : Comp) : Prop :=
  y.total = x.total ∧ y.shorts = x.shorts ∧ y.tips = x.tips ∧ y.status = x.status

/-- The accounts, the Interlocks, the journal and the chassis link stand: nothing that PAYLOAD tells has changed (R179). -/
structure KeepsAccounts (s t : State) : Prop where
  variant : t.variant = s.variant
  comps : ∀ m, (s.comps.comp m).SameAccount (t.comps.comp m)
  inter : t.inter = s.inter
  journal : t.journal = s.journal
  chassis : t.links.chassis = s.links.chassis

theorem KeepsAccounts.trans {s t u : State} (h : KeepsAccounts s t) (k : KeepsAccounts t u) : KeepsAccounts s u where
  variant := k.variant.trans h.variant
  comps m := by
    obtain ⟨ht, hs, hn, hx⟩ := h.comps m
    obtain ⟨kt, ks, kn, kx⟩ := k.comps m
    exact ⟨kt.trans ht, ks.trans hs, kn.trans hn, kx.trans hx⟩
  inter := k.inter.trans h.inter
  journal := k.journal.trans h.journal
  chassis := k.chassis.trans h.chassis

/-- Where the accounts stand PAYLOAD would tell the same (R179). -/
theorem KeepsAccounts.payloadMsg {s t : State} (h : KeepsAccounts s t) : t.payloadMsg = s.payloadMsg := by
  obtain ⟨hta, -, -, hxa⟩ := h.comps .a
  obtain ⟨htb, -, -, hxb⟩ := h.comps .b
  simp only [Two.comp] at hta hxa htb hxb
  unfold State.payloadMsg State.hasComp
  rw [h.variant, h.inter, h.journal, hta, hxa, htb, hxb]

/-! ### The statuses recomputed (R137, R179) -/

/-- The body has a compartment's status recomputed from its totals (R137). -/
def State.restated (s : State) (m : Compartment) : CompStatus :=
  statusOf (s.comps.comp m).total (s.comps.comp m).shorts (s.settings.inForce.limit m) s.settings.inForce.fullStrokes

/-- A compartment record replaced by itself. -/
@[simp] theorem State.setComp_self (s : State) (m : Compartment) : s.setComp m (s.comps.comp m) = s := by
  cases m <;> rfl

/-- A compartment whose status stands, or which the body lacks, sends nothing (R137). -/
theorem State.recompute_same {s : State} {m : Compartment}
    (h : s.hasComp m = true → s.restated m = (s.comps.comp m).status) : s.recompute m = s := by
  simp only [State.recompute]
  split
  next hm =>
    have hrec : (s.comps.comp m).recompute s.settings.inForce m = s.comps.comp m := by
      simp only [Comp.recompute]
      rw [← State.restated, h hm]
    rw [hrec, State.handOver_same rfl, State.setComp_self]
  next => rfl

/-- A compartment with its status recomputed (R137). -/
def State.putStatus (s : State) (m : Compartment) : State := s.setComp m { s.comps.comp m with status := s.restated m }

/-- A compartment whose status changes sends PAYLOAD (R137, R179). -/
theorem State.recompute_changed {s : State} {m : Compartment} (hm : s.hasComp m = true)
    (h : s.restated m ≠ (s.comps.comp m).status) : s.recompute m = (s.putStatus m).emitPayload := by
  simp only [State.recompute, if_pos hm]
  exact State.handOver_changed fun heq => h (congrArg Prod.snd heq)

/-- The compartment after its status is recomputed (R137). -/
theorem State.recompute_comp (s : State) (m : Compartment) :
    (s.recompute m).comps.comp m = { s.comps.comp m with
      status := if s.hasComp m then s.restated m else (s.comps.comp m).status } := by
  by_cases h : s.hasComp m = true → s.restated m = (s.comps.comp m).status
  · rw [State.recompute_same h]
    split
    next hm => rw [h hm]
    next => rfl
  · obtain ⟨hm, hne⟩ := Classical.not_imp.mp h
    rw [State.recompute_changed hm hne, if_pos hm]
    simp [State.putStatus]

/-- The other compartment stands. -/
theorem State.recompute_comp_other (s : State) {m n : Compartment} (h : n ≠ m) :
    (s.recompute m).comps.comp n = s.comps.comp n := by
  simp only [State.recompute, State.handOver]
  (repeat' split) <;> simp [Two.comp_putComp_other _ _ _ _ h]

/-- The Interlocks stand but for the payload timer, which PAYLOAD restarts (R179). -/
theorem State.recompute_inter (s : State) (m : Compartment) :
    (s.recompute m).inter = s.inter ∨ (s.recompute m).inter = { s.inter with payloadTimer := 500 } := by
  simp only [State.recompute, State.handOver]
  (repeat' split) <;> simp [State.emitPayload_inter]

/-- The status of B that is to be recomputed does not hang on A's. -/
theorem State.recompute_a_restated (s : State) :
    (s.recompute .a).restated .b = s.restated .b ∧ (s.recompute .a).hasComp .b = s.hasComp .b
      ∧ (s.recompute .a).comps.comp .b = s.comps.comp .b := by
  have hb : (s.recompute .a).comps.comp .b = s.comps.comp .b := State.recompute_comp_other _ (by decide)
  simp only [State.restated, State.hasComp, hb, State.recompute_frame, and_self]

/-- Both statuses recomputed, A first (R137, log 47). -/
def State.recomputeBoth (s : State) : State := (s.recompute .a).recompute .b

/-- Both compartments after their statuses are recomputed (R137). -/
theorem State.recomputeBoth_comp (s : State) (m : Compartment) :
    s.recomputeBoth.comps.comp m = { s.comps.comp m with
      status := if s.hasComp m then s.restated m else (s.comps.comp m).status } := by
  cases m with
  | a => rw [State.recomputeBoth, State.recompute_comp_other _ (by decide), State.recompute_comp]
  | b =>
    obtain ⟨hrestated, hhas, hcomp⟩ := s.recompute_a_restated
    rw [State.recomputeBoth, State.recompute_comp, hrestated, hhas, hcomp]

/-- A recomputed status changes exactly where the body has the compartment and its totals give another (R137). -/
theorem State.recomputeBoth_status_ne_iff (s : State) (m : Compartment) :
    (s.recomputeBoth.comps.comp m).status ≠ (s.comps.comp m).status
      ↔ s.hasComp m = true ∧ s.restated m ≠ (s.comps.comp m).status := by
  rw [State.recomputeBoth_comp]
  by_cases hm : s.hasComp m = true <;> simp [hm]

/-- Recomputed statuses that stand send nothing (R137). -/
theorem State.recomputeBoth_same {s : State} (h : ∀ m, (s.recomputeBoth.comps.comp m).status = (s.comps.comp m).status) :
    s.recomputeBoth = s := by
  have hsame : ∀ m, s.hasComp m = true → s.restated m = (s.comps.comp m).status := fun m hm => by
    by_contra hne
    exact (State.recomputeBoth_status_ne_iff s m).mpr ⟨hm, hne⟩ (h m)
  rw [State.recomputeBoth, State.recompute_same (hsame .a), State.recompute_same (hsame .b)]

/-- A changed status restarts the payload timer (R179). -/
theorem State.recomputeBoth_inter {s : State} {m : Compartment}
    (h : (s.recomputeBoth.comps.comp m).status ≠ (s.comps.comp m).status) :
    s.recomputeBoth.inter = { s.inter with payloadTimer := 500 } := by
  obtain ⟨hm, hne⟩ := (State.recomputeBoth_status_ne_iff s m).mp h
  cases m with
  | a =>
    have ha : (s.recompute .a).inter = { s.inter with payloadTimer := 500 } := by
      rw [State.recompute_changed hm hne, State.emitPayload_inter]
      rfl
    rcases (s.recompute .a).recompute_inter .b with hb | hb <;> rw [State.recomputeBoth, hb, ha]
  | b =>
    obtain ⟨hrestated, hhas, hcomp⟩ := s.recompute_a_restated
    rw [State.recomputeBoth, State.recompute_changed (by rwa [hhas]) (by rwa [hrestated, hcomp]), State.emitPayload_inter]
    change { (s.recompute .a).inter with payloadTimer := 500 } = _
    rcases s.recompute_inter .a with ha | ha <;> rw [ha]

/-- One changed status sends PAYLOAD, with the values as they then stand (R179). -/
theorem State.recomputeBoth_sends {s : State} {m : Compartment}
    (h : (s.recomputeBoth.comps.comp m).status ≠ (s.comps.comp m).status)
    (hother : ∀ k, k ≠ m → (s.recomputeBoth.comps.comp k).status = (s.comps.comp k).status) :
    SendsPayload s s.recomputeBoth s.recomputeBoth.payloadMsg := by
  have hsame : ∀ k, k ≠ m → s.hasComp k = true → s.restated k = (s.comps.comp k).status := fun k hk hm => by
    by_contra hne
    exact (State.recomputeBoth_status_ne_iff s k).mpr ⟨hm, hne⟩ (hother k hk)
  obtain ⟨hm, hne⟩ := (State.recomputeBoth_status_ne_iff s m).mp h
  have hone : s.recomputeBoth = (s.putStatus m).emitPayload := by
    cases m with
    | a =>
      obtain ⟨hrestated, hhas, hcomp⟩ := s.recompute_a_restated
      rw [State.recomputeBoth, State.recompute_same (by rw [hrestated, hhas, hcomp]; exact hsame .b (by decide)),
        State.recompute_changed hm hne]
    | b => rw [State.recomputeBoth, State.recompute_same (hsame .a (by decide)), State.recompute_changed hm hne]
  rw [hone, State.emitPayload_payloadMsg]
  exact State.emitPayload_sends (s.putStatus m)

/-- PAYLOAD in the chassis link's transmit queue, where it has room (R179). -/
theorem State.emitPayload_chassis {s : State} (hbus : s.links.chassis.onBus = true)
    (hroom : s.links.chassis.tx.length < 16) :
    s.emitPayload.links.chassis
      = { s.links.chassis with tx := s.links.chassis.tx ++ [.payload s.payloadMsg] } := by
  simp [State.emitPayload, State.sendPayload_eq, hbus, State.setPort, queueUnasked, Config.txCapacity, hroom]

/-- Two changed statuses send two PAYLOADs, the first with B's status as it was (R179, log 47). -/
theorem State.recomputeBoth_sends_two {s : State}
    (h : ∀ m, (s.recomputeBoth.comps.comp m).status ≠ (s.comps.comp m).status) (hbus : s.links.chassis.onBus = true)
    (hroom : s.links.chassis.tx.length + 2 ≤ 16) :
    s.recomputeBoth.links.chassis.tx = s.links.chassis.tx
      ++ [.payload { s.recomputeBoth.payloadMsg with statusB := s.payloadMsg.statusB },
          .payload s.recomputeBoth.payloadMsg] := by
  obtain ⟨hma, hna⟩ := (State.recomputeBoth_status_ne_iff s .a).mp (h .a)
  obtain ⟨hmb, hnb⟩ := (State.recomputeBoth_status_ne_iff s .b).mp (h .b)
  obtain ⟨hrestated, hhas, hcomp⟩ := s.recompute_a_restated
  have hfirst : s.recompute .a = (s.putStatus .a).emitPayload := State.recompute_changed hma hna
  have hboth : s.recomputeBoth = ((s.recompute .a).putStatus .b).emitPayload :=
    State.recompute_changed (by rwa [hhas]) (by rwa [hrestated, hcomp])
  have hchassis : (s.recompute .a).links.chassis
      = { s.links.chassis with tx := s.links.chassis.tx ++ [.payload (s.putStatus .a).payloadMsg] } := by
    rw [hfirst]
    exact State.emitPayload_chassis (s := s.putStatus .a) hbus (by change s.links.chassis.tx.length < 16; omega)
  have htold : ((s.recompute .a).putStatus .b).payloadMsg = s.recomputeBoth.payloadMsg := by
    rw [hboth, State.emitPayload_payloadMsg]
  have hfirstTold : (s.putStatus .a).payloadMsg
      = { s.recomputeBoth.payloadMsg with statusB := s.payloadMsg.statusB } := by
    have hkept : (s.recompute .a).payloadMsg = (s.putStatus .a).payloadMsg := by
      rw [hfirst, State.emitPayload_payloadMsg]
    calc (s.putStatus .a).payloadMsg
        = { (s.recompute .a).payloadMsg with statusB := s.payloadMsg.statusB } := by rw [hkept]; rfl
      _ = { ((s.recompute .a).putStatus .b).payloadMsg with statusB := s.payloadMsg.statusB } := rfl
      _ = { s.recomputeBoth.payloadMsg with statusB := s.payloadMsg.statusB } := by rw [htold]
  rw [← hfirstTold, ← htold, hboth,
    State.emitPayload_chassis (s := (s.recompute .a).putStatus .b) (by simpa [State.putStatus, hchassis] using hbus)
      (by simp [State.putStatus, hchassis]; omega)]
  simp [State.putStatus, hchassis]

/-! ### Due pack cycles (R141, R142) -/

/-- What a compartment's pack cycle leaves as it starts: the accounts, the other packer and the other channels (R142). -/
structure KeepsOthers (m : Compartment) (s t : State) : Prop where
  accounts : KeepsAccounts s t
  chans : ∀ k, k ≠ m.packer → t.chans.get k = s.chans.get k
  comps : ∀ n, n ≠ m → t.comps.comp n = s.comps.comp n

theorem KeepsAccounts.refl (s : State) : KeepsAccounts s s := ⟨rfl, fun _ => ⟨rfl, rfl, rfl, rfl⟩, rfl, rfl, rfl⟩

theorem KeepsOthers.refl (m : Compartment) (s : State) : KeepsOthers m s s :=
  ⟨KeepsAccounts.refl s, fun _ _ => rfl, fun _ _ => rfl⟩

theorem KeepsOthers.trans {m : Compartment} {s t u : State} (h : KeepsOthers m s t) (k : KeepsOthers m t u) :
    KeepsOthers m s u where
  accounts := h.accounts.trans k.accounts
  chans c hc := (k.chans c hc).trans (h.chans c hc)
  comps n hn := (k.comps n hn).trans (h.comps n hn)

/-- A compartment's record replaced by one of the same account. -/
theorem keepsOthers_setComp {s : State} {m : Compartment} {y : Comp} (hy : (s.comps.comp m).SameAccount y) :
    KeepsOthers m s (s.setComp m y) where
  accounts := ⟨rfl, fun n => by
    by_cases hn : n = m
    · subst hn
      simpa using hy
    · simp [Two.comp_putComp_other _ _ _ _ hn], rfl, rfl, rfl⟩
  chans _ _ := rfl
  comps n hn := Two.comp_putComp_other _ _ _ _ hn

/-- A packer's channel record replaced. -/
theorem keepsOthers_setChan (s : State) (m : Compartment) (q : Chan) : KeepsOthers m s (s.setChan m.packer q) where
  accounts := ⟨rfl, fun _ => ⟨rfl, rfl, rfl, rfl⟩, rfl, rfl, rfl⟩
  chans _ hk := Six.get_put_other _ _ _ _ hk
  comps _ _ := rfl

/-- An alert goes to the body link alone (R188). -/
theorem keepsOthers_alert (s : State) (m : Compartment) (a : Alert) : KeepsOthers m s (s.alert a) where
  accounts := ⟨by simp, fun n => by simp, by simp, by simp, State.alert_port (q := .chassis) (by decide) s a⟩
  chans k _ := by simp
  comps n _ := by simp

/-- START replaces its channel's record, where it is refused by itself (R28). -/
theorem State.startChan_eq_setChan (s : State) (c : Channel) (o : Origin) (a e : Nat) :
    ∃ q, s.startChan c o a e = s.setChan c q := by
  simp only [State.startChan]
  split
  · exact ⟨_, rfl⟩
  · exact ⟨s.chans.get c, by cases c <;> rfl⟩

/-- A fault at START outside an ejection leaves the accounts and the other packer (R146). -/
theorem State.reportPackStart_keepsOthers {s : State} {m : Compartment} (h : (s.comps.comp m).stage ≠ .ejecting) :
    KeepsOthers m s (s.reportPackStart m) := by
  simp only [State.reportPackStart]
  split
  · rw [State.packFault_packing h]
    refine (keepsOthers_setComp ?_).trans (keepsOthers_alert _ m _)
    exact ⟨rfl, rfl, rfl, rfl⟩
  · exact KeepsOthers.refl _ _

/-- The start of a pack cycle leaves the accounts and the other packer, with its latch set too (R142, R146). -/
theorem State.startPack_keepsOthers (s : State) (m : Compartment) (a : Nat) : KeepsOthers m s (s.startPack m a) := by
  obtain ⟨q, hq⟩ := s.startChan_eq_setChan m.packer .pack a 255
  have hswept : KeepsOthers m s (s.setComp m { s.comps.comp m with stage := .sweep, stroke := none }) :=
    keepsOthers_setComp ⟨rfl, rfl, rfl, rfl⟩
  rw [State.startPack_eq hq]
  exact (hswept.trans (keepsOthers_setChan _ m _)).trans (State.reportPackStart_keepsOthers (by simp))

/-- The test for a due pack cycle leaves the accounts and the other packer (R141). -/
theorem State.testDue_keepsOthers (s : State) (m : Compartment) : KeepsOthers m s (s.testDue m) := by
  simp only [State.testDue]
  (repeat' split)
  · exact s.startPack_keepsOthers m _
  all_goals exact KeepsOthers.refl _ _

/-- No pack cycle is due with too few tips counted, with one begun, or while PTO is off (R141). -/
theorem State.testDue_stands {s : State} {m : Compartment}
    (h : (s.comps.comp m).tips < s.settings.inForce.packAfter ∨ (s.comps.comp m).stage ≠ .rest ∨ s.inter.pto = false) :
    s.testDue m = s := by
  rcases h with h | h | h
  · simp [State.testDue, Nat.not_le.mpr h]
  · simp [State.testDue, h]
  · simp [State.testDue, h]

/-- What the tests for due pack cycles leave (R141). -/
theorem State.testDueAll_keeps (s : State) :
    KeepsAccounts s s.testDueAll ∧ ∀ k, k.isArm = true → s.testDueAll.chans.get k = s.chans.get k := by
  have ha := s.testDue_keepsOthers .a
  have hb := (s.testDue .a).testDue_keepsOthers .b
  refine ⟨ha.accounts.trans hb.accounts, fun k hk => ?_⟩
  rw [State.testDueAll, hb.chans k (by rintro rfl; cases hk), ha.chans k (by rintro rfl; cases hk)]

/-- A compartment for which no pack cycle is due stands (R141). -/
theorem State.testDueAll_stands {s : State} {m : Compartment}
    (h : (s.comps.comp m).tips < s.settings.inForce.packAfter ∨ (s.comps.comp m).stage ≠ .rest ∨ s.inter.pto = false) :
    s.testDueAll.chans.get m.packer = s.chans.get m.packer ∧ s.testDueAll.comps.comp m = s.comps.comp m := by
  cases m with
  | a =>
    have hb := s.testDue_keepsOthers .b
    rw [State.testDueAll, State.testDue_stands (m := .a) h]
    exact ⟨hb.chans _ (by decide), hb.comps _ (by decide)⟩
  | b =>
    have ha := s.testDue_keepsOthers .a
    have hstill : (s.testDue .a).testDue .b = s.testDue .a :=
      State.testDue_stands (by simpa [ha.comps .b (by decide), ha.accounts.inter] using h)
    rw [State.testDueAll, hstill]
    exact ⟨ha.chans _ (by decide), ha.comps _ (by decide)⟩

/-- A packer that the test for a due pack cycle starts: PTO on, the shadow READY, the journal scanned, its entry, its channel
IDLE with no latch set (R28, R141). -/
structure State.StartsDue (s : State) (m : Compartment) (a : Nat) : Prop where
  present : s.hasComp m = true
  due : s.settings.inForce.packAfter ≤ (s.comps.comp m).tips
  rest : (s.comps.comp m).stage = .rest
  pto : s.inter.pto = true
  ready : s.shadow.state = .ready
  scanned : s.journal.starting = false
  entry : s.packEntry m = some a
  idle : (s.chans.get m.packer).state = .idle
  free : s.drive.latches.get m.packer = none

/-- A due pack cycle starts its channel and its stage SWEEP (R141, R142). -/
theorem State.StartsDue.testDue {s : State} {m : Compartment} {a : Nat} (h : s.StartsDue m a) :
    (s.testDue m).chans.get m.packer = Chan.started .pack a 255 ∧ ((s.testDue m).comps.comp m).stage = .sweep
      ∧ ((s.testDue m).comps.comp m).stroke = none := by
  rw [State.testDue_starts h.due h.present h.rest h.pto h.ready h.scanned h.entry,
    State.startPack_free (State.takesStart_packer h.present h.idle h.ready) h.free]
  simp [State.playsPacker, h.pto]

/-- The entries and the body stand where the shadow and the variant do (R1, R60). -/
theorem State.packEntry_congr {s t : State} (hs : t.shadow = s.shadow) (m : Compartment) :
    t.packEntry m = s.packEntry m := by
  simp only [State.packEntry, State.tables, hs]

/-- What starts a packer stands where its own records do (R141). -/
theorem State.StartsDue.of_kept {s t : State} {m : Compartment} {a : Nat} (h : s.StartsDue m a)
    (hvariant : t.variant = s.variant) (hsettings : t.settings = s.settings) (hshadow : t.shadow = s.shadow)
    (hdrive : t.drive = s.drive) (hpto : t.inter.pto = s.inter.pto) (hjournal : t.journal.starting = s.journal.starting)
    (htips : (t.comps.comp m).tips = (s.comps.comp m).tips) (hstage : (t.comps.comp m).stage = (s.comps.comp m).stage)
    (hchan : t.chans.get m.packer = s.chans.get m.packer) : t.StartsDue m a where
  present := by
    rw [State.hasComp, hvariant]
    exact h.present
  due := by rw [hsettings, htips]; exact h.due
  rest := hstage.trans h.rest
  pto := hpto.trans h.pto
  ready := by rw [hshadow]; exact h.ready
  scanned := hjournal.trans h.scanned
  entry := (State.packEntry_congr hshadow m).trans h.entry
  idle := by rw [hchan]; exact h.idle
  free := by rw [hdrive]; exact h.free

/-- The tests for due pack cycles start a packer for which one is due (R141, R142). -/
theorem State.StartsDue.testDueAll {s : State} {m : Compartment} {a : Nat} (h : s.StartsDue m a) :
    s.testDueAll.chans.get m.packer = Chan.started .pack a 255 ∧ (s.testDueAll.comps.comp m).stage = .sweep
      ∧ (s.testDueAll.comps.comp m).stroke = none := by
  cases m with
  | a =>
    have hb := (s.testDue .a).testDue_keepsOthers .b
    rw [State.testDueAll, hb.chans _ (by decide), hb.comps _ (by decide)]
    exact h.testDue
  | b =>
    have ha := s.testDue_keepsOthers .a
    have hcomp : (s.testDue .a).comps.comp .b = s.comps.comp .b := ha.comps _ (by decide)
    exact State.StartsDue.testDue (h.of_kept (by simp) (by simp) (by simp) (by simp) (by rw [ha.accounts.inter])
      (by rw [ha.accounts.journal]) (by rw [hcomp]) (by rw [hcomp]) (ha.chans _ (by decide)))

/-! ### Settings taken into use (R66, R137, R141) -/

/-- A list of pairs names one of some settings. -/
abbrev NamesOneOf (ks : List Setting) (l : List (Setting × Nat)) : Prop := ∃ k ∈ ks, ∃ v, (k, v) ∈ l

/-- The settings that the statuses hang on (R137). -/
abbrev statusSettings : List Setting := [.limitA, .limitB, .fullStrokes]

/-- The settings that the available flow hangs on (R66). -/
abbrev flowSettings : List Setting := [.idleRpm, .displacement]

/-- The statuses recomputed where a limit or full_strokes is put (R137). -/
def State.restate (s : State) (l : List (Setting × Nat)) : State :=
  let names := l.map Prod.fst
  if names.contains .limitA || names.contains .limitB || names.contains .fullStrokes then s.recomputeBoth else s

/-- Due pack cycles tested where pack_after is put (R141). -/
def State.retest (s : State) (l : List (Setting × Nat)) : State :=
  if (l.map Prod.fst).contains .packAfter then s.testDueAll else s

/-- Qa computed where idle_rpm or displacement is put, and the sharing made afresh (R66, R67). -/
def State.reflow (s : State) (l : List (Setting × Nat)) : State :=
  let names := l.map Prod.fst
  (if names.contains .idleRpm || names.contains .displacement then s.recomputeQa else s).refresh

/-- Settings are taken into use in three parts. -/
theorem State.useSettings_eq (s : State) (l : List (Setting × Nat)) :
    s.useSettings l = ((s.restate l).retest l).reflow l := rfl

section use
variable {s : State} {l : List (Setting × Nat)}

theorem State.restate_named (h : NamesOneOf statusSettings l) : s.restate l = s.recomputeBoth :=
  if_pos (by simpa [NamesOneOf, or_assoc] using h)

theorem State.restate_unnamed (h : ∀ k ∈ statusSettings, ∀ v, (k, v) ∉ l) : s.restate l = s :=
  if_neg (by simpa [or_assoc] using h)

/-- Statuses are recomputed, or nothing happens. -/
theorem State.restate_eq (s : State) (l : List (Setting × Nat)) : s.restate l = s.recomputeBoth ∨ s.restate l = s := by
  simp only [State.restate]
  split
  · exact .inl rfl
  · exact .inr rfl

@[simp] theorem State.restate_frame (s : State) (l : List (Setting × Nat)) :
    (s.restate l).variant = s.variant ∧ (s.restate l).settings = s.settings ∧ (s.restate l).lcc = s.lcc
     ∧ (s.restate l).chans = s.chans ∧ (s.restate l).store = s.store ∧ (s.restate l).shadow = s.shadow
     ∧ (s.restate l).drive = s.drive ∧ (s.restate l).weigh = s.weigh ∧ (s.restate l).lock = s.lock
     ∧ (s.restate l).houses = s.houses ∧ (s.restate l).journal = s.journal := by
  rcases s.restate_eq l with h | h <;> simp [h, State.recomputeBoth]

/-- What PTO, the chassis and its report are, PAYLOAD leaves (R179). -/
@[simp] theorem State.restate_inter (s : State) (l : List (Setting × Nat)) :
    (s.restate l).inter.pto = s.inter.pto ∧ (s.restate l).inter.present = s.inter.present
     ∧ (s.restate l).inter.report = s.inter.report := by
  have hone : ∀ (t : State) (m : Compartment), (t.recompute m).inter.pto = t.inter.pto
      ∧ (t.recompute m).inter.present = t.inter.present ∧ (t.recompute m).inter.report = t.inter.report := fun t m => by
    rcases t.recompute_inter m with h | h <;> simp [h]
  rcases s.restate_eq l with h | h <;> simp [h, State.recomputeBoth, hone]

/-- Of a compartment's record the recomputed status alone may change (R137). -/
theorem State.restate_comp (s : State) (l : List (Setting × Nat)) (m : Compartment) :
    (s.restate l).comps.comp m = { s.comps.comp m with status := ((s.restate l).comps.comp m).status } := by
  rcases s.restate_eq l with h | h <;> rw [h]
  rw [State.recomputeBoth_comp]

/-- The tests for due pack cycles leave the accounts and the arm (R141). -/
theorem State.retest_keeps (s : State) (l : List (Setting × Nat)) :
    KeepsAccounts s (s.retest l) ∧ ∀ k, k.isArm = true → (s.retest l).chans.get k = s.chans.get k := by
  simp only [State.retest]
  split
  · exact s.testDueAll_keeps
  · exact ⟨KeepsAccounts.refl s, fun _ _ => rfl⟩

@[simp] theorem State.retest_frame (s : State) (l : List (Setting × Nat)) :
    (s.retest l).variant = s.variant ∧ (s.retest l).settings = s.settings ∧ (s.retest l).drive = s.drive := by
  simp only [State.retest]
  split <;> simp

@[simp] theorem State.reflow_frame (s : State) (l : List (Setting × Nat)) :
    (s.reflow l).variant = s.variant ∧ (s.reflow l).links = s.links ∧ (s.reflow l).chans = s.chans
     ∧ (s.reflow l).comps = s.comps ∧ (s.reflow l).journal = s.journal ∧ (s.reflow l).inter = s.inter := by
  simp only [State.reflow]
  split <;> simp

/-- After the statuses nothing that PAYLOAD tells changes (R141, R179). -/
theorem State.useSettings_keeps (s : State) (l : List (Setting × Nat)) : KeepsAccounts (s.restate l) (s.useSettings l) := by
  obtain ⟨hkept, -⟩ := (s.restate l).retest_keeps l
  refine hkept.trans ?_
  rw [State.useSettings_eq]
  exact ⟨by simp, fun m => by simp, by simp, by simp, by simp⟩

@[simp] theorem State.useSettings_status (s : State) (l : List (Setting × Nat)) (m : Compartment) :
    ((s.useSettings l).comps.comp m).status = ((s.restate l).comps.comp m).status := by
  obtain ⟨-, -, -, hstatus⟩ := (s.useSettings_keeps l).comps m
  exact hstatus

@[simp] theorem State.useSettings_chassis (s : State) (l : List (Setting × Nat)) :
    (s.useSettings l).links.chassis = (s.restate l).links.chassis :=
  (s.useSettings_keeps l).chassis

/-- Totals and counts stand (R137). -/
@[simp] theorem State.useSettings_totals (s : State) (l : List (Setting × Nat)) (m : Compartment) :
    ((s.useSettings l).comps.comp m).total = (s.comps.comp m).total
     ∧ ((s.useSettings l).comps.comp m).shorts = (s.comps.comp m).shorts
     ∧ ((s.useSettings l).comps.comp m).tips = (s.comps.comp m).tips := by
  obtain ⟨htotal, hshorts, htips, -⟩ := (s.useSettings_keeps l).comps m
  rw [htotal, hshorts, htips, State.restate_comp]
  exact ⟨rfl, rfl, rfl⟩

@[simp] theorem State.useSettings_wholeJournal (s : State) (l : List (Setting × Nat)) :
    (s.useSettings l).journal = s.journal := by
  rw [(s.useSettings_keeps l).journal]
  simp

@[simp] theorem State.useSettings_report (s : State) (l : List (Setting × Nat)) :
    (s.useSettings l).inter.report = s.inter.report := by
  rw [(s.useSettings_keeps l).inter]
  simp

/-- A new limit or full_strokes gives each compartment of the body its status (R137). -/
theorem State.useSettings_status_named (h : NamesOneOf statusSettings l) {m : Compartment} (hm : s.hasComp m = true) :
    ((s.useSettings l).comps.comp m).status = s.restated m := by
  rw [State.useSettings_status, State.restate_named h, State.recomputeBoth_comp, if_pos hm]

/-- Without them the statuses stand (R137). -/
theorem State.useSettings_status_unnamed (h : ∀ k ∈ statusSettings, ∀ v, (k, v) ∉ l) (m : Compartment) :
    ((s.useSettings l).comps.comp m).status = (s.comps.comp m).status := by
  rw [State.useSettings_status, State.restate_unnamed h]

/-- Statuses that stand send nothing (R137, R179). -/
theorem State.useSettings_same (h : ∀ m, ((s.useSettings l).comps.comp m).status = (s.comps.comp m).status) :
    (s.useSettings l).links.chassis = s.links.chassis ∧ (s.useSettings l).inter = s.inter := by
  simp only [State.useSettings_status] at h
  have hsame : s.restate l = s := by
    rcases s.restate_eq l with hr | hr
    · rw [hr] at h ⊢
      exact State.recomputeBoth_same h
    · exact hr
  rw [State.useSettings_chassis, (s.useSettings_keeps l).inter, hsame]
  exact ⟨rfl, rfl⟩

/-- A status that changed was recomputed. -/
theorem State.restate_of_changed {m : Compartment}
    (h : ((s.useSettings l).comps.comp m).status ≠ (s.comps.comp m).status) : s.restate l = s.recomputeBoth := by
  rw [State.useSettings_status] at h
  exact (s.restate_eq l).resolve_right fun hr => h (by rw [hr])

/-- A changed status restarts the payload timer, and where it is the only one sends PAYLOAD once (R137, R179). -/
theorem State.useSettings_changed {m : Compartment}
    (h : ((s.useSettings l).comps.comp m).status ≠ (s.comps.comp m).status) :
    (s.useSettings l).inter = { s.inter with payloadTimer := 500 }
      ∧ ((∀ k, k ≠ m → ((s.useSettings l).comps.comp k).status = (s.comps.comp k).status) →
          SendsPayload s (s.useSettings l) (s.useSettings l).payloadMsg) := by
  have hboth : s.restate l = s.recomputeBoth := State.restate_of_changed h
  rw [SendsPayload, (s.useSettings_keeps l).inter, (s.useSettings_keeps l).payloadMsg, State.useSettings_chassis]
  simp only [State.useSettings_status] at h ⊢
  rw [hboth] at h ⊢
  exact ⟨State.recomputeBoth_inter h, State.recomputeBoth_sends h⟩

/-- Two changed statuses send two PAYLOADs (R137, R179, log 47). -/
theorem State.useSettings_changed_both
    (h : ∀ m, ((s.useSettings l).comps.comp m).status ≠ (s.comps.comp m).status)
    (hbus : s.links.chassis.onBus = true) (hroom : s.links.chassis.tx.length + 2 ≤ 16) :
    (s.useSettings l).links.chassis.tx = s.links.chassis.tx
      ++ [.payload { (s.useSettings l).payloadMsg with statusB := s.payloadMsg.statusB },
          .payload (s.useSettings l).payloadMsg] := by
  have hboth : s.restate l = s.recomputeBoth := State.restate_of_changed (h .a)
  rw [(s.useSettings_keeps l).payloadMsg, State.useSettings_chassis]
  simp only [State.useSettings_status] at h
  rw [hboth] at h ⊢
  exact State.recomputeBoth_sends_two h hbus hroom

/-- A new pack_after starts a pack cycle that is due (R141). -/
theorem State.useSettings_starts {m : Compartment} {a : Nat} (hl : ∃ v, (Setting.packAfter, v) ∈ l)
    (h : s.StartsDue m a) :
    (s.useSettings l).chans.get m.packer = Chan.started .pack a 255
      ∧ ((s.useSettings l).comps.comp m).stage = .sweep ∧ ((s.useSettings l).comps.comp m).stroke = none := by
  have hretest : (s.restate l).retest l = (s.restate l).testDueAll := if_pos (by simpa using hl)
  have hcomp := s.restate_comp l m
  have hdue : (s.restate l).StartsDue m a := h.of_kept (by simp) (by simp) (by simp) (by simp) (by simp) (by simp)
    (by rw [hcomp]) (by rw [hcomp]) (by simp)
  rw [State.useSettings_eq, hretest]
  simpa using hdue.testDueAll

/-- A packer stands where pack_after is not put, or no pack cycle is due (R141). -/
theorem State.useSettings_stands {m : Compartment} (h : (∀ v, (Setting.packAfter, v) ∉ l)
      ∨ (s.comps.comp m).tips < s.settings.inForce.packAfter ∨ (s.comps.comp m).stage ≠ .rest ∨ s.inter.pto = false) :
    (s.useSettings l).chans.get m.packer = s.chans.get m.packer
      ∧ ((s.useSettings l).comps.comp m).stage = (s.comps.comp m).stage
      ∧ ((s.useSettings l).comps.comp m).stroke = (s.comps.comp m).stroke := by
  have hcomp := s.restate_comp l m
  have hretest : ((s.restate l).retest l).chans.get m.packer = (s.restate l).chans.get m.packer
      ∧ ((s.restate l).retest l).comps.comp m = (s.restate l).comps.comp m := by
    simp only [State.retest]
    split
    next hnamed =>
      have hnot := h.resolve_left fun hno => absurd hnamed (by simpa using hno)
      exact State.testDueAll_stands (by rw [hcomp]; simpa using hnot)
    next => exact ⟨rfl, rfl⟩
  obtain ⟨hchan, hkept⟩ := hretest
  rw [State.useSettings_eq]
  simp only [State.reflow_frame, hchan, hkept]
  rw [hcomp]
  simp

/-- The arm's channels stand. -/
theorem State.useSettings_arm (s : State) (l : List (Setting × Nat)) {k : Channel} (hk : k.isArm = true) :
    (s.useSettings l).chans.get k = s.chans.get k := by
  obtain ⟨-, harm⟩ := (s.restate l).retest_keeps l
  rw [State.useSettings_eq]
  simp [harm k hk]

/-- A new idle_rpm or displacement gives Qa (R66). -/
theorem State.useSettings_flow (h : NamesOneOf flowSettings l) :
    (s.useSettings l).drive.qa
        = s.reportedRpm.getD s.settings.inForce.idleRpm * s.settings.inForce.displacement / 100
      ∧ (s.useSettings l).drive.usingIdle = s.reportedRpm.isNone := by
  have hflow : (s.useSettings l) = ((s.restate l).retest l).recomputeQa.refresh :=
    congrArg State.refresh (if_pos (by simpa [NamesOneOf] using h))
  obtain ⟨hkept, -⟩ := (s.restate l).retest_keeps l
  have hrpm : ((s.restate l).retest l).reportedRpm = s.reportedRpm := by simp [State.reportedRpm, hkept.inter]
  have hqa : (s.useSettings l).drive.qa = ((s.restate l).retest l).recomputeQa.drive.qa
      ∧ (s.useSettings l).drive.usingIdle = ((s.restate l).retest l).recomputeQa.drive.usingIdle := by
    rw [hflow]
    exact ⟨rfl, rfl⟩
  obtain ⟨hvalue, hidle⟩ := hqa
  rw [hvalue, hidle]
  simp [State.recomputeQa, hrpm]

/-- Without them Qa stands (R66). -/
theorem State.useSettings_flow_unnamed (h : ∀ k ∈ flowSettings, ∀ v, (k, v) ∉ l) :
    (s.useSettings l).drive.qa = s.drive.qa ∧ (s.useSettings l).drive.usingIdle = s.drive.usingIdle := by
  have hflow : (s.useSettings l) = ((s.restate l).retest l).refresh :=
    congrArg State.refresh (if_neg (by simpa using h))
  have hqa : (s.useSettings l).drive.qa = ((s.restate l).retest l).drive.qa
      ∧ (s.useSettings l).drive.usingIdle = ((s.restate l).retest l).drive.usingIdle := by
    rw [hflow]
    exact ⟨rfl, rfl⟩
  simpa using hqa

/-- What is sent of its own leaves room for the answer (R187). -/
theorem State.useSettings_room (l : List (Setting × Nat)) {q : Port} (h : s.room q = true) :
    (s.useSettings l).room q = true := by
  have hrestate : (s.restate l).room q = true := by
    rcases s.restate_eq l with hr | hr <;> simp [hr, State.recomputeBoth, h]
  have hretest : ((s.restate l).retest l).room q = true := by
    simp only [State.retest]
    split <;> simp [hrestate]
  have hlinks : (s.useSettings l).links = ((s.restate l).retest l).links := by
    rw [State.useSettings_eq]
    simp
  rwa [State.room_of_links hlinks]

end use

/-! ### The requests and the completion (R190, R191) -/

/-- A request of the route terminal comes in on the body link. -/
theorem port_of_routeTerminal {n : Node} (h : (n == .routeTerminal) = true) : n.port = .body := by
  rw [beq_iff_eq.mp h]
  rfl

/-- An accepted SETTING_PUT: applied, taken into use, and answered with the values it gave (R191). -/
theorem State.takeSettingPut_accepted {s : State} {h : Header} {l : List (Byte × BitVec 16)} {pairs : List (Setting × Nat)}
    (hread : s.settings.reading = false) (hl : settingPairs l = some pairs) :
    State.takeSettingPut h l s = ((s.setSettings (s.settings.applied pairs)).useSettings pairs).answer h 25#8
      (if pairs.all (fun e => e.1.clamp e.2 == e.2) then .ok else .clamped)
      (.settings (pairs.map fun e => (e.1, e.1.clamp e.2))) := by
  obtain ⟨⟨-, -, hnumbers, hdistinct, -⟩, rfl⟩ := (settingPairs_eq_some_iff l pairs).mp hl
  have hnodup : ((namedPairs l).map Prod.fst).Nodup := (nodup_namedPairs_iff hnumbers).mpr hdistinct
  have hvalues : (namedPairs l).map (fun e => (e.1, (s.settings.inForce.apply (namedPairs l)).value e.1))
      = (namedPairs l).map fun e => (e.1, e.1.clamp e.2) :=
    List.map_congr_left fun e he => by rw [Settings.apply_value hnodup _ e he]
  have happlied : s.applySettings (namedPairs l)
      = (s.setSettings (s.settings.applied (namedPairs l))).useSettings (namedPairs l) := rfl
  have hforce : ((s.setSettings (s.settings.applied (namedPairs l))).useSettings (namedPairs l)).settings.inForce
      = s.settings.inForce.apply (namedPairs l) := by simp
  simp only [State.takeSettingPut, hread, hl, happlied, hforce, hvalues, Bool.false_eq_true, if_false]
  split <;> rfl

/-- What stands of the accounts while a request of the body link is taken and the settings are replaced. -/
theorem keepsAccounts_popped {h : Header} (hp : h.src.port = .body) (s : State) (b : SettingsBlock) :
    KeepsAccounts s ((s.popped h).setSettings b) where
  variant := by simp
  comps m := by simp
  inter := by simp
  journal := by simp
  chassis := by
    have hport := s.popped_port h .chassis
    rwa [if_neg (by simp [hp])] at hport

/-- An answer on the body link leaves the accounts and the chassis link. -/
theorem keepsAccounts_answer {h : Header} (hp : h.src.port = .body) (s : State) (k : Byte) (c : Code) (d : AnswerData) :
    KeepsAccounts s (s.answer h k c d) where
  variant := by simp
  comps m := by simp
  inter := by simp
  journal := by simp
  chassis := by
    obtain ⟨hother, -⟩ := s.answer_keeps h k c d
    exact hother .chassis (by simp [hp])

/-- What an accepted SETTING_PUT leaves: the settings applied, then taken into use on the state `u` that holds them, and the
answer (R190, R191). -/
structure PutsSettings (s u t : State) (h : Header) (pairs : List (Setting × Nat)) : Prop where
  settings : t.settings = s.settings.applied pairs
  before : KeepsAccounts s u
  held : u.settings.inForce = t.settings.inForce ∧ u.comps = s.comps ∧ u.chans = s.chans ∧ u.drive = s.drive
    ∧ u.shadow = s.shadow
  used : t.comps = (u.useSettings pairs).comps ∧ t.chans = (u.useSettings pairs).chans
    ∧ t.drive = (u.useSettings pairs).drive
  after : KeepsAccounts (u.useSettings pairs) t
  blocks : t.store = s.store ∧ t.shadow = s.shadow ∧ t.lock = s.lock ∧ t.houses = s.houses
    ∧ t.inter.report = s.inter.report ∧ t.lcc = s.lcc ∧ t.weigh = s.weigh ∧ t.journal = s.journal
  answered : Answers s t h 25#8 (if pairs.all (fun e => e.1.clamp e.2 == e.2) then .ok else .clamped)
    (.settings (pairs.map fun e => (e.1, e.1.clamp e.2)))

/-- An accepted SETTING_PUT that came in on the body link (R190, R191). -/
theorem State.takeSettingPut_puts {s : State} {h : Header} {l : List (Byte × BitVec 16)} {pairs : List (Setting × Nat)}
    (hp : h.src.port = .body) (hread : s.settings.reading = false) (hl : settingPairs l = some pairs) :
    ∃ u, PutsSettings s u (State.takeSettingPut h l (s.popped h)) h pairs := by
  rw [State.takeSettingPut_accepted (by simpa using hread) hl]
  refine ⟨(s.popped h).setSettings ((s.popped h).settings.applied pairs), by simp, keepsAccounts_popped hp s _, by simp,
    by simp, keepsAccounts_answer hp _ _ _ _, by simp, fun hroom => ?_⟩
  exact State.answer_last _ _ _ _ _ (by simp [hp]) le_rfl (State.useSettings_room _ (by simpa using hroom))

/-- SETTING_GET answers one setting, all of them, or MALFORMED (R191). -/
theorem State.takeSettingGet_eq {s : State} (hread : s.settings.reading = false) (h : Header) (b : Byte) :
    (∀ k, b ≠ 255#8 → settingOf b = some k → State.takeSettingGet h b s = s.answer h 26#8 .ok
        (.settingsAll [(k, s.settings.inForce.value k)] s.settings.origin s.settings.write.isSome))
      ∧ (b = 255#8 → State.takeSettingGet h b s = s.answer h 26#8 .ok
        (.settingsAll (allSettings.map fun k => (k, s.settings.inForce.value k)) s.settings.origin
          s.settings.write.isSome))
      ∧ (b ≠ 255#8 → settingOf b = none → State.takeSettingGet h b s = s.answer h 26#8 .malformed .empty) := by
  refine ⟨fun k hb hk => ?_, fun hb => ?_, fun hb hk => ?_⟩
  · simp [State.takeSettingGet, hread, hb, hk]
  · simp [State.takeSettingGet, hread, hb]
  · simp [State.takeSettingGet, hread, hb, hk]

/-- The block with its write completed, before another starts (R190). -/
def SettingsBlock.written (x : SettingsBlock) (w : SettingsWrite) : SettingsBlock :=
  { x with write := none, generation := w.generation, holder := some x.target,
           cells := x.cells.putSide x.target ⟨w.settings.values, w.generation, true⟩ }

/-- A settings write completed: its generation is the one in force, and its cell holds it; another write starts where the block
was made dirty meanwhile (R190). -/
theorem SettingsBlock.finishWrite_spec (x : SettingsBlock) (w : SettingsWrite) :
    (x.finishWrite w).generation = w.generation ∧ (x.finishWrite w).inForce = x.inForce
      ∧ (x.dirty = false → (x.finishWrite w).write = none
          ∧ (x.finishWrite w).cells.side x.target = ⟨w.settings.values, w.generation, true⟩
          ∧ (x.finishWrite w).cells.side x.target.other = x.cells.side x.target.other)
      ∧ (x.dirty = true → w.generation < 4294967294 →
          (x.finishWrite w).write = some ⟨x.inForce, w.generation + 1⟩) := by
  have hfinish : x.finishWrite w = (x.written w).startWrite := rfl
  rw [hfinish]
  refine ⟨by simp [SettingsBlock.written], by simp [SettingsBlock.written], fun hd => ?_, fun hd hg => ?_⟩
  · rw [SettingsBlock.startWrite_waits (x := x.written w) (.inl hd)]
    exact ⟨rfl, Two.side_putSide_same .., Two.side_putSide_other _ _ _ _ (by cases x.target <;> decide)⟩
  · exact (SettingsBlock.startWrite_starts (x := x.written w) hd rfl hg).1

/-- Settles O39: the list by `settingPairs_eq_some_iff`, the put by `takeSettingPut_accepted` and the laws of `useSettings`, the
get by `takeSettingGet_eq`, the completion by `finishWrite_spec`. -/
theorem settingsPutGetAndWritten : Obligations.SettingsPutGetAndWritten := by
  unfold Obligations.SettingsPutGetAndWritten
  refine ⟨fun l => ⟨?listed, fun pairs hl => ?named⟩, fun s h => ⟨fun l ht => ?put, fun b ht => ?get, fun hw => ?idle,
    fun w hw => ?written⟩⟩
  case listed =>
    rw [Option.isSome_iff_exists]
    exact ⟨fun ⟨pairs, hp⟩ => ((settingPairs_eq_some_iff l pairs).mp hp).1,
      fun hok => ⟨_, (settingPairs_eq_some_iff l _).mpr ⟨hok, rfl⟩⟩⟩
  case named =>
    obtain ⟨⟨-, -, hnumbers, -⟩, rfl⟩ := (settingPairs_eq_some_iff l pairs).mp hl
    exact map_namedPairs hnumbers
  case put =>
    have hp : h.src.port = .body := port_of_routeTerminal ht.2
    refine ⟨State.takeSettingPut h l (s.popped h), congrArg Host.Outcome.next (State.request_taken s h _ l _ ht),
      fun hread => answered_without_effect hp (fun _ => rfl) (by simp [State.takeSettingPut, hread]),
      fun hread hl => answered_without_effect hp (fun _ => rfl) (by simp [State.takeSettingPut, hread, hl]),
      fun pairs hread hl => ?_⟩
    obtain ⟨⟨-, -, hnumbers, hdistinct, -⟩, rfl⟩ := (settingPairs_eq_some_iff l pairs).mp hl
    have hnodup : ((namedPairs l).map Prod.fst).Nodup := (nodup_namedPairs_iff hnumbers).mpr hdistinct
    obtain ⟨u, hput⟩ := State.takeSettingPut_puts hp hread hl
    generalize State.takeSettingPut h l (s.popped h) = t at hput ⊢
    obtain ⟨hsettings, hfrom, ⟨huforce, hucomps, huchans, hudrive, hushadow⟩, ⟨hcomps, hchans, hdrive⟩, hto,
      ⟨hstore, hshadow, hlock, hhouses, hreport, hlcc, hweigh, hjournal⟩, hanswered⟩ := hput
    have hforce : t.settings.inForce = s.settings.inForce.apply (namedPairs l) := by
      rw [hsettings, SettingsBlock.applied_inForce]
    refine ⟨fun k v hkv => ?value, fun k hk => ?other, fun hw hg => ?starts, fun hw => ?waits, hstore, hshadow, hlock,
      hhouses, hreport, hlcc, hweigh, hjournal, fun m => ?totals, fun hn m hm => ?restated, fun hn m => ?standing,
      fun hsame => ?quiet, fun m hne => ?told, fun hne hbus hroom => ?toldTwice,
      fun hn m a hm hdue hrest hpto hready hscan hentry hidle hfree => ?packs, fun m hno => ?packersStand,
      fun k hk => ?arm, fun hn => ?flow, fun hn => ?flowStands, hanswered⟩
    case value => rw [hforce]; exact Settings.apply_value hnodup _ (k, v) hkv
    case other =>
      rw [hforce]
      refine Settings.apply_value_other ?_ _
      rintro e he rfl
      exact hk e.2 he
    case starts =>
      rw [hsettings]
      exact SettingsBlock.applied_starts _ hw hg
    case waits =>
      rw [hsettings]
      exact SettingsBlock.applied_waits _ hw
    case totals => rw [hcomps, ← hucomps]; simp
    case restated =>
      rw [hcomps, State.useSettings_status_named hn (by rwa [State.hasComp, hfrom.variant]), State.restated, hucomps, huforce]
    case standing => rw [hcomps, State.useSettings_status_unnamed hn, hucomps]
    case quiet =>
      rw [hto.chassis, hto.inter, ← hfrom.chassis, ← hfrom.inter]
      exact State.useSettings_same fun m => by rw [← hcomps, hucomps]; exact hsame m
    case told =>
      rw [SendsPayload, hto.chassis, hto.inter, hto.payloadMsg, ← hfrom.chassis, ← hfrom.inter]
      rw [hcomps, ← hucomps] at hne
      rw [hcomps, ← hucomps]
      exact State.useSettings_changed hne
    case toldTwice =>
      rw [hto.chassis, hto.payloadMsg, ← hfrom.chassis, ← hfrom.payloadMsg]
      rw [← hfrom.chassis] at hbus hroom
      exact State.useSettings_changed_both (fun m => by rw [← hcomps, hucomps]; exact hne m) hbus hroom
    case packs =>
      rw [hchans, hcomps]
      exact State.useSettings_starts hn ⟨by rwa [State.hasComp, hfrom.variant], by rwa [huforce, hucomps], by rwa [hucomps],
        by rwa [hfrom.inter], by rwa [hushadow], by rwa [hfrom.journal], by rwa [State.packEntry_congr hushadow],
        by rwa [huchans], by rwa [hudrive]⟩
    case packersStand =>
      rw [hchans, hcomps, ← huchans, ← hucomps]
      exact State.useSettings_stands (by rwa [huforce, hucomps, hfrom.inter])
    case arm => rw [hchans, State.useSettings_arm _ _ hk, huchans]
    case flow =>
      obtain ⟨hqa, hidle⟩ := State.useSettings_flow (s := u) hn
      rw [hdrive, hqa, hidle, huforce, State.reportedRpm, hfrom.inter]
      exact ⟨fun n hpresent hrpm => by simp [hpresent, hrpm], fun hnone => by rcases hnone with h | h <;> simp [h]⟩
    case flowStands =>
      rw [hdrive, ← hudrive]
      exact State.useSettings_flow_unnamed hn
  case get =>
    have hp : h.src.port = .body := port_of_routeTerminal ht.2
    refine ⟨State.takeSettingGet h b (s.popped h), congrArg Host.Outcome.next (State.request_taken s h _ b _ ht),
      by simp [State.core_eq_iff],
      fun hread => ?busy, fun hread hb => ?one, fun hread hb => ?all, fun hread hb hne => ?none⟩
    case busy => exact (answered_without_effect hp (fun _ => rfl) (by simp [State.takeSettingGet, hread])).2
    all_goals obtain ⟨hone, hall, hnone⟩ := State.takeSettingGet_eq (s := s.popped h) (by simpa using hread) h b
    case one =>
      obtain ⟨k, hk⟩ := Option.isSome_iff_exists.mp ((settingOf_isSome b).mpr hb)
      refine ⟨k, hk, (answered_without_effect hp (fun _ => rfl) ?_).2⟩
      simpa using hone k (by rintro rfl; cases hk) hk
    case all => exact (answered_without_effect hp (fun _ => rfl) (by simpa using hall hb)).2
    case none =>
      have hk : settingOf b = none := by
        rw [← Option.not_isSome_iff_eq_none, settingOf_isSome]
        omega
      exact (answered_without_effect hp (fun _ => rfl) (hnone hne hk)).2
  case idle =>
    refine congrArg Host.Outcome.next ?_
    rw [hw]
  case written =>
    obtain ⟨hgen, hforce, hclean, hdirty⟩ := SettingsBlock.finishWrite_spec s.settings w
    refine ⟨s.setSettings (s.settings.finishWrite w), congrArg Host.Outcome.next (by rw [hw]), hgen, hforce, hclean, hdirty, rfl⟩

end Sys2Proof.Machine

namespace Sys2Proof.Machine

/-! ## Queues and lists within their capacities (R80, R82, R114, R119, R182) -/

/-! ### The ports (R182, R187) -/

/-- A port's two queues are within their capacities (R182). -/
def PortState.Bounded (x : PortState) : Prop := x.rx.length ≤ Config.rxCapacity ∧ x.tx.length ≤ Config.txCapacity

/-- The queues of every port are within their capacities. -/
def Links.Bounded (x : Links) : Prop := x.body.Bounded ∧ x.chassis.Bounded ∧ x.service.Bounded

theorem State.links_bounded_iff (s : State) : s.links.Bounded ↔ ∀ p, (s.port p).Bounded :=
  ⟨fun ⟨hbody, hchassis, hservice⟩ p => by cases p <;> assumption, fun h => ⟨h .body, h .chassis, h .service⟩⟩

/-- One port replaced by a port within its capacities. -/
theorem State.setPort_bounded {s : State} {p : Port} {x : PortState} (h : s.links.Bounded) (hx : x.Bounded) :
    (s.setPort p x).links.Bounded := by
  rw [State.links_bounded_iff] at h ⊢
  intro q
  rw [State.port_setPort]
  split
  · exact hx
  · exact h q

/-- One port replaced by a port that is within its capacities where the old one was. -/
theorem State.setPort_bounded_iff {s : State} {p : Port} {x : PortState} (h : x.Bounded ↔ (s.port p).Bounded) :
    (s.setPort p x).links.Bounded ↔ s.links.Bounded := by
  refine ⟨fun hp => ?_, fun hs => State.setPort_bounded hs (h.mpr ((State.links_bounded_iff s).mp hs p))⟩
  rw [← State.setPort_self s p, ← State.setPort_setPort s p x]
  exact State.setPort_bounded hp (h.mp (by simpa using (State.links_bounded_iff _).mp hp p))

/-- Another transmit queue that fits where the old one does. -/
theorem PortState.setTx_bounded {x : PortState} {l : List TxMsg}
    (h : l.length ≤ Config.txCapacity ↔ x.tx.length ≤ Config.txCapacity) : { x with tx := l }.Bounded ↔ x.Bounded :=
  and_congr_right' h

theorem queueUnasked_length_iff (tx : List TxMsg) (m : TxMsg) :
    (queueUnasked tx m).length ≤ Config.txCapacity ↔ tx.length ≤ Config.txCapacity := by
  refine ⟨fun h => ?_, queueUnasked_length tx m⟩
  unfold queueUnasked at h
  split at h
  · omega
  · exact h

theorem queueAnswer_length_iff (tx : List TxMsg) (m : TxMsg) :
    (queueAnswer tx m).length ≤ Config.txCapacity ↔ tx.length ≤ Config.txCapacity := by
  refine ⟨fun h => ?_, queueAnswer_length tx m⟩
  unfold queueAnswer at h
  split at h
  · omega
  · split at h
    next r hr =>
      have hdropped : r.length + 1 = tx.length := dropOldest_length tx r hr
      rw [List.length_append, List.length_singleton] at h
      omega
    next => exact h

theorem queueParts_length_iff (tx : List TxMsg) (h : Header) (k : Byte) (c : Code) (d : AnswerData) (n : Nat) :
    (queueParts tx h k c d n).length ≤ Config.txCapacity ↔ tx.length ≤ Config.txCapacity := by
  unfold queueParts
  split
  · exact queueAnswer_length_iff _ _
  · split
    next hfits => simpa [answerParts, hfits] using by omega
    next => exact queueAnswer_length_iff _ _

/-- A message that the part sends, asked or unasked, goes into a queue only where it has room (R187). -/
@[simp] theorem State.answer_bounded (s : State) (h : Header) (k : Byte) (c : Code) (d : AnswerData) :
    (s.answer h k c d).links.Bounded ↔ s.links.Bounded := by
  rcases State.answer_eq s h k c d with e | ⟨-, -, e⟩ <;> rw [e]
  exact State.setPort_bounded_iff (PortState.setTx_bounded (queueParts_length_iff ..))

@[simp] theorem State.indicate_bounded (s : State) (i : Indication) : (s.indicate i).links.Bounded ↔ s.links.Bounded := by
  rw [State.indicate_eq]
  split
  · exact State.setPort_bounded_iff (PortState.setTx_bounded (queueUnasked_length_iff ..))
  · rfl

@[simp] theorem State.sendPayload_bounded (s : State) (m : PayloadMsg) :
    (s.sendPayload m).links.Bounded ↔ s.links.Bounded := by
  rw [State.sendPayload_eq]
  split
  · exact State.setPort_bounded_iff (PortState.setTx_bounded (queueUnasked_length_iff ..))
  · rfl

@[simp] theorem State.refuse_bounded (s : State) (h : Header) (r : Request) (c : Code) :
    (s.refuse h r c).links.Bounded ↔ s.links.Bounded := by
  unfold State.refuse
  split <;> simp

/-- The pending list has no bearing on the queues (R182). -/
@[simp] theorem State.defer_bounded (s : State) (h : Header) (k : Byte) :
    (s.defer h k).links.Bounded ↔ s.links.Bounded :=
  State.setPort_bounded_iff Iff.rfl

@[simp] theorem State.answerDeferred_bounded (s : State) (p : Port) (k : Byte) (c : Code) (d : AnswerData) :
    (s.answerDeferred p k c d).links.Bounded ↔ s.links.Bounded := by
  unfold State.answerDeferred
  dsimp only
  split
  · rfl
  · rw [State.answer_bounded]
    exact State.setPort_bounded_iff Iff.rfl

/-- A frame joins a receive queue only where it has room (R182). -/
@[simp] theorem State.arrive_bounded (s : State) (h : Header) (r : Request) :
    (s.arrive h r).links.Bounded ↔ s.links.Bounded := by
  unfold State.arrive
  dsimp only
  split
  · split
    next hroom =>
      refine State.setPort_bounded_iff (and_congr_left' ?_)
      simpa [hroom.le] using hroom
    next => split <;> simp
  · rfl

@[simp] theorem State.setPartial_bounded (s : State) (l : Line) (x : List Byte) :
    (s.setPartial l x).links.Bounded ↔ s.links.Bounded := by
  cases l <;> exact Iff.rfl

@[simp] theorem State.popped_bounded {s : State} (hs : s.links.Bounded) (h : Header) : (s.popped h).links.Bounded := by
  obtain ⟨hrx, htx⟩ := (State.links_bounded_iff s).mp hs h.src.port
  exact State.setPort_bounded hs ⟨by simpa using by omega, htx⟩

@[simp] theorem State.messageSent_bounded {s : State} (hs : s.links.Bounded) (p : Port) :
    (s.messageSent p).links.Bounded := by
  obtain ⟨hrx, htx⟩ := (State.links_bounded_iff s).mp hs p
  unfold State.messageSent
  dsimp only
  split
  next m rest hm =>
    rw [hm, List.length_cons] at htx
    split
    · exact State.setPort_bounded hs ⟨hrx, by dsimp only; omega⟩
    · exact hs
  next => exact hs

@[simp] theorem State.linkReset_bounded {s : State} (hs : s.links.Bounded) (p : Port) : (s.linkReset p).links.Bounded := by
  have hreset : (s.setPort p (s.port p).linkReset).links.Bounded :=
    State.setPort_bounded hs ⟨by simp [PortState.linkReset], by simp [PortState.linkReset]⟩
  unfold State.linkReset
  cases p <;> simpa using hreset

/-- What the shared operations tell, they tell by messages of the kinds above. -/
@[simp] theorem State.alert_bounded (s : State) (a : Alert) : (s.alert a).links.Bounded ↔ s.links.Bounded := by
  simp [State.alert]
@[simp] theorem State.sendPhase_bounded (s : State) : s.sendPhase.links.Bounded ↔ s.links.Bounded := by
  simp [State.sendPhase]
@[simp] theorem State.emitPayload_bounded (s : State) : s.emitPayload.links.Bounded ↔ s.links.Bounded := by
  simp [State.emitPayload]
@[simp] theorem State.raiseAlarm_bounded (s : State) : s.raiseAlarm.links.Bounded ↔ s.links.Bounded := by
  simp only [State.raiseAlarm]; (repeat' split) <;> simp
@[simp] theorem State.testSnapshot_bounded (s : State) : s.testSnapshot.links.Bounded ↔ s.links.Bounded := by
  simp only [State.testSnapshot]; (repeat' split) <;> simp
@[simp] theorem State.clearSnapshot_bounded (s : State) : s.clearSnapshot.links.Bounded ↔ s.links.Bounded := by
  simp only [State.clearSnapshot]; (repeat' split) <;> simp
@[simp] theorem State.watchInput_bounded (s : State) (w : WatchedInput) (v : Bool) :
    (s.watchInput w v).links.Bounded ↔ s.links.Bounded := by
  simp only [State.watchInput]; (repeat' split) <;> simp
@[simp] theorem State.testLow_bounded (s : State) : s.testLow.links.Bounded ↔ s.links.Bounded := by
  simp only [State.testLow]; (repeat' split) <;> simp
@[simp] theorem State.grant_bounded (s : State) : s.grant.links.Bounded ↔ s.links.Bounded := by simp [State.grant]
@[simp] theorem State.stage_bounded (s : State) (r : Record) : (s.stage r).links.Bounded ↔ s.links.Bounded := by
  simp [State.stage]
@[simp] theorem State.handOver_bounded (s : State) (c : Compartment) (x : Comp) :
    (s.handOver c x).links.Bounded ↔ s.links.Bounded := by
  simp only [State.handOver]; (repeat' split) <;> simp
@[simp] theorem State.recompute_bounded (s : State) (c : Compartment) :
    (s.recompute c).links.Bounded ↔ s.links.Bounded := by
  simp only [State.recompute]; (repeat' split) <;> simp
@[simp] theorem State.contribute_bounded (s : State) (c : Compartment) (n : Nat) :
    (s.contribute c n).links.Bounded ↔ s.links.Bounded := by simp [State.contribute]
@[simp] theorem State.packRetract_bounded (s : State) (c : Compartment) :
    (s.packRetract c).links.Bounded ↔ s.links.Bounded := by simp [State.packRetract]
@[simp] theorem State.stageUnload_bounded (s : State) (c : Compartment) :
    (s.stageUnload c).links.Bounded ↔ s.links.Bounded := by simp [State.stageUnload]
@[simp] theorem State.settleEject_bounded (s : State) (c : Compartment) (t : Bool) (g : Stage) (o : EjectOutcome) :
    (s.settleEject c t g o).links.Bounded ↔ s.links.Bounded := by
  simp only [State.settleEject]; (repeat' split) <;> simp
@[simp] theorem State.packFault_bounded (s : State) (c : Compartment) (f : FaultAt) :
    (s.packFault c f).links.Bounded ↔ s.links.Bounded := by
  simp only [State.packFault]; (repeat' split) <;> simp
@[simp] theorem State.reportPackStart_bounded (s : State) (c : Compartment) :
    (s.reportPackStart c).links.Bounded ↔ s.links.Bounded := by
  simp only [State.reportPackStart]; (repeat' split) <;> simp
@[simp] theorem State.startPack_bounded (s : State) (c : Compartment) (a : Nat) :
    (s.startPack c a).links.Bounded ↔ s.links.Bounded := by
  simp only [State.startPack]; (repeat' split) <;> simp
@[simp] theorem State.testDue_bounded (s : State) (c : Compartment) : (s.testDue c).links.Bounded ↔ s.links.Bounded := by
  simp only [State.testDue]; (repeat' split) <;> simp
@[simp] theorem State.testDueAll_bounded (s : State) : s.testDueAll.links.Bounded ↔ s.links.Bounded := by
  simp [State.testDueAll]
@[simp] theorem State.tip_bounded (s : State) (c : Compartment) : (s.tip c).links.Bounded ↔ s.links.Bounded := by
  simp [State.tip]
@[simp] theorem State.packEnd_bounded (s : State) (c : Compartment) (o : Origin) :
    (s.packEnd c o).links.Bounded ↔ s.links.Bounded := by
  cases o <;> simp [State.packEnd]
@[simp] theorem State.startEject_bounded (s : State) (c : Compartment) (a : Nat) :
    (s.startEject c a).links.Bounded ↔ s.links.Bounded := by
  simp only [State.startEject]; (repeat' split) <;> simp
@[simp] theorem State.useSettings_bounded (s : State) (l : List (Setting × Nat)) :
    (s.useSettings l).links.Bounded ↔ s.links.Bounded := by
  simp only [State.useSettings]; (repeat' split) <;> simp
@[simp] theorem State.removeCause_bounded (s : State) (c : InterlockCause) :
    (s.removeCause c).links.Bounded ↔ s.links.Bounded := by
  simp only [State.removeCause]; (repeat' split) <;> simp
@[simp] theorem State.renewPermit_bounded (s : State) : s.renewPermit.links.Bounded ↔ s.links.Bounded := by
  simp only [State.renewPermit]; (repeat' split) <;> simp
@[simp] theorem State.startPhase_bounded (s : State) (x : LiftCtx) (p : ProfilePhase) :
    (s.startPhase x p).links.Bounded ↔ s.links.Bounded := by simp [State.startPhase]
@[simp] theorem State.stageLift_bounded (s : State) (x : LiftCtx) :
    (s.stageLift x).links.Bounded ↔ s.links.Bounded := by
  simp only [State.stageLift]; (repeat' split) <;> simp
@[simp] theorem State.stageRefused_bounded (s : State) (x : LiftCtx) :
    (s.stageRefused x).links.Bounded ↔ s.links.Bounded := by simp [State.stageRefused]
@[simp] theorem State.stageAborted_bounded (s : State) (x : LiftCtx) :
    (s.stageAborted x).links.Bounded ↔ s.links.Bounded := by simp [State.stageAborted]

end Sys2Proof.Machine

namespace Sys2Proof.Machine

/-! ### The lists of weighing, of the lock and of the tag window (R80, R82, R114, R119) -/

/-- The settle list is within its capacity, and the accumulator short of a block (R80, R82). -/
def Weigh.Bounded (x : Weigh) : Prop := x.settle.length ≤ Config.settleCapacity ∧ x.acc.count < 8

/-- The outcome list drops its oldest entry for a new one when it is full (R114). -/
theorem appendOutcome_length {l : List WindowOutcome} (h : l.length ≤ Config.outcomeCapacity) (o : WindowOutcome) :
    (appendOutcome l o).length ≤ Config.outcomeCapacity := by
  unfold appendOutcome Config.outcomeCapacity at *
  split <;> simp <;> omega

theorem Weigh.closed_bounded {x : Weigh} (h : x.Bounded) : x.closed.Bounded := ⟨Nat.zero_le _, h.2⟩

/-- A pin, and a bill, change the entries of the table alone (R129, R132). -/
@[simp] theorem Houses.pin_tagList (x : Houses) (tag : TagId) (v : Bool) : (x.pin tag v).tagList = x.tagList := rfl
@[simp] theorem Houses.update_tagList (x : Houses) (tag : TagId) (f : Entry → Entry) :
    (x.update tag f).tagList = x.tagList := rfl
@[simp] theorem State.closeTags_tagList (s : State) : s.closeTags.houses.tagList = s.houses.tagList := by
  simp [State.closeTags]
@[simp] theorem State.dropTags_tagList (s : State) : s.dropTags.houses.tagList = s.houses.tagList := rfl
@[simp] theorem State.takeDecision_tagList (s : State) (x : LiftCtx) :
    (s.takeDecision x).houses.tagList = s.houses.tagList := by
  simp only [State.takeDecision]
  split <;> simp
@[simp] theorem State.stageLift_tagList (s : State) (x : LiftCtx) :
    (s.stageLift x).houses.tagList = s.houses.tagList := by
  simp only [State.stageLift]
  split <;> simp

/-! ### What a command leaves of the bounds -/

/-- Queues and lists that are within their capacities stay within them; the tracked zero and what bounds it stand, and before
the metrology items are read the engine is not enabled. -/
structure KeepsBounds (s t : State) : Prop where
  ports : s.links.Bounded → t.links.Bounded
  lists : s.weigh.Bounded → t.weigh.Bounded
  outcomes : s.lock.outcomes.length ≤ Config.outcomeCapacity → t.lock.outcomes.length ≤ Config.outcomeCapacity
  tags : s.houses.tagList.length ≤ Config.tagListCapacity → t.houses.tagList.length ≤ Config.tagListCapacity
  zt : t.weigh.zt = s.weigh.zt
  params : t.lock.working = s.lock.working ∧ t.lock.reference = s.lock.reference ∧ t.lock.write = s.lock.write
  reading : t.lock.reading = s.lock.reading
  enabled : s.lock.reading = true → t.weigh.enabled = s.weigh.enabled

/-- Two states that agree on everything bounded, but for messages queued where there is room. -/
@[simp] def SameBounds (s t : State) : Prop :=
  (s.links.Bounded → t.links.Bounded) ∧ t.weigh = s.weigh ∧ t.lock = s.lock ∧ t.houses.tagList = s.houses.tagList

theorem SameBounds.keeps {s t : State} (h : SameBounds s t) : KeepsBounds s t := by
  obtain ⟨hports, hweigh, hlock, htags⟩ := h
  exact ⟨hports, by simp [hweigh], by simp [hlock], by simp [htags], by simp [hweigh], by simp [hlock], by simp [hlock],
    by simp [hweigh]⟩

theorem KeepsBounds.refl (s : State) : KeepsBounds s s := SameBounds.keeps (by simp)

theorem KeepsBounds.trans {s t u : State} (h : KeepsBounds s t) (k : KeepsBounds t u) : KeepsBounds s u where
  ports hs := k.ports (h.ports hs)
  lists hs := k.lists (h.lists hs)
  outcomes hs := k.outcomes (h.outcomes hs)
  tags hs := k.tags (h.tags hs)
  zt := k.zt.trans h.zt
  params := by
    obtain ⟨hworking, hreference, hwrite⟩ := h.params
    rw [← hworking, ← hreference, ← hwrite]
    exact k.params
  reading := k.reading.trans h.reading
  enabled hs := (k.enabled (h.reading.trans hs)).trans (h.enabled hs)

/-- What is kept after a change of no bound. -/
theorem KeepsBounds.before {s t u : State} (h : KeepsBounds t u) (hs : SameBounds s t) : KeepsBounds s u := hs.keeps.trans h

/-- What is kept before a change of no bound. -/
theorem KeepsBounds.after {s t u : State} (h : KeepsBounds s t) (hu : SameBounds t u) : KeepsBounds s u := h.trans hu.keeps

theorem KeepsBounds.refresh {s t : State} (h : KeepsBounds s t) : KeepsBounds s t.refresh := h.after (by simp)
theorem KeepsBounds.recomputeQa {s t : State} (h : KeepsBounds s t) : KeepsBounds s t.recomputeQa := h.after (by simp)
theorem KeepsBounds.alert {s t : State} (h : KeepsBounds s t) (a : Alert) : KeepsBounds s (t.alert a) := h.after (by simp)
theorem KeepsBounds.mapPackers {s t : State} (h : KeepsBounds s t) (w : Origin → Bool) (f : Chan → Chan) :
    KeepsBounds s (t.mapPackers w f) := h.after (by simp)
theorem KeepsBounds.answer {s t : State} (h : KeepsBounds s t) (d : Header) (k : Byte) (c : Code) (x : AnswerData) :
    KeepsBounds s (t.answer d k c x) := h.after (by simp)
theorem KeepsBounds.answerDeferred {s t : State} (h : KeepsBounds s t) (p : Port) (k : Byte) (c : Code) (x : AnswerData) :
    KeepsBounds s (t.answerDeferred p k c x) := h.after (by simp)

theorem KeepsBounds.ite {c : Prop} [Decidable c] {s t u : State} (ht : KeepsBounds s t) (hu : KeepsBounds s u) :
    KeepsBounds s (if c then t else u) := by
  split
  · exact ht
  · exact hu

/-- The queues by their blocks. -/
theorem queuesBounded_iff (s : State) : QueuesBounded s ↔ s.links.Bounded ∧ s.weigh.Bounded
    ∧ s.lock.outcomes.length ≤ Config.outcomeCapacity ∧ s.houses.tagList.length ≤ Config.tagListCapacity := by
  rw [State.links_bounded_iff]
  unfold QueuesBounded PortState.Bounded Weigh.Bounded
  tauto

theorem KeepsBounds.queues {s t : State} (h : KeepsBounds s t) (hs : QueuesBounded s) : QueuesBounded t := by
  rw [queuesBounded_iff] at hs ⊢
  obtain ⟨hports, hlists, houtcomes, htags⟩ := hs
  exact ⟨h.ports hports, h.lists hlists, h.outcomes houtcomes, h.tags htags⟩

theorem KeepsBounds.zero {s t : State} (h : KeepsBounds s t) (hs : ZeroBounded s) : ZeroBounded t := by
  obtain ⟨hzt, hworking, hreference, hwrite, hunread⟩ := hs
  obtain ⟨hw, hr, hm⟩ := h.params
  refine ⟨by rwa [h.zt, hw], by rwa [hw], by rwa [hr], by rwa [hm], fun hread => ?_⟩
  rw [h.reading] at hread
  obtain ⟨hnull, hdisabled⟩ := hunread hread
  exact ⟨h.zt.trans hnull, (h.enabled hread).trans hdisabled⟩

/-! ### Weigh windows and the engine (R81 to R86, R96) -/

theorem State.dropWindow_keepsBounds (s : State) : KeepsBounds s s.dropWindow :=
  ⟨id, Weigh.closed_bounded, id, id, rfl, ⟨rfl, rfl, rfl⟩, rfl, fun _ => rfl⟩

/-- The engine with its settle list and its accumulator emptied (R86, R96). -/
theorem keepsBounds_emptied {s : State} {x : Weigh} (hsettle : x.settle = []) (hacc : x.acc = Accumulator.cleared)
    (hzt : x.zt = s.weigh.zt) (henabled : s.lock.reading = true → x.enabled = s.weigh.enabled) :
    KeepsBounds s (s.setWeigh x) :=
  ⟨id, fun _ => by simp [Weigh.Bounded, hsettle, hacc, Accumulator.cleared], id, id, hzt, ⟨rfl, rfl, rfl⟩, rfl,
    henabled⟩

theorem State.weighHalt_keepsBounds (s : State) : KeepsBounds s s.weighHalt := by
  unfold State.weighHalt
  exact .ite (.refl s) (keepsBounds_emptied rfl rfl rfl fun _ => rfl)

theorem State.weighResume_keepsBounds (s : State) : KeepsBounds s s.weighResume :=
  keepsBounds_emptied rfl rfl rfl fun _ => rfl

theorem State.openWindow_keepsBounds (s : State) (k : WindowKind) : KeepsBounds s (s.openWindow k) := by
  unfold State.openWindow
  exact .ite (keepsBounds_emptied rfl rfl rfl fun _ => rfl) (SameBounds.keeps (by simp))

/-- The engine is enabled only once the metrology items are read (R96). -/
theorem State.testEnable_keepsBounds (s : State) : KeepsBounds s s.testEnable := by
  unfold State.testEnable
  split
  next h => exact keepsBounds_emptied rfl rfl rfl fun hread => by simp [hread] at h
  next => exact .refl s

theorem State.noteOutcome_keepsBounds (s : State) (o : WindowOutcome) : KeepsBounds s (s.noteOutcome o) :=
  ⟨id, id, fun h => appendOutcome_length h o, id, rfl, ⟨rfl, rfl, rfl⟩, rfl, fun _ => rfl⟩

theorem State.closeWindow_keepsBounds (s : State) : KeepsBounds s s.closeWindow := by
  have hclosed : KeepsBounds s (s.setWeigh s.weigh.closed) := s.dropWindow_keepsBounds
  unfold State.closeWindow
  split
  · exact .refl s
  · dsimp only
    split
    · exact hclosed
    all_goals exact (hclosed.after (by simp)).trans (State.noteOutcome_keepsBounds _ _)

/-! ### A lift and the motion of its channels (R7 to R47) -/

theorem State.enterStuck_keepsBounds (s : State) : KeepsBounds s s.enterStuck := by
  have hdropped : KeepsBounds s (s.mapChans s.lcc.started Chan.stop).dropWindow :=
    (State.dropWindow_keepsBounds _).before (by simp)
  exact hdropped.after (by simp [State.enterStuck])

theorem State.halt_keepsBounds (s : State) (p : ProfilePhase) (c : Causes) (f : Six (Option FaultKind)) :
    KeepsBounds s (s.halt p c f) := by
  have hheld : KeepsBounds s (s.mapChans s.lcc.started Chan.pause).weighHalt :=
    (State.weighHalt_keepsBounds _).before (by simp)
  exact hheld.after (by simp [State.halt])

theorem State.addCause_keepsBounds (s : State) (c : InterlockCause) : KeepsBounds s (s.addCause c) := by
  unfold State.addCause
  split
  · exact s.halt_keepsBounds _ _ _
  · exact .ite (.refl s) (SameBounds.keeps (by simp))
  all_goals exact .refl s

theorem State.cycleFault_keepsBounds (s : State) (c : Channel) (k : FaultKind) : KeepsBounds s (s.cycleFault c k) := by
  unfold State.cycleFault
  split
  · exact s.enterStuck_keepsBounds
  · exact s.halt_keepsBounds _ _ _
  · exact .ite s.enterStuck_keepsBounds (SameBounds.keeps (by simp))
  all_goals exact .refl s

theorem State.reportStarts_keepsBounds (s : State) (l : List Channel) : KeepsBounds s (s.reportStarts l) := by
  unfold State.reportStarts
  induction l generalizing s with
  | nil => exact .refl s
  | cons c r ih =>
    rw [List.foldl_cons]
    refine KeepsBounds.trans ?_ (ih _)
    split
    · exact s.cycleFault_keepsBounds c _
    · exact .refl s

theorem State.recomputeSpeed_keepsBounds (s : State) (first : Bool) : KeepsBounds s (s.recomputeSpeed first) := by
  have hcaused : KeepsBounds s ((s.setInter { s.inter with speedOver := s.inter.isOver }).addCause .speed) :=
    (State.addCause_keepsBounds _ _).before (by simp)
  unfold State.recomputeSpeed
  dsimp only
  split
  · exact hcaused.after (by simp)
  · exact SameBounds.keeps (by simp)
  · exact .ite (SameBounds.keeps (by simp)) (SameBounds.keeps (by simp))
  · exact SameBounds.keeps (by simp)

/-- After a lift's record is staged: its pin and its context given up, and the engine enabled where it may be (R14, R96). -/
theorem SameBounds.staged {s t : State} (h : SameBounds s t) (o : Option TagId) :
    KeepsBounds s (((match o with
      | some tag => t.setHouses (t.houses.pin tag false)
      | none => t).dropTags.setLcc Lcc.reset).sendPhase.testEnable.testSnapshot) := by
  have htail : ∀ u : State, SameBounds s u →
      KeepsBounds s ((u.dropTags.setLcc Lcc.reset).sendPhase.testEnable.testSnapshot) := fun u hu => by
    have henabled : KeepsBounds s (u.dropTags.setLcc Lcc.reset).sendPhase.testEnable :=
      (State.testEnable_keepsBounds _).before (by simpa using hu)
    exact henabled.after (by simp)
  cases o with
  | none => exact htail t h
  | some tag => exact htail _ (by simpa using h)

theorem State.stageCycle_keepsBounds (s : State) : KeepsBounds s s.stageCycle := by
  unfold State.stageCycle
  split
  · exact .refl s
  · exact SameBounds.staged (by split <;> simp) _

theorem State.endPhase_keepsBounds (s : State) (p : ProfilePhase) : KeepsBounds s (s.endPhase p).1 := by
  have hclosed : KeepsBounds s s.closeWindow := s.closeWindow_keepsBounds
  unfold State.endPhase
  dsimp only
  split
  case h_1 => split <;> split <;> exact hclosed.after (by simp)
  case h_7 | h_8 => exact hclosed.trans (State.stageCycle_keepsBounds _)
  all_goals exact hclosed

theorem State.enterPhases_keepsBounds (n : Nat) (s : State) (p : ProfilePhase) :
    KeepsBounds s (State.enterPhases n s p) := by
  induction n generalizing s p with
  | zero => exact .refl s
  | succ n ih =>
    unfold State.enterPhases
    split
    next => exact .refl s
    next x _ =>
      have hstarted : KeepsBounds s (s.startPhase x p) := SameBounds.keeps (by simp)
      have hended : KeepsBounds s ((s.startPhase x p).endPhase p).1 := hstarted.trans (State.endPhase_keepsBounds _ _)
      dsimp only
      split
      · split <;> rename_i hres <;> rw [hres] at hended
        · exact hended.trans (ih _ _)
        · exact hended
      · exact hstarted.trans (State.reportStarts_keepsBounds _ _)

theorem State.enterPhase_keepsBounds (s : State) (p : ProfilePhase) : KeepsBounds s (s.enterPhase p) :=
  State.enterPhases_keepsBounds 8 s p

theorem State.cycleEnd_keepsBounds (s : State) : KeepsBounds s s.cycleEnd := by
  unfold State.cycleEnd
  split
  next p _ =>
    have hended : KeepsBounds s (s.endPhase p).1 := s.endPhase_keepsBounds p
    refine .ite ?_ (.refl s)
    split <;> rename_i hres <;> rw [hres] at hended
    · exact hended.trans (State.enterPhase_keepsBounds _ _)
    · exact hended
  all_goals exact .refl s

theorem State.failChan_keepsBounds (s : State) (c : Channel) (k : FaultKind) (a : Nat) :
    KeepsBounds s (s.failChan c k a) := by
  unfold State.failChan
  dsimp only
  split
  case h_3 | h_4 =>
    split
    · exact (State.cycleFault_keepsBounds _ c k).before (by simp)
    all_goals exact SameBounds.keeps (by simp)
  all_goals exact .refl s

theorem State.endChan_keepsBounds (s : State) (c : Channel) : KeepsBounds s (s.endChan c) := by
  unfold State.endChan
  dsimp only
  split
  · exact (State.cycleEnd_keepsBounds _).before (by simp)
  all_goals exact SameBounds.keeps (by simp)

theorem State.advance_keepsBounds (s : State) (c : Channel) : KeepsBounds s (s.advance c).1 := by
  unfold State.advance
  dsimp only
  split
  · exact SameBounds.keeps (by simp)
  · exact s.failChan_keepsBounds c _ _

theorem State.completeElement_keepsBounds (s : State) (c : Channel) (u : Int) : KeepsBounds s (s.completeElement c u) :=
  (State.advance_keepsBounds _ c).before (by simp)

theorem State.rampStep_keepsBounds (s : State) (c : Channel) (u0 t : Int) (k n : Nat) :
    KeepsBounds s (s.rampStep c u0 t k n) :=
  .ite (SameBounds.keeps (by simp)) (s.completeElement_keepsBounds c _)

theorem State.deltaAt_keepsBounds (s : State) (c : Channel) (d : Int) (e k : Nat) : KeepsBounds s (s.deltaAt c d e k) :=
  .ite (SameBounds.keeps (by simp)) (s.completeElement_keepsBounds c _)

theorem State.holdStep_keepsBounds (s : State) (c : Channel) (n : Nat) : KeepsBounds s (s.holdStep c n) :=
  .ite (SameBounds.keeps (by simp)) (s.completeElement_keepsBounds c _)

theorem State.passAwait_keepsBounds (s : State) (c : Channel) : KeepsBounds s (s.passAwait c).1 :=
  (State.advance_keepsBounds _ c).before (by simp)

theorem State.countAwait_keepsBounds (s : State) (c : Channel) : KeepsBounds s (s.countAwait c) := by
  unfold State.countAwait
  dsimp only
  split
  · exact .refl s
  · exact .ite ((State.failChan_keepsBounds _ c _ _).before (by simp)) (SameBounds.keeps (by simp))

theorem State.openMark_keepsBounds {s t : State} {k : WindowKind} {o : Option Origin} (h : s.openMark k o = some t) :
    KeepsBounds s t := by
  unfold State.openMark at h
  split at h <;> cases h
  exact s.openWindow_keepsBounds k

theorem State.closeMark_keepsBounds {s t : State} {k : WindowKind} {o : Option Origin} (h : s.closeMark k o = some t) :
    KeepsBounds s t := by
  unfold State.closeMark at h
  (repeat' split at h) <;> cases h
  · exact s.closeWindow_keepsBounds
  · exact .refl s

/-- A packer's mark changes its compartment (R143). -/
theorem State.packMark_keepsBounds {s t : State} {c : Channel} {o : Option Origin} {f : State → Compartment → State}
    (hf : ∀ m, SameBounds s (f s m)) (h : s.packMark c o f = some t) : KeepsBounds s t := by
  unfold State.packMark at h
  split at h <;> cases h
  exact (hf _).keeps

/-- A mark that is taken opens or closes a weigh window, or changes no bound (R40). -/
theorem State.deliver_keepsBounds {s t : State} {c : Channel} {code : Nat} (hd : s.deliver c code = some t) :
    KeepsBounds s t := by
  unfold State.deliver at hd
  dsimp only at hd
  split at hd
  case h_3 | h_5 | h_7 => exact State.openMark_keepsBounds hd
  case h_4 | h_6 | h_8 => exact State.closeMark_keepsBounds hd
  case h_10 | h_11 | h_12 =>
    exact State.packMark_keepsBounds (fun m => by simp [State.packSweep, State.packCompress]) hd
  case h_1 | h_2 | h_9 | h_13 =>
    simp only [State.tagOpenMark, State.tagCloseMark, State.tipMark, State.ejectMark] at hd
    split at hd <;> cases hd
    exact SameBounds.keeps (by simp)
  case h_14 => cases hd

/-- The elements that one expiry reaches (R31). -/
theorem State.reach_keepsBounds (n : Nat) (s : State) (c : Channel) : KeepsBounds s (s.reach n c) := by
  induction n generalizing s with
  | zero => exact .refl s
  | succ n ih =>
    have hnext : ∀ u : State, KeepsBounds u (if (u.advance c).2 then State.reach n (u.advance c).1 c else (u.advance c).1) :=
      fun u => .ite ((u.advance_keepsBounds c).trans (ih _)) (u.advance_keepsBounds c)
    unfold State.reach
    dsimp only
    split
    · exact s.failChan_keepsBounds c _ _
    split
    · exact s.failChan_keepsBounds c _ _
    split
    case h_1 => exact s.completeElement_keepsBounds c _
    case h_2 => exact s.rampStep_keepsBounds c _ _ _ _
    case h_3 => exact s.deltaAt_keepsBounds c _ _ _
    case h_4 => exact s.holdStep_keepsBounds c _
    case h_5 => exact (hnext _).before (by simp)
    case h_6 =>
      split
      next hd => exact (State.deliver_keepsBounds hd).trans ((hnext _).before (by simp))
      next => exact s.failChan_keepsBounds c _ _
    case h_7 => exact .ite ((hnext _).before (by simp)) (SameBounds.keeps (by simp))
    case h_8 => exact s.endChan_keepsBounds c
    case h_9 => exact s.failChan_keepsBounds c _ _

theorem State.continueElement_keepsBounds (s : State) (c : Channel) (r : Chan) :
    KeepsBounds s (s.continueElement c r) := by
  unfold State.continueElement
  split
  case h_1 => exact s.rampStep_keepsBounds c _ _ _ _
  case h_2 | h_3 | h_4 => exact s.deltaAt_keepsBounds c _ _ _
  case h_5 => exact s.holdStep_keepsBounds c _
  case h_6 =>
    have hpassed : KeepsBounds s (s.passAwait c).1 := s.passAwait_keepsBounds c
    refine .ite ?_ (s.countAwait_keepsBounds c)
    split <;> rename_i hres <;> rw [hres] at hpassed
    · exact hpassed.trans (State.reach_keepsBounds _ _ c)
    · exact hpassed
  case h_7 => exact s.reach_keepsBounds _ c

theorem State.expire_keepsBounds (s : State) (c : Channel) : KeepsBounds s (s.expire c) := by
  unfold State.expire
  dsimp only
  split
  · exact s.continueElement_keepsBounds c _
  all_goals exact .refl s

theorem State.coilFault_keepsBounds (s : State) (c : Channel) (l : Latch) : KeepsBounds s (s.coilFault c l) := by
  have hfailed : KeepsBounds s ((s.setLatch c l).failChan c .coil (s.chans.get c).pointer) :=
    (State.failChan_keepsBounds _ c _ _).before (by simp)
  exact .ite (.refl s) (hfailed.after (by simp))

/-! ### The owners of requests, and the Interlocks' events (R4 to R6, R18 to R24, R173 to R177) -/

theorem State.acceptLift_keepsBounds (s : State) (st : Stream) (slot creep : Nat) :
    KeepsBounds s (s.acceptLift st slot creep) := by
  refine KeepsBounds.trans ?_ (State.enterPhase_keepsBounds _ _)
  refine { SameBounds.keeps (s := s) (t := s.grant) (by simp) with tags := fun _ => ?_ }
  simp [Houses.emptyTags]

theorem State.takeLift_keepsBounds (h : Header) (f : LiftFields) (s : State) : KeepsBounds s (State.takeLift h f s) := by
  have hanswered : ∀ c d, KeepsBounds s (s.answer h 1#8 c d) := fun _ _ => SameBounds.keeps (by simp)
  unfold State.takeLift
  split
  · exact hanswered _ _
  next st slot creep clamped _ =>
    have haccepted : KeepsBounds s (s.acceptLift st slot creep) := s.acceptLift_keepsBounds st slot creep
    refine .ite (hanswered _ _) ?_
    split
    · exact hanswered _ _
    · exact .ite (haccepted.after (by simp)) (haccepted.after (by simp))

theorem State.resumeCycle_keepsBounds (s : State) (p : ProfilePhase) : KeepsBounds s (s.resumeCycle p) := by
  have hresumed : KeepsBounds s s.weighResume := s.weighResume_keepsBounds
  exact .ite (hresumed.trans (State.enterPhase_keepsBounds _ _)) (hresumed.after (by simp))

theorem State.takeResume_keepsBounds (h : Header) (s : State) : KeepsBounds s (s.takeResume h) := by
  unfold State.takeResume
  split
  next p _ _ => exact .ite ((s.resumeCycle_keepsBounds p).after (by simp)) (SameBounds.keeps (by simp))
  next => exact SameBounds.keeps (by simp)

theorem State.abandon_keepsBounds (s : State) : KeepsBounds s s.abandon := by
  have hdropped : KeepsBounds s (s.mapChans s.lcc.started Chan.stop).dropWindow :=
    (State.dropWindow_keepsBounds _).before (by simp)
  exact hdropped.after (by simp [State.abandon])

theorem State.enterRecover_keepsBounds (s : State) (f : Bool) : KeepsBounds s (s.enterRecover f) :=
  .ite (s.enterPhase_keepsBounds _) (.ite (SameBounds.keeps (by simp)) (SameBounds.keeps (by simp)))

theorem State.takeAbort_keepsBounds (h : Header) (s : State) : KeepsBounds s (s.takeAbort h) := by
  have hgiven : KeepsBounds s ((s.enterStuck.refresh).answer h 4#8 .ok .empty) := s.enterStuck_keepsBounds.after (by simp)
  have habandoned : KeepsBounds s (((s.abandon).answer h 4#8 .ok .empty).enterRecover s.lcc.causes.fault).refresh :=
    ((s.abandon_keepsBounds.answer _ _ _ _).trans (State.enterRecover_keepsBounds _ _)).refresh
  unfold State.takeAbort
  dsimp only
  split
  case h_3 => exact hgiven
  case h_4 => exact habandoned
  case h_5 => exact .ite hgiven habandoned
  all_goals exact SameBounds.keeps (by simp)

theorem State.takeCycleClear_keepsBounds (h : Header) (s : State) : KeepsBounds s (s.takeCycleClear h) := by
  have hstaged : KeepsBounds s (s.mapCtx fun x => { x with path := .aborted, manualRecovery := true }).stageCycle :=
    (State.stageCycle_keepsBounds _).before (by simp)
  exact .ite (hstaged.after (by simp)) (SameBounds.keeps (by simp))

theorem State.takeChassis_keepsBounds (f : ChassisFields) (s : State) : KeepsBounds s (State.takeChassis f s) :=
  ((State.recomputeSpeed_keepsBounds _ _).before (by simp)).recomputeQa.refresh

theorem State.chassisSilent_keepsBounds (s : State) : KeepsBounds s s.chassisSilent :=
  (((State.recomputeSpeed_keepsBounds _ _).before (by simp)).alert _).refresh

theorem State.expirePermit_keepsBounds (s : State) : KeepsBounds s s.expirePermit :=
  (((State.addCause_keepsBounds _ _).before (by simp)).mapPackers _ _).refresh

theorem State.changePto_keepsBounds (s : State) (on : Bool) : KeepsBounds s (s.changePto on) :=
  .ite (SameBounds.keeps (by simp)) (((State.addCause_keepsBounds _ _).before (by simp)).mapPackers _ _).refresh

end Sys2Proof.Machine

namespace Sys2Proof.Machine

/-- Each of the two bounds holds after a command that met it. -/
def BoundsHold (s t : State) : Prop := (ZeroBounded s → ZeroBounded t) ∧ (QueuesBounded s → QueuesBounded t)

theorem KeepsBounds.hold {s t : State} (h : KeepsBounds s t) : BoundsHold s t := ⟨h.zero, h.queues⟩

theorem BoundsHold.refl (s : State) : BoundsHold s s := ⟨id, id⟩

theorem BoundsHold.trans {s t u : State} (h : BoundsHold s t) (k : BoundsHold t u) : BoundsHold s u :=
  ⟨k.1 ∘ h.1, k.2 ∘ h.2⟩

theorem BoundsHold.ite {c : Prop} [Decidable c] {s t u : State} (ht : BoundsHold s t) (hu : BoundsHold s u) :
    BoundsHold s (if c then t else u) := by
  split
  · exact ht
  · exact hu

theorem BoundsHold.answer {s t : State} (h : BoundsHold s t) (d : Header) (k : Byte) (c : Code) (x : AnswerData) :
    BoundsHold s (t.answer d k c x) := h.trans ((KeepsBounds.refl t).answer d k c x).hold

theorem BoundsHold.answerDeferred {s t : State} (h : BoundsHold s t) (p : Port) (k : Byte) (c : Code) (x : AnswerData) :
    BoundsHold s (t.answerDeferred p k c x) := h.trans ((KeepsBounds.refl t).answerDeferred p k c x).hold

theorem BoundsHold.defer {s t : State} (h : BoundsHold s t) (d : Header) (k : Byte) : BoundsHold s (t.defer d k) :=
  h.trans (SameBounds.keeps (by simp)).hold

/-- An answer alone. -/
theorem answer_hold (s : State) (d : Header) (k : Byte) (c : Code) (x : AnswerData) : BoundsHold s (s.answer d k c x) :=
  (BoundsHold.refl s).answer d k c x

/-! ### The Metrology Lock (R102 to R111) -/

/-- The lock changed but for the outcome list and the working set; a reference set that changes is the one of a commit write,
and a commit write that is started is of the working set (R108). -/
def Lock.KeepsParams (x y : Lock) : Prop :=
  y.outcomes = x.outcomes ∧ y.reading = x.reading ∧ y.working = x.working
    ∧ (y.reference = x.reference ∨ ∃ c m, x.write = some (.commit y.reference c m))
    ∧ ∀ p c m, y.write = some (.commit p c m) → x.write = some (.commit p c m) ∨ p = x.working

theorem Lock.KeepsParams.hold {s : State} {x : Lock} (h : s.lock.KeepsParams x) : BoundsHold s (s.setLock x) := by
  obtain ⟨houtcomes, hreading, hworking, hreference, hwrite⟩ := h
  refine ⟨fun ⟨hzt, hw, hr, hm, hunread⟩ => ⟨?_, ?_, ?_, fun p c m hp => ?_, ?_⟩, fun hs => ?_⟩
  · rwa [State.setLock_lock, hworking]
  · rwa [State.setLock_lock, hworking]
  · rw [State.setLock_lock]
    rcases hreference with heq | ⟨c, m, hcommit⟩
    · rwa [heq]
    · exact hm _ c m hcommit
  · rcases hwrite p c m hp with hold | rfl
    · exact hm p c m hold
    · exact hw
  · rwa [State.setLock_lock, hreading]
  · rw [queuesBounded_iff] at hs ⊢
    simpa [houtcomes] using hs

/-- A request to the lock reaches it only once its items are read (R101). -/
theorem State.lockRequest_hold {s t : State} (h : Header) (k : Byte) (ht : s.lock.reading = false → BoundsHold s t) :
    BoundsHold s (s.lockRequest h k t) := by
  unfold State.lockRequest
  split
  · exact answer_hold s _ _ _ _
  next hread => exact ht (by simpa using hread)

theorem State.openRequest_hold {s t : State} (h : Header) (k : Byte) (ht : s.lock.reading = false → BoundsHold s t) :
    BoundsHold s (s.openRequest h k t) := by
  refine s.lockRequest_hold h k fun hread => ?_
  split
  · exact answer_hold s _ _ _ _
  · exact ht hread

theorem State.unlessWriting_hold {s t : State} (h : Header) (k : Byte) (ht : BoundsHold s t) :
    BoundsHold s (s.unlessWriting h k t) := .ite (answer_hold s _ _ _ _) ht

theorem State.takeFreeze_hold (h : Header) (s : State) : BoundsHold s (s.takeFreeze h) := by
  refine s.lockRequest_hold h _ fun _ => ?_
  split
  · exact answer_hold s _ _ _ _
  all_goals exact (Lock.KeepsParams.hold (by simp +contextual [Lock.KeepsParams])).answer _ _ _ _

/-- A maker open at MAXIMUM starts a maker write, which is no commit (R104, R109). -/
theorem Lock.opens_keepsParams (x : Lock) (i : Identity) : x.KeepsParams (x.opens i) := by
  unfold Lock.opens
  dsimp only
  split <;> simp +contextual [Lock.KeepsParams]

theorem State.takeOpen_hold (h : Header) (f : OpenLockFields) (s : State) : BoundsHold s (State.takeOpen h f s) := by
  have hanswered : ∀ c, BoundsHold s (s.answer h 32#8 c .empty) := fun _ => answer_hold s _ _ _ _
  refine s.lockRequest_hold h _ fun _ => ?_
  split
  · exact hanswered _
  split
  · exact hanswered _
  · exact hanswered _
  next i _ _ _ =>
    have hfailed : s.lock.KeepsParams s.lock.failAttempt := by simp +contextual [Lock.KeepsParams, Lock.failAttempt]
    refine .ite (hanswered _) (.ite (hanswered _) (.ite (hanswered _) (.ite ?_ ?_)))
    · exact (s.lock.opens_keepsParams i).hold.answer _ _ _ _
    · exact hfailed.hold.answer _ _ _ _

theorem State.takeClose_hold (h : Header) (s : State) : BoundsHold s (s.takeClose h) := by
  have hanswered : ∀ c, BoundsHold s (s.answer h 33#8 c .empty) := fun _ => answer_hold s _ _ _ _
  refine s.lockRequest_hold h _ fun _ => .ite (hanswered _) (s.unlessWriting_hold h _ (.ite (hanswered _) ?_))
  split
  case h_1 | h_2 => exact (Lock.KeepsParams.hold (by simp +contextual [Lock.KeepsParams])).answer _ _ _ _
  case h_3 => exact (Lock.KeepsParams.hold (by simp [Lock.KeepsParams, Lock.eraseBlockCheck])).defer _ _

theorem State.takeSetCode_hold (h : Header) (f : SetCodeFields) (s : State) : BoundsHold s (State.takeSetCode h f s) := by
  refine s.lockRequest_hold h _ fun _ => ?_
  split
  · exact answer_hold s _ _ _ _
  · refine .ite (answer_hold s _ _ _ _) (s.openRequest_hold h _ fun _ => s.unlessWriting_hold h _ ?_)
    exact (Lock.KeepsParams.hold (by simp [Lock.KeepsParams, Lock.eraseCodeCheck])).defer _ _

/-- A commit write is of the working set (R108). -/
theorem State.startCommit_hold (s : State) (check : Word32) : BoundsHold s (s.startCommit check) :=
  Lock.KeepsParams.hold (by simp +contextual [Lock.KeepsParams, Lock.eraseBlockCheck, eq_comm])

theorem State.takeCommit_hold (h : Header) (s : State) : BoundsHold s (s.takeCommit h) := by
  have hanswered : ∀ c, BoundsHold s (s.answer h 37#8 c .empty) := fun _ => answer_hold s _ _ _ _
  have hgranted : BoundsHold s s.grant := (SameBounds.keeps (by simp)).hold
  refine s.openRequest_hold h _ fun _ => s.unlessWriting_hold h _ (.ite (hanswered _) ?_)
  split
  · exact .ite (hanswered _) (.ite ((hgranted.trans (State.startCommit_hold _ _)).defer _ _) (hanswered _))
  · exact hanswered _

/-- The completion of a commit write makes its set the reference set (R108). -/
theorem State.finishCommit_hold (s : State) : BoundsHold s s.finishCommit := by
  unfold State.finishCommit
  split
  next p check mask hw =>
    have hcommitted : BoundsHold s (s.setLock (s.lock.committed p check)) :=
      Lock.KeepsParams.hold ⟨rfl, rfl, rfl, .inr ⟨check, mask, hw⟩, fun _ _ _ h => nomatch h⟩
    refine ((hcommitted.trans ?_).trans (State.testEnable_keepsBounds _).hold).answerDeferred _ _ _ _
    exact (SameBounds.keeps (by simp)).hold
  next => exact .refl s

/-! ### The tracked zero (R87, R88, R116) -/

/-- A zero brought to the zero range is within it (R88). -/
theorem natAbs_boundZero_le {m : Int} (hm : 0 ≤ m) (z : Int) : ((boundZero m z).natAbs : Int) ≤ zeroRange m := by
  have hrange : 0 ≤ zeroRange m := Int.tdiv_nonneg (by omega) (by decide)
  unfold boundZero clampTo
  split_ifs <;> omega

/-- Zt moved, within the zero range, once the metrology items are read. -/
theorem ZeroBounded.setWeigh {s : State} {x : Weigh} (hs : ZeroBounded s) (hread : s.lock.reading = false)
    (hzt : (x.zt.natAbs : Int) ≤ zeroRange s.lock.working.max) : ZeroBounded (s.setWeigh x) := by
  obtain ⟨-, hw, hr, hm, -⟩ := hs
  exact ⟨hzt, hw, hr, hm, fun h => by simp [hread] at h⟩

/-- The lists and the accumulator left as they are. -/
theorem QueuesBounded.setWeigh {s : State} {x : Weigh} (hs : QueuesBounded s) (hx : x.Bounded) :
    QueuesBounded (s.setWeigh x) := by
  rw [queuesBounded_iff] at hs ⊢
  obtain ⟨hports, -, hrest⟩ := hs
  exact ⟨hports, hx, hrest⟩

theorem QueuesBounded.weigh {s : State} (hs : QueuesBounded s) : s.weigh.Bounded := ((queuesBounded_iff s).mp hs).2.1

/-- ZERO_HEALTH has no bearing on the bounds. -/
theorem setZeroHealth_hold (s : State) (z : ZeroHealth) : BoundsHold s (s.setLock { s.lock with zero := z }) :=
  Lock.KeepsParams.hold (by simp +contextual [Lock.KeepsParams])

theorem State.zeroByHand_hold {s : State} (hread : s.lock.reading = false) (point : Int) :
    BoundsHold s (s.zeroByHand point) := by
  have hzero : BoundsHold s (s.setWeigh { s.weigh with zt := boundZero s.lock.working.max point }) :=
    ⟨fun hs => hs.setWeigh hread (natAbs_boundZero_le hs.2.1 point), fun hs => hs.setWeigh hs.weigh⟩
  exact hzero.trans (setZeroHealth_hold _ _)

/-- Another working set; a new Max bounds Zt (R88). -/
theorem State.setWorking_hold {s : State} {p : Params} (hread : s.lock.reading = false)
    (hp : ZeroBounded s → 0 ≤ p.max) : BoundsHold s (s.setWorking p) := by
  unfold State.setWorking
  dsimp only
  refine ⟨fun hs => ?_, fun hs => ?_⟩
  · have hmax : 0 ≤ p.max := hp hs
    obtain ⟨hzt, hw, hr, hm, -⟩ := hs
    split
    next heq => exact ⟨by simpa [heq] using hzt, hmax, hr, hm, by simp [hread]⟩
    next => exact ⟨natAbs_boundZero_le hmax _, hmax, hr, hm, by simp [hread]⟩
  · have hlock : QueuesBounded (s.setLock { s.lock with working := p }) := by
      rw [queuesBounded_iff] at hs ⊢
      exact hs
    split
    · exact hlock
    · exact hlock.setWeigh hs.weigh

/-- A well-formed parameter set has no negative Max (R100). -/
theorem Params.max_nonneg_of_inRange {p : Params} (h : p.inRange = true) : 0 ≤ p.max := by
  simp only [Params.inRange, within, Bool.and_eq_true, Bool.or_eq_true, decide_eq_true_eq, beq_iff_eq] at h
  omega

theorem State.takeTrialSet_hold (h : Header) (l : List (Byte × Word32)) (s : State) :
    BoundsHold s (State.takeTrialSet h l s) := by
  refine s.openRequest_hold h _ fun hread => s.unlessWriting_hold h _ ?_
  split
  · exact answer_hold s _ _ _ _
  · dsimp only
    split
    next hrange => exact (State.setWorking_hold hread fun _ => Params.max_nonneg_of_inRange hrange).answer _ _ _ _
    next => exact answer_hold s _ _ _ _

theorem State.takeTrialDiscard_hold (h : Header) (s : State) : BoundsHold s (s.takeTrialDiscard h) := by
  refine s.openRequest_hold h _ fun hread => s.unlessWriting_hold h _ ?_
  exact (State.setWorking_hold hread fun hs => hs.2.2.1).answer _ _ _ _

theorem State.takeServiceZero_hold (h : Header) (s : State) : BoundsHold s (s.takeServiceZero h) := by
  refine s.openRequest_hold h _ fun hread => ?_
  split
  · exact answer_hold s _ _ _ _
  · exact (State.zeroByHand_hold hread _).answer _ _ _ _

/-! ### Sample pairs (R77 to R87) -/

/-- The settle list drops its oldest entry for a new one when it is full (R82). -/
theorem appendSettle_length {l : List Block} (h : l.length ≤ Config.settleCapacity) (b : Block) :
    (appendSettle l b).length ≤ Config.settleCapacity := by
  unfold appendSettle Config.settleCapacity at *
  split <;> simp <;> omega

/-- An engine that is enabled has its metrology items read (R96). -/
theorem ZeroBounded.read {s : State} (hs : ZeroBounded s) (henabled : s.weigh.enabled = true) :
    s.lock.reading = false := by
  obtain ⟨-, -, -, -, hunread⟩ := hs
  by_contra hread
  obtain ⟨-, hdisabled⟩ := hunread (by simpa using hread)
  rw [henabled] at hdisabled
  cases hdisabled

/-- A residual is in band only where the zero it gives is within the zero range (R87). -/
theorem zero_in_range_of_inBand {p : Params} {zt r : Int} (h : zeroOutcome p zt r = .inBand) :
    ((zt + r).natAbs : Int) ≤ zeroRange p.max := by
  unfold zeroOutcome at h
  split at h
  · split at h
    · assumption
    · cases h
  · cases h

/-- Zero tracking follows a residual in band only (R87). -/
theorem State.takeZero_hold {s : State} (henabled : s.weigh.enabled = true) (w : Window) (r : Int) :
    BoundsHold s (s.takeZero w r) := by
  have hzero : BoundsHold s (s.setWeigh { s.weigh with
      zt := if zeroOutcome s.lock.working s.weigh.zt r = .inBand then s.weigh.zt + r else s.weigh.zt
      residual := some r }) := by
    refine ⟨fun hs => hs.setWeigh (hs.read henabled) ?_, fun hs => hs.setWeigh hs.weigh⟩
    dsimp only
    split
    next hband => exact zero_in_range_of_inBand hband
    next => exact hs.1
  exact .ite (.refl s) (hzero.trans (setZeroHealth_hold _ _))

theorem State.handCapture_hold {s : State} (henabled : s.weigh.enabled = true) (w : Window) (c : Capture) :
    BoundsHold s (s.handCapture w c) := by
  have hctx : ∀ f, BoundsHold s (s.mapCtx f) := fun _ => (SameBounds.keeps (by simp)).hold
  unfold State.handCapture
  split
  · exact State.takeZero_hold henabled w _
  · exact (hctx _).trans (Lock.KeepsParams.hold (by simp +contextual [Lock.KeepsParams]))
  · exact hctx _

/-- The engine changed but for Zt and its state, within the lists' capacities. -/
theorem setWeigh_hold {s : State} {x : Weigh} (hzt : x.zt = s.weigh.zt) (henabled : x.enabled = s.weigh.enabled)
    (hx : s.weigh.Bounded → x.Bounded) : BoundsHold s (s.setWeigh x) :=
  KeepsBounds.hold ⟨id, hx, id, id, hzt, ⟨rfl, rfl, rfl⟩, rfl, fun _ => henabled⟩

theorem State.blockArrival_hold {s : State} (henabled : s.weigh.enabled = true) (b : Block) :
    BoundsHold s (s.blockArrival b) := by
  have harrived : ∀ w, BoundsHold s (s.setWeigh
      { s.weigh with latestBlock := some b, settle := appendSettle s.weigh.settle b, window := w }) := fun _ =>
    setWeigh_hold rfl rfl fun h => ⟨appendSettle_length h.1 b, h.2⟩
  have hlatest : BoundsHold s (s.setWeigh { s.weigh with latestBlock := some b }) := setWeigh_hold rfl rfl id
  unfold State.blockArrival
  dsimp only
  split
  · split
    · split
      · exact (harrived _).trans (State.handCapture_hold (by simpa [Weigh.weighedPair] using henabled) _ _)
      · exact harrived _
    · exact hlatest
  · exact hlatest

/-- A pair worked: the accumulator is short of a block after it, or is cleared (R80). -/
theorem State.workPair_hold {s : State} (henabled : s.weigh.enabled = true) (cA cB : BitVec 24) :
    BoundsHold s (s.workPair cA cB) := by
  unfold State.workPair
  dsimp only
  split
  · exact setWeigh_hold rfl rfl fun _ => ⟨Nat.zero_le _, Nat.zero_lt_succ 7⟩
  next mA mB v _ =>
    split
    next hshort => exact setWeigh_hold rfl rfl fun h => ⟨h.1, hshort⟩
    next =>
      have hcleared : BoundsHold s (s.setWeigh { s.weigh.weighedPair mA mB v
          (s.weigh.reading.tilted s.lock.working.tilt) with acc := Accumulator.cleared }) :=
        setWeigh_hold rfl rfl fun h => ⟨h.1, Nat.zero_lt_succ 7⟩
      exact hcleared.trans (State.blockArrival_hold (by simpa [Weigh.weighedPair] using henabled) _)

end Sys2Proof.Machine

namespace Sys2Proof.Machine

/-! ### What the other owners, completions and events leave of the bounds -/

@[simp] theorem State.takePack_bounded (h : Header) (b : Byte) (s : State) :
    (State.takePack h b s).links.Bounded ↔ s.links.Bounded := by
  simp only [State.takePack]; (repeat' split) <;> simp
@[simp] theorem State.takeUnload_bounded (h : Header) (b : Byte) (s : State) :
    (State.takeUnload h b s).links.Bounded ↔ s.links.Bounded := by
  simp only [State.takeUnload]; (repeat' split) <;> simp
@[simp] theorem State.takeAbortUnload_bounded (h : Header) (b : Byte) (s : State) :
    (State.takeAbortUnload h b s).links.Bounded ↔ s.links.Bounded := by
  simp only [State.takeAbortUnload]; (repeat' split) <;> simp
@[simp] theorem State.takeFaultClear_bounded (h : Header) (b : Byte) (s : State) :
    (State.takeFaultClear h b s).links.Bounded ↔ s.links.Bounded := by
  simp only [State.takeFaultClear]; (repeat' split) <;> simp
@[simp] theorem State.takeStatus_bounded (h : Header) (b : Byte) (s : State) :
    (State.takeStatus h b s).links.Bounded ↔ s.links.Bounded := by
  simp only [State.takeStatus]; (repeat' split) <;> simp
@[simp] theorem State.readRecord_bounded (h : Header) (n : Nat) (s : State) :
    (State.readRecord h n s).links.Bounded ↔ s.links.Bounded := by
  simp only [State.readRecord]; (repeat' split) <;> simp
@[simp] theorem State.takeJournalRead_bounded (h : Header) (f : JournalReadFields) (s : State) :
    (State.takeJournalRead h f s).links.Bounded ↔ s.links.Bounded := by
  simp only [State.takeJournalRead]; (repeat' split) <;> simp
@[simp] theorem State.takeJournalRelease_bounded (h : Header) (w : Word32) (s : State) :
    (State.takeJournalRelease h w s).links.Bounded ↔ s.links.Bounded := by
  simp only [State.takeJournalRelease, State.startRelease]; (repeat' split) <;> simp
@[simp] theorem State.takeEntryPut_bounded (h : Header) (f : EntryFields) (s : State) :
    (State.takeEntryPut h f s).links.Bounded ↔ s.links.Bounded := by
  simp only [State.takeEntryPut]; (repeat' split) <;> simp
@[simp] theorem State.takeEntryDrop_bounded (h : Header) (tag : TagId) (s : State) :
    (State.takeEntryDrop h tag s).links.Bounded ↔ s.links.Bounded := by
  simp only [State.takeEntryDrop]; (repeat' split) <;> simp
@[simp] theorem State.takeEntryGet_bounded (h : Header) (f : EntryGetFields) (s : State) :
    (State.takeEntryGet h f s).links.Bounded ↔ s.links.Bounded := by
  simp only [State.takeEntryGet]; (repeat' split) <;> simp
@[simp] theorem State.takeTableClear_bounded (h : Header) (s : State) :
    (State.takeTableClear h s).links.Bounded ↔ s.links.Bounded := by
  simp only [State.takeTableClear]; (repeat' split) <;> simp
@[simp] theorem State.takeTableReady_bounded (h : Header) (s : State) :
    (State.takeTableReady h s).links.Bounded ↔ s.links.Bounded := by simp [State.takeTableReady]
@[simp] theorem State.takeTimeSet_bounded (h : Header) (w : Word32) (s : State) :
    (State.takeTimeSet h w s).links.Bounded ↔ s.links.Bounded := by
  simp only [State.takeTimeSet]; (repeat' split) <;> simp
@[simp] theorem State.takeSlotMap_bounded (h : Header) (l : List (Byte × Byte)) (s : State) :
    (State.takeSlotMap h l s).links.Bounded ↔ s.links.Bounded := by
  simp only [State.takeSlotMap]; (repeat' split) <;> simp
@[simp] theorem State.applySettings_bounded (s : State) (l : List (Setting × Nat)) :
    (s.applySettings l).links.Bounded ↔ s.links.Bounded := by simp [State.applySettings]
@[simp] theorem State.takeSettingPut_bounded (h : Header) (l : List (Byte × BitVec 16)) (s : State) :
    (State.takeSettingPut h l s).links.Bounded ↔ s.links.Bounded := by
  simp only [State.takeSettingPut]; (repeat' split) <;> simp
@[simp] theorem State.takeSettingGet_bounded (h : Header) (b : Byte) (s : State) :
    (State.takeSettingGet h b s).links.Bounded ↔ s.links.Bounded := by
  simp only [State.takeSettingGet]; (repeat' split) <;> simp
@[simp] theorem State.takeAttrRead_bounded (h : Header) (s : State) :
    (s.takeAttrRead h).links.Bounded ↔ s.links.Bounded := by
  simp only [State.takeAttrRead, State.lockRequest]; (repeat' split) <;> simp
@[simp] theorem State.startStoreJob_bounded (s : State) (h : Header) (k : Byte) (j : StoreJob) :
    (s.startStoreJob h k j).links.Bounded ↔ s.links.Bounded := by
  simp only [State.startStoreJob]; (repeat' split) <;> simp
@[simp] theorem State.takeProfileWrite_bounded (h : Header) (f : ProfileWriteFields) (s : State) :
    (State.takeProfileWrite h f s).links.Bounded ↔ s.links.Bounded := by
  simp only [State.takeProfileWrite, State.storeRequest]; (repeat' split) <;> simp
@[simp] theorem State.takeProfileErase_bounded (h : Header) (b : Byte) (s : State) :
    (State.takeProfileErase h b s).links.Bounded ↔ s.links.Bounded := by
  simp only [State.takeProfileErase, State.storeRequest]; (repeat' split) <;> simp
@[simp] theorem State.takeShadowLoad_bounded (h : Header) (s : State) :
    (s.takeShadowLoad h).links.Bounded ↔ s.links.Bounded := by
  simp only [State.takeShadowLoad, State.storeRequest]; (repeat' split) <;> simp

/-- The household requests change the table alone, never the tag list (R119, R123). -/
@[simp] theorem State.takeEntryPut_tagList (h : Header) (f : EntryFields) (s : State) :
    (State.takeEntryPut h f s).houses.tagList = s.houses.tagList := by
  simp only [State.takeEntryPut]; (repeat' split) <;> simp
@[simp] theorem State.takeEntryDrop_tagList (h : Header) (tag : TagId) (s : State) :
    (State.takeEntryDrop h tag s).houses.tagList = s.houses.tagList := by
  simp only [State.takeEntryDrop, Houses.drop]; (repeat' split) <;> simp
@[simp] theorem State.takeTableClear_tagList (h : Header) (s : State) :
    (State.takeTableClear h s).houses.tagList = s.houses.tagList := by
  simp only [State.takeTableClear]; (repeat' split) <;> simp
@[simp] theorem State.takeTableReady_tagList (h : Header) (s : State) :
    (State.takeTableReady h s).houses.tagList = s.houses.tagList := by
  simp [State.takeTableReady]

@[simp] theorem State.readSettings_bounded (s : State) : s.readSettings.links.Bounded ↔ s.links.Bounded := by
  simp only [State.readSettings]; (repeat' split) <;> simp
@[simp] theorem State.verifyStore_bounded (s : State) : s.verifyStore.links.Bounded ↔ s.links.Bounded := by
  simp only [State.verifyStore]; (repeat' split) <;> simp
@[simp] theorem State.finishScan_bounded (s : State) : s.finishScan.links.Bounded ↔ s.links.Bounded := by
  simp [State.finishScan, State.restoreTotals]
@[simp] theorem State.finishProfileWrite_bounded (s : State) :
    s.finishProfileWrite.links.Bounded ↔ s.links.Bounded := by
  simp only [State.finishProfileWrite]; (repeat' split) <;> simp
@[simp] theorem State.finishProfileErase_bounded (s : State) :
    s.finishProfileErase.links.Bounded ↔ s.links.Bounded := by
  simp only [State.finishProfileErase]; (repeat' split) <;> simp
@[simp] theorem State.finishShadowLoad_bounded (s : State) : s.finishShadowLoad.links.Bounded ↔ s.links.Bounded := by
  have hload : s.finishLoad.1.links.Bounded ↔ s.links.Bounded := by
    simp only [State.finishLoad]
    split <;> simp
  simp only [State.finishShadowLoad]
  split
  · split <;> rename_i heq <;> rw [heq] at hload <;> simpa using hload
  all_goals rfl
@[simp] theorem State.receive_bounded (s : State) (f : RawFrame) : (s.receive f).links.Bounded ↔ s.links.Bounded := by
  simp only [State.receive]; (repeat' split) <;> simp
@[simp] theorem State.readPressure_bounded (s : State) (c : Compartment) (p : Nat) :
    (s.readPressure c p).links.Bounded ↔ s.links.Bounded := by
  simp only [State.readPressure]; (repeat' split) <;> simp

end Sys2Proof.Machine

namespace Sys2Proof.Machine

/-! ### The tag window (R119, R120) -/

/-- A tag seen joins the list only where it has room (R120). -/
theorem Houses.see_length {x : Houses} (h : x.tagList.length ≤ Config.tagListCapacity) (tag : TagId) (n : Nat) :
    (x.see tag n).tagList.length ≤ Config.tagListCapacity := by
  unfold Houses.see
  split
  · exact h
  split
  · simpa using h
  split
  next hroom => simpa using hroom
  next => exact h

theorem State.tagSeen_keepsBounds (s : State) (tag : TagId) (strength : Byte) : KeepsBounds s (s.tagSeen tag strength) :=
  ⟨id, id, id, fun h => Houses.see_length h tag _, rfl, ⟨rfl, rfl, rfl⟩, rfl, fun _ => rfl⟩

theorem State.lineFrame_keepsBounds (s : State) (l : Line) (bytes : List Byte) : KeepsBounds s (s.lineFrame l bytes) := by
  cases l with
  | service => exact SameBounds.keeps (by simp [State.lineFrame])
  | tagLine => exact .ite (s.tagSeen_keepsBounds _ _) (.refl s)

theorem State.lineByte_keepsBounds (s : State) (l : Line) (b : Byte) : KeepsBounds s (s.lineByte l b) := by
  unfold State.lineByte
  split
  · exact SameBounds.keeps (by simp)
  · exact (State.lineFrame_keepsBounds _ l _).before (by simp)

/-! ### The whole of a command (R1, R101, R186) -/

/-- What the memory reads back as a parameter set has no negative Max (R198). -/
theorem Lock.read_params (x : Lock) : 0 ≤ x.read.working.max ∧ x.read.reference = x.read.working := by
  refine ⟨?_, rfl⟩
  simp only [Lock.read]
  split
  · exact Int.natCast_nonneg _
  · decide

/-- The tracked zero is still 0 when the metrology items are read (R87, R101). -/
theorem State.readMetrology_hold {s : State} (hread : s.lock.reading = true) : BoundsHold s s.readMetrology := by
  obtain ⟨hmax, href⟩ := s.lock.read_params
  refine ⟨fun ⟨_, _, _, _, hunread⟩ => ?_, fun hs => ?_⟩
  · have hzt : s.readMetrology.weigh.zt = 0 := (hunread hread).1
    have href' : 0 ≤ s.readMetrology.lock.reference.max := href ▸ hmax
    have hwrite : s.readMetrology.lock.write = none := rfl
    have hdone : s.readMetrology.lock.reading = false := rfl
    refine ⟨?_, hmax, href', by simp [hwrite], by simp [hdone]⟩
    rw [hzt]
    exact Int.tdiv_nonneg (Int.mul_nonneg hmax (by decide)) (by decide)
  · rw [queuesBounded_iff] at hs ⊢
    exact hs

/-- The reset state is within both bounds (R1). -/
theorem reset_bounds : ZeroBounded State.reset ∧ QueuesBounded State.reset := by
  have hwrite : State.reset.lock.write = none := rfl
  refine ⟨⟨by decide, by decide, by decide, by simp [hwrite], by decide⟩, (queuesBounded_iff _).mpr ?_⟩
  unfold Links.Bounded PortState.Bounded Weigh.Bounded
  decide

/-- A full reset leaves the bounded lists and sets at their reset values (R1). -/
theorem State.fullReset_keepsBounds (s : State) (g p : Bool) : KeepsBounds State.reset (s.fullReset g p) := by
  have hlock : (s.fullReset g p).lock.outcomes = [] ∧ (s.fullReset g p).lock.reading = Lock.reset.reading
      ∧ (s.fullReset g p).lock.working = Lock.reset.working ∧ (s.fullReset g p).lock.reference = Lock.reset.reference
      ∧ (s.fullReset g p).lock.write = Lock.reset.write := by
    rw [State.fullReset, Lock.afterReset_frame]
    exact ⟨rfl, rfl, rfl, rfl, rfl⟩
  obtain ⟨houtcomes, hreading, hparams⟩ := hlock
  exact ⟨id, id, fun _ => by simp [houtcomes], id, rfl, hparams, hreading, fun _ => rfl⟩

/-- A request that its owner takes within the bounds leaves them, whether it is taken, refused or let stand (R186). -/
theorem State.request_hold {α : Type} {s : State} {h : Header} {r : Request} {b : Payload α}
    {owner : α → State → State} (ho : ∀ f t, BoundsHold t (owner f t)) : BoundsHold s (s.request h r b owner) := by
  refine State.request_cases (P := BoundsHold s) (.refl s) fun t ht => ?_
  have htaken : BoundsHold s t := by
    rcases State.take_eq ht with rfl | ⟨-, rfl⟩
    · exact .refl t
    · exact (SameBounds.keeps (by simp +contextual)).hold
  exact ⟨fun c => htaken.trans (SameBounds.keeps (by simp)).hold, fun f _ _ => htaken.trans (ho f t)⟩

/-- Every command keeps both bounds: a request by what its owner keeps, an event by what its effect keeps. -/
theorem exec_hold (i : Instr) (s : State) : ∃ t, exec i s = .next t ∧ BoundsHold s t := by
  cases i with
  | fullReset g p =>
    have hreset : KeepsBounds State.reset (s.fullReset g p) := s.fullReset_keepsBounds g p
    obtain ⟨hzero, hqueues⟩ := reset_bounds
    exact ⟨_, rfl, fun _ => hreset.zero hzero, fun _ => hreset.queues hqueues⟩
  | lift h b => exact ⟨_, rfl, State.request_hold fun f t => (State.takeLift_keepsBounds h f t).hold⟩
  | resume h b => exact ⟨_, rfl, State.request_hold fun _ t => (t.takeResume_keepsBounds h).hold⟩
  | abort h b => exact ⟨_, rfl, State.request_hold fun _ t => (t.takeAbort_keepsBounds h).hold⟩
  | cycleClear h b => exact ⟨_, rfl, State.request_hold fun _ t => (t.takeCycleClear_keepsBounds h).hold⟩
  | chassisState h b => exact ⟨_, rfl, State.request_hold fun f t => (State.takeChassis_keepsBounds f t).hold⟩
  | freezeLock h b => exact ⟨_, rfl, State.request_hold fun _ t => t.takeFreeze_hold h⟩
  | closeLock h b => exact ⟨_, rfl, State.request_hold fun _ t => t.takeClose_hold h⟩
  | setCode h b => exact ⟨_, rfl, State.request_hold fun f t => State.takeSetCode_hold h f t⟩
  | trialSet h b => exact ⟨_, rfl, State.request_hold fun l t => State.takeTrialSet_hold h l t⟩
  | trialDiscard h b => exact ⟨_, rfl, State.request_hold fun _ t => t.takeTrialDiscard_hold h⟩
  | commit h b => exact ⟨_, rfl, State.request_hold fun _ t => t.takeCommit_hold h⟩
  | serviceZero h b => exact ⟨_, rfl, State.request_hold fun _ t => t.takeServiceZero_hold h⟩
  | openLock h b w =>
    have hseen : BoundsHold s (s.setPins { s.pins with lockWireOpen := w }) := (SameBounds.keeps (by simp)).hold
    exact ⟨_, rfl, hseen.trans (State.request_hold fun f t => State.takeOpen_hold h f t)⟩
  | permit h b | pack h b | unload h b | abortUnload h b | faultClear h b | statusGet h b | entryPut h b | entryDrop h b
  | entryGet h b | tableClear h b | tableReady h b | journalRead h b | journalRelease h b | timeSet h b | slotMap h b
  | settingPut h b | settingGet h b | liveWeight h b | attrRead h b | profileWrite h b | profileErase h b
  | shadowLoad h b =>
    exact ⟨_, rfl, State.request_hold fun _ _ => (SameBounds.keeps (by simp)).hold⟩
  | unknownKind h k =>
    refine ⟨_, rfl, ?_⟩
    split
    next ht =>
      rcases State.take_eq ht with rfl | ⟨-, rfl⟩
      · exact answer_hold _ _ _ _ _
      · exact (SameBounds.keeps (by simp +contextual)).hold
    next => exact .refl s
  | frameArrival f | messageSent p | serviceByteGap l | tagLineBreak | linkReset p | profileWriteDone
  | profileEraseDone | shadowLoadDone | recordWriteDone | sectorEraseDone | watchedInputChange w v | payloadTimerExpiry
  | secondTick =>
    exact ⟨_, rfl, (SameBounds.keeps (by simp +contextual)).hold⟩
  | busOff p =>
    have hbounded : (s.setPort (portOfCan p) { s.port (portOfCan p) with onBus := false }).links.Bounded
        ↔ s.links.Bounded := State.setPort_bounded_iff Iff.rfl
    exact ⟨_, rfl, (SameBounds.keeps (by simp [hbounded])).hold⟩
  | tagSeen tag n => exact ⟨_, rfl, (s.tagSeen_keepsBounds tag n).hold⟩
  | lineByteArrival l b => exact ⟨_, rfl, (s.lineByte_keepsBounds l b).hold⟩
  | settingsReadDone | storeVerifyDone | journalScanDone | pressureReading k p | coilOnTimeEnd k d =>
    exact ⟨_, rfl, .ite (SameBounds.keeps (by simp)).hold (.refl s)⟩
  | metrologyReadDone =>
    refine ⟨_, rfl, ?_⟩
    split
    next hread => exact State.readMetrology_hold (by simp_all)
    next => exact .refl s
  | commitWriteDone => exact ⟨_, rfl, s.finishCommit_hold⟩
  | counterWriteDone =>
    refine ⟨_, rfl, ?_⟩
    split
    · exact Lock.KeepsParams.hold (by simp [Lock.KeepsParams])
    · exact .refl s
  | verifyWriteDone =>
    refine ⟨_, rfl, ?_⟩
    split
    · exact (Lock.KeepsParams.hold (by simp [Lock.KeepsParams, Lock.verified])).answerDeferred _ _ _ _
    · exact .refl s
  | makerWriteDone =>
    refine ⟨_, rfl, ?_⟩
    split
    · exact Lock.KeepsParams.hold (by simp [Lock.KeepsParams, Lock.makerDone])
    · exact .refl s
  | codeWriteDone =>
    refine ⟨_, rfl, ?_⟩
    split
    · exact (Lock.KeepsParams.hold (by simp [Lock.KeepsParams, Lock.codeDone])).answerDeferred _ _ _ _
    · exact .refl s
  | settingsWriteDone | releaseWriteDone =>
    refine ⟨_, rfl, ?_⟩
    split
    · exact (SameBounds.keeps (by simp)).hold
    · exact .refl s
  | stepExpiry k x =>
    have hsensed : KeepsBounds s (((s.setPins { s.pins with sensors := x }).expire k).refresh) :=
      ((State.expire_keepsBounds _ k).before (by simp)).refresh
    refine ⟨_, rfl, ?_⟩
    split
    · exact .ite hsensed.hold (.refl s)
    all_goals exact .refl s
  | coilPeriodStart k d n =>
    exact ⟨_, rfl, .ite (.ite (s.coilFault_keepsBounds k _).hold (SameBounds.keeps (by simp)).hold) (.refl s)⟩
  | coilShort k d n => exact ⟨_, rfl, .ite (s.coilFault_keepsBounds k _).hold (.refl s)⟩
  | samplePair x y =>
    refine ⟨_, rfl, ?_⟩
    split
    next henabled => exact State.workPair_hold henabled x y
    next => exact .refl s
  | inclinometerReading x y | inclinometerStale => exact ⟨_, rfl, setWeigh_hold rfl rfl id⟩
  | ptoChange on => exact ⟨_, rfl, .ite (.refl s) (s.changePto_keepsBounds on).hold⟩
  | permitExpiry => exact ⟨_, rfl, .ite s.expirePermit_keepsBounds.hold (.refl s)⟩
  | silenceExpiry => exact ⟨_, rfl, .ite s.chassisSilent_keepsBounds.hold (.refl s)⟩

/-- Both bounds after one step. -/
theorem step_hold {s t : State} (hstep : step s = .next t) : BoundsHold s t := by
  simp only [step] at hstep
  split at hstep
  next => cases hstep; exact .refl s
  next c rest _ =>
    obtain ⟨u, hexec, hu⟩ := exec_hold c { s with pending := rest }
    rw [hexec] at hstep
    cases hstep
    exact hu

/-- Settles O4: of each command `exec_hold` says that it keeps the tracked zero within 4 % of Max. -/
theorem trackedZeroStaysBounded : Obligations.TrackedZeroStaysBounded := by
  unfold Obligations.TrackedZeroStaysBounded
  exact fun _ _ hs hstep => (step_hold hstep).1 hs

/-- Settles O8: of each command `exec_hold` says that it keeps every queue and list within its capacity. -/
theorem queuesStayBounded : Obligations.QueuesStayBounded := by
  unfold Obligations.QueuesStayBounded
  exact fun _ _ hs hstep => (step_hold hstep).2 hs

end Sys2Proof.Machine

namespace Sys2Proof.Machine

/-! ## Trial values (R88, R106, R107) -/

/-! ### The list of a TRIAL_SET (R106, R197) -/

/-- A parameter's number is below 9 (R197). -/
theorem paramOf_isSome (b : Byte) : (paramOf b).isSome = true ↔ b.toNat < 9 := by
  simp [paramOf, allParams]

/-- No parameter has two numbers (R197). -/
theorem paramOf_inj {b d : Byte} (hb : b.toNat < 9) (h : paramOf b = paramOf d) : b = d :=
  BitVec.eq_of_toNat_eq ((List.getElem?_inj hb (by decide : allParams.Nodup)).mp h)

/-- A pair by the name of its parameter; none where its number names none (R197). -/
def trialPair (e : Byte × Word32) : Option (Param × Int) := (paramOf e.1).map fun k => (k, e.2.toInt)

/-- A list whose numbers are all parameters' is its pairs by name, one for one (R197). -/
theorem map_trialPair {l : List (Byte × Word32)} (h : ∀ e ∈ l, e.1.toNat < 9) :
    l.map (fun e => (paramOf e.1, e.2.toInt)) = (l.filterMap trialPair).map fun e => (some e.1, e.2) := by
  induction l with
  | nil => rfl
  | cons e l ih =>
    rw [List.forall_mem_cons] at h
    obtain ⟨k, hk⟩ := Option.isSome_iff_exists.mp ((paramOf_isSome e.1).mpr h.1)
    have hpair : trialPair e = some (k, e.2.toInt) := by simp [trialPair, hk]
    rw [List.filterMap_cons_some hpair, List.map_cons, List.map_cons, hk, ih h.2]

/-- As many pairs by name as there are pairs: every number is a parameter's (R197). -/
theorem length_trialPair_iff (l : List (Byte × Word32)) :
    (l.filterMap trialPair).length = l.length ↔ ∀ e ∈ l, e.1.toNat < 9 := by
  rw [List.filterMap_length_eq_length]
  simp [trialPair, ← paramOf_isSome]

/-- A name stands twice exactly where its number does (R106). -/
theorem nodup_trialPair_iff {l : List (Byte × Word32)} (h : ∀ e ∈ l, e.1.toNat < 9) :
    ((l.filterMap trialPair).map Prod.fst).Nodup ↔ (l.map Prod.fst).Nodup := by
  have hnames : (l.map Prod.fst).map paramOf = ((l.filterMap trialPair).map Prod.fst).map some := by
    have hfst := congrArg (List.map Prod.fst) (map_trialPair h)
    simpa [Function.comp_def] using hfst
  rw [← List.nodup_map_iff (Option.some_injective Param), ← hnames]
  refine ⟨List.Nodup.of_map _, fun hd => List.Nodup.map_on (fun b hb d _ heq => ?_) hd⟩
  obtain ⟨e, he, rfl⟩ := List.mem_map.mp hb
  exact paramOf_inj (h e he) heq

/-- A list that TRIAL_SET takes (R106, log 27). -/
abbrev TakesTrial (l : List (Byte × Word32)) : Prop :=
  1 ≤ l.length ∧ l.length ≤ 9 ∧ (∀ e ∈ l, e.1.toNat < 9) ∧ (l.map Prod.fst).Nodup

/-- TRIAL_SET takes a list as its pairs by name (R106, log 27). -/
theorem trialPairs_eq_some_iff (l : List (Byte × Word32)) (pairs : List (Param × Int)) :
    trialPairs l = some pairs ↔ TakesTrial l ∧ pairs = l.filterMap trialPair := by
  have hform : trialPairs l = if 1 ≤ l.length ∧ l.length ≤ 9 ∧ (l.filterMap trialPair).length = l.length
      ∧ distinct ((l.filterMap trialPair).map Prod.fst) then some (l.filterMap trialPair) else none := rfl
  rw [hform, Option.ite_none_right_eq_some, distinct_iff, length_trialPair_iff, Option.some.injEq, eq_comm (a := pairs)]
  exact and_congr_left fun _ => and_congr_right fun _ => and_congr_right fun _ =>
    and_congr_right fun hall => nodup_trialPair_iff hall

theorem trialPairs_isSome_iff (l : List (Byte × Word32)) : (trialPairs l).isSome = true ↔ TakesTrial l := by
  rw [Option.isSome_iff_exists]
  simp only [trialPairs_eq_some_iff, exists_and_left, exists_eq, and_true]

/-! ### The set with pairs applied (R106) -/

/-- A parameter given a value has it. -/
theorem Params.value_put_same (x : Params) (k : Param) (v : Int) : (x.put k v).value k = v := by
  cases k <;> rfl

/-- A parameter given a value leaves every other. -/
theorem Params.value_put_other (x : Params) {j k : Param} (v : Int) (h : j ≠ k) : (x.put k v).value j = x.value j := by
  cases k <;> cases j <;> simp [Params.put, Params.value] at h ⊢

@[simp] theorem Params.apply_cons (x : Params) (e : Param × Int) (l : List (Param × Int)) :
    x.apply (e :: l) = (x.put e.1 e.2).apply l := rfl

/-- A parameter that no pair names keeps its value (R106). -/
theorem Params.apply_value_other {l : List (Param × Int)} {k : Param} (h : ∀ v, (k, v) ∉ l) (x : Params) :
    (x.apply l).value k = x.value k := by
  induction l generalizing x with
  | nil => rfl
  | cons e l ih =>
    have hne : k ≠ e.1 := fun heq => h e.2 (by simp [heq])
    rw [Params.apply_cons, ih fun v hv => h v (List.mem_cons_of_mem _ hv), Params.value_put_other x _ hne]

/-- A parameter that one pair names has that pair's value (R106). -/
theorem Params.apply_value {l : List (Param × Int)} (hd : (l.map Prod.fst).Nodup) (x : Params) {k : Param} {v : Int}
    (h : (k, v) ∈ l) : (x.apply l).value k = v := by
  induction l generalizing x with
  | nil => cases h
  | cons e l ih =>
    rw [List.map_cons, List.nodup_cons] at hd
    rw [Params.apply_cons]
    rcases List.mem_cons.mp h with rfl | hin
    · rw [Params.apply_value_other fun w hw => hd.1 (List.mem_map.mpr ⟨_, hw, rfl⟩), Params.value_put_same]
    · exact ih hd.2 _ hin

/-! ### Another working set (R88, R107) -/

/-- A zero brought within 4 % of Max (R88). -/
theorem boundZero_eq {m : Int} (hm : 0 ≤ m) (z : Int) : boundZero m z = max (-(m * 4 / 100)) (min (m * 4 / 100) z) := by
  have hrange : zeroRange m = m * 4 / 100 := Int.tdiv_eq_ediv_of_nonneg (by omega)
  rw [boundZero, hrange, clampTo]
  split_ifs <;> omega

/-- Of the lock the working set is replaced, of the engine Zt is bounded where Max is another (R88, R107). -/
theorem State.setWorking_eq (s : State) {p : Params} (hp : 0 ≤ p.max) :
    s.setWorking p = (s.setLock { s.lock with working := p }).setWeigh { s.weigh with
      zt := if p.max = s.lock.working.max then s.weigh.zt
        else max (-(p.max * 4 / 100)) (min (p.max * 4 / 100) s.weigh.zt) } := by
  unfold State.setWorking
  dsimp only
  split
  · rfl
  · rw [boundZero_eq hp]
    rfl

section opened
variable {s : State} {h : Header} {k : Byte} {t : State}

/-- A request to the lock with its items read (R101). -/
theorem State.lockRequest_read (hread : s.lock.reading = false) : s.lockRequest h k t = t := by
  simp [State.lockRequest, hread]

/-- A request to an OPEN lock (R102). -/
theorem State.openRequest_opened (hread : s.lock.reading = false) (hopen : s.lock.state = .opened) :
    s.openRequest h k t = t := by
  simp [State.openRequest, State.lockRequest_read hread, hopen, lockRefusal]

/-- A request with no metrology write in flight (R110). -/
theorem State.unlessWriting_idle (hw : s.lock.write = none) : s.unlessWriting h k t = t := by
  simp [State.unlessWriting, hw]

end opened

/-- A lock that takes trial values: read, OPEN, no metrology write in flight (R101, R102, R110). -/
def Lock.TakesTrials (x : Lock) : Prop := x.reading = false ∧ x.state = .opened ∧ x.write = none

section taken
variable {u : State} {h : Header} {l : List (Byte × Word32)}

/-- A list that is no list of pairs of a TRIAL_SET (R106). -/
theorem State.takeTrialSet_malformed (hu : u.lock.TakesTrials) (hl : trialPairs l = none) :
    State.takeTrialSet h l u = u.answer h 35#8 .malformed .empty := by
  obtain ⟨hread, hopen, hwrite⟩ := hu
  simp only [State.takeTrialSet, State.openRequest_opened hread hopen, State.unlessWriting_idle hwrite, hl]

/-- Pairs that would leave a working set out of range (R106). -/
theorem State.takeTrialSet_unfit {pairs : List (Param × Int)} (hu : u.lock.TakesTrials) (hl : trialPairs l = some pairs)
    (hp : (u.lock.working.apply pairs).inRange = false) :
    State.takeTrialSet h l u = u.answer h 35#8 .malformed .empty := by
  obtain ⟨hread, hopen, hwrite⟩ := hu
  simp [State.takeTrialSet, State.openRequest_opened hread hopen, State.unlessWriting_idle hwrite, hl, hp]

/-- Pairs that leave a working set in range (R106). -/
theorem State.takeTrialSet_put {pairs : List (Param × Int)} (hu : u.lock.TakesTrials) (hl : trialPairs l = some pairs)
    (hp : (u.lock.working.apply pairs).inRange = true) :
    State.takeTrialSet h l u = (u.setWorking (u.lock.working.apply pairs)).answer h 35#8 .ok
      (.params (u.lock.working.apply pairs)) := by
  obtain ⟨hread, hopen, hwrite⟩ := hu
  simp [State.takeTrialSet, State.openRequest_opened hread hopen, State.unlessWriting_idle hwrite, hl, hp]

theorem State.takeTrialDiscard_opened (hu : u.lock.TakesTrials) :
    u.takeTrialDiscard h = (u.setWorking u.lock.reference).answer h 36#8 .ok .empty := by
  obtain ⟨hread, hopen, hwrite⟩ := hu
  simp [State.takeTrialDiscard, State.openRequest_opened hread hopen, State.unlessWriting_idle hwrite]

end taken

/-- A request whose owner replaced the working set and answered (R88, R106, R107, R182). -/
theorem setWorking_settled {s t : State} {h : Header} {k : Byte} {d : AnswerData} {p : Params}
    (hport : h.src.port ≠ .chassis) (hd : ∀ ix, partCount ix d = 1) (hp : 0 ≤ p.max)
    (ht : t = ((s.popped h).setWorking p).answer h k .ok d) :
    t.lock.working = p
      ∧ t.weigh.zt = (if p.max = s.lock.working.max then s.weigh.zt
          else max (-(p.max * 4 / 100)) (min (p.max * 4 / 100) s.weigh.zt))
      ∧ t.core = ((s.setLock { s.lock with working := p }).setWeigh { s.weigh with zt := t.weigh.zt }).core
      ∧ Settled s t h k .ok d := by
  rw [State.setWorking_eq _ hp] at ht
  subst ht
  exact ⟨by simp, by simp, by simp [State.core_eq_iff], settled_of_answer rfl hport (hd _).le⟩

/-- Settles O42: a TRIAL_SET by its list, its pairs taken one for one and applied in turn, and the working set replaced; a
TRIAL_DISCARD by the working set replaced. -/
theorem trialValues : Obligations.TrialValues := by
  unfold Obligations.TrialValues
  refine ⟨fun l => ⟨trialPairs_isSome_iff l, fun pairs hpairs => ?names⟩, fun s h hread hopen hwrite => ?requests⟩
  case names =>
    obtain ⟨⟨-, -, hnums, -⟩, rfl⟩ := (trialPairs_eq_some_iff l pairs).mp hpairs
    exact map_trialPair hnums
  case requests =>
    have hlock : (s.popped h).lock = s.lock := by simp
    have htakes : (s.popped h).lock.TakesTrials := by simp [Lock.TakesTrials, hread, hopen, hwrite]
    refine ⟨fun l ht => ?set, fun ht hmax => ?discard⟩
    case set =>
      have hport : h.src.port ≠ .chassis := ht.port_ne_chassis (by simp)
      have hone : ∀ ix, partCount ix .empty = 1 := fun _ => rfl
      refine ⟨State.takeTrialSet h l (s.popped h), by rw [exec, execTrialSet, State.request_taken _ _ _ _ _ ht],
        fun hl => settled_unchanged hport hone (State.takeTrialSet_malformed htakes hl), fun pairs hl => ⟨fun hp => ?_,
          fun hp => ?_⟩⟩ <;> rw [← hlock] at hp
      · exact settled_unchanged hport hone (State.takeTrialSet_unfit htakes hl hp)
      · obtain ⟨⟨-, -, hnums, hdistinct⟩, hpairs⟩ := (trialPairs_eq_some_iff l pairs).mp hl
        have hnodup : (pairs.map Prod.fst).Nodup := hpairs ▸ (nodup_trialPair_iff hnums).mpr hdistinct
        obtain ⟨hworking, hzt, hcore, hsettled⟩ := setWorking_settled hport (fun _ => rfl)
          (Params.max_nonneg_of_inRange hp) (State.takeTrialSet_put htakes hl hp)
        rw [hlock] at hworking hzt hcore hsettled
        rw [hworking]
        exact ⟨fun k v => Params.apply_value hnodup _, fun k hk => Params.apply_value_other hk _, hzt, hcore, hsettled⟩
    case discard =>
      rw [← hlock] at hmax
      obtain ⟨-, hzt, hcore, hsettled⟩ := setWorking_settled (ht.port_ne_chassis (by simp)) (fun _ => rfl) hmax
        (State.takeTrialDiscard_opened htakes)
      rw [hlock] at hzt hcore
      exact ⟨_, by rw [exec, execTrialDiscard, State.request_taken _ _ _ _ _ ht], hzt, hcore, hsettled⟩

end Sys2Proof.Machine

namespace Sys2Proof.Machine

/-! ## Weighing health by hand and read (R98, R114 to R118) -/

/-! ### The spread of a settle list (R83) -/

/-- The greatest value of a list, folded from its first entry, is that of one of its entries. -/
theorem exists_foldl_max {α β : Type} [LinearOrder β] (f : α → β) (b : α) (r : List α) :
    ∃ hi ∈ b :: r, r.foldl (fun m x => max m (f x)) (f b) = f hi ∧ ∀ e ∈ b :: r, f e ≤ f hi := by
  induction r using List.reverseRecOn with
  | nil => exact ⟨b, by simp, rfl, by simp⟩
  | append_singleton r c ih =>
    obtain ⟨hi, hmem, hfold, hle⟩ := ih
    rw [List.foldl_append, hfold, List.foldl_cons, List.foldl_nil, ← List.cons_append]
    simp only [List.forall_mem_append, List.forall_mem_singleton]
    rcases le_total (f c) (f hi) with h | h
    · exact ⟨hi, List.mem_append_left _ hmem, max_eq_left h, hle, h⟩
    · exact ⟨c, by simp, max_eq_right h, fun e he => (hle e he).trans h, le_rfl⟩

/-- The spread is the greatest v mean less the smallest, which is the greatest in the dual order (R83). -/
theorem spreadOf_eq {l : List Block} (h : l ≠ []) :
    ∃ hi ∈ l, ∃ lo ∈ l, spreadOf l = hi.v - lo.v ∧ ∀ e ∈ l, lo.v ≤ e.v ∧ e.v ≤ hi.v := by
  obtain ⟨b, r, rfl⟩ := List.exists_cons_of_ne_nil h
  obtain ⟨hi, hhi, hmax, htop⟩ := exists_foldl_max Block.v b r
  obtain ⟨lo, hlo, hmin, hbottom⟩ := exists_foldl_max (β := Intᵒᵈ) Block.v b r
  have hspread : spreadOf (b :: r) = hi.v - lo.v := congrArg₂ (· - ·) hmax hmin
  exact ⟨hi, hhi, lo, hlo, hspread, fun e he => ⟨hbottom e he, htop e he⟩⟩

/-! ### SERVICE_ZERO (R88, R116) -/

/-- Without a zero point (R116). -/
theorem State.takeServiceZero_none {u : State} {h : Header} (hread : u.lock.reading = false)
    (hopen : u.lock.state = .opened) (hp : u.lock.zero.point = none) :
    u.takeServiceZero h = u.answer h 38#8 .wrongState .empty := by
  rw [State.takeServiceZero, State.openRequest_opened hread hopen, hp]

/-- With a zero point (R116). -/
theorem State.takeServiceZero_some {u : State} {h : Header} {point : Int} (hread : u.lock.reading = false)
    (hopen : u.lock.state = .opened) (hp : u.lock.zero.point = some point) :
    u.takeServiceZero h = (u.zeroByHand point).answer h 38#8 .ok
      (.grams (boundZero u.lock.working.max point)) := by
  rw [State.takeServiceZero, State.openRequest_opened hread hopen, hp]
  rfl

theorem serviceZero_settled {s : State} {h : Header} (ht : Taken s h (.serviceZero (some ())))
    (hread : s.lock.reading = false) (hopen : s.lock.state = .opened) (hmax : 0 ≤ s.lock.working.max) :
    ∃ t, exec (.serviceZero h (some ())) s = .next t
      ∧ (s.lock.zero.point = none → t.core = s.core ∧ Settled s t h 38#8 .wrongState .empty)
      ∧ ∀ point, s.lock.zero.point = some point →
          t.weigh.zt = max (-(s.lock.working.max * 4 / 100)) (min (s.lock.working.max * 4 / 100) point)
          ∧ t.core = ((s.setWeigh { s.weigh with zt := t.weigh.zt }).setLock
              { s.lock with zero := ⟨0, false, some t.weigh.zt⟩ }).core
          ∧ Settled s t h 38#8 .ok (.grams t.weigh.zt) := by
  have hport : h.src.port ≠ .chassis := ht.port_ne_chassis (by simp)
  have hlock : (s.popped h).lock = s.lock := by simp
  rw [← hlock] at hread hopen
  refine ⟨(s.popped h).takeServiceZero h, by rw [exec, execServiceZero, State.request_taken _ _ _ _ _ ht],
    fun hp => ?_, fun point hp => ?_⟩ <;> rw [← hlock] at hp
  · exact settled_unchanged hport (fun _ => rfl) (State.takeServiceZero_none hread hopen hp)
  · rw [State.takeServiceZero_some hread hopen hp, ← boundZero_eq hmax]
    refine ⟨by simp [State.zeroByHand], by simp [State.core_eq_iff, State.zeroByHand], ?_⟩
    have hsettled : Settled s (((s.popped h).zeroByHand point).answer h 38#8 .ok
        (.grams (boundZero (s.popped h).lock.working.max point))) h 38#8 .ok
        (.grams (boundZero (s.popped h).lock.working.max point)) := settled_of_answer rfl hport le_rfl
    simpa [State.zeroByHand] using hsettled

/-! ### LIVE_WEIGHT (R98) -/

theorem State.liveWeight_spread {s : State} (he : s.weigh.enabled = true) :
    (s.weigh.settle.length ≠ 16 → s.liveWeight.spread = none)
      ∧ (s.weigh.settle.length = 16 → ∃ hi ∈ s.weigh.settle, ∃ lo ∈ s.weigh.settle,
        s.liveWeight.spread = some (hi.v - lo.v) ∧ ∀ e ∈ s.weigh.settle, lo.v ≤ e.v ∧ e.v ≤ hi.v) := by
  refine ⟨fun hlen => by simp [State.liveWeight, hlen, Config.settleCapacity], fun hlen => ?_⟩
  obtain ⟨hi, hhi, lo, hlo, hspread, hbounds⟩ := spreadOf_eq (List.ne_nil_of_length_eq_add_one hlen)
  exact ⟨hi, hhi, lo, hlo, by simp [State.liveWeight, he, hlen, hspread, Config.settleCapacity], hbounds⟩

/-- The reading is beyond the tilt limit by either angle (R84, R98). -/
theorem Reading.beyond_iff (x : Reading) (limit : Int) :
    x.beyond limit = true ↔ limit < x.pitch.natAbs ∨ limit < x.roll.natAbs := by
  simp [Reading.beyond]

/-! ### ATTR_READ (R117, R118) -/

/-- The conditions of the legal status, and the status by them (R117). -/
theorem State.legalParts_iff (s : State) :
    (s.legalParts.lockClosed = true ↔ s.lock.state ≠ .opened) ∧ (s.legalParts.calValid = true ↔ s.lock.cal = .valid)
      ∧ (s.legalParts.shadowMatches = true
          ↔ s.shadow.state = .ready ∧ ∃ w, s.shadow.check = some w ∧ s.lock.lockedCheck = some w)
      ∧ (s.legalParts.zeroUncrossed = true ↔ s.lock.zero.crossed = false)
      ∧ (s.legal = .legal ↔ s.legalParts = ⟨true, true, true, true⟩) := by
  refine ⟨by simp [State.legalParts], by simp [State.legalParts], ?_, by simp [State.legalParts], ?_⟩
  · simp only [State.legalParts, Bool.and_eq_true, beq_iff_eq, Option.isSome_iff_exists, and_assoc]
    exact and_congr_right fun _ => ⟨fun ⟨⟨w, hw⟩, heq⟩ => ⟨w, hw, by rw [← heq, hw]⟩,
      fun ⟨w, hw, hl⟩ => ⟨⟨w, hw⟩, by rw [hw, hl]⟩⟩
  · unfold State.legal
    cases s.legalParts
    simp [and_assoc]

/-- CELL_BALANCE is crossed from 60 on (R115). -/
theorem Lock.balanceCrossed_iff (x : Lock) : x.balanceCrossed = true ↔ ∃ v, x.balance = some v ∧ 60 ≤ v := by
  cases hb : x.balance with
  | none => simp [Lock.balanceCrossed, hb]
  | some v =>
    simp only [Lock.balanceCrossed, hb, decide_eq_true_iff]
    simp [Config.balanceThreshold]

/-- Settles O44: SERVICE_ZERO by the bounded zero; the items of the two readings by what each is made of. -/
theorem serviceZeroAndReadings : Obligations.ServiceZeroAndReadings := by
  unfold Obligations.ServiceZeroAndReadings
  refine fun s h => ⟨serviceZero_settled, fun ht => ?live, fun ht hread => ?attrs⟩
  case live =>
    have hport : h.src.port ≠ .chassis := ht.port_ne_chassis (by simp)
    obtain ⟨hcore, hsettled⟩ := settled_unchanged (k := 39#8) (c := .ok) (d := .live s.liveWeight) hport (fun _ => rfl) rfl
    refine ⟨_, s.liveWeight, by rw [exec, execLiveWeight, State.request_taken _ _ _ _ _ ht]; simp, hcore, hsettled, ?_⟩
    rintro x rfl
    refine ⟨rfl, rfl, rfl, Reading.beyond_iff _ _, fun he => ?_, fun he => by simp [State.liveWeight, he]⟩
    obtain ⟨hshort, hfull⟩ := State.liveWeight_spread he
    refine ⟨?_, ?_, ?_, ?_, ?_, ?_, hshort, hfull⟩ <;> simp [State.liveWeight, he]
  case attrs =>
    have hanswered : (s.popped h).takeAttrRead h = (s.popped h).answer h 40#8 .ok (.attrs s.attrData) := by
      rw [State.takeAttrRead, State.lockRequest_read (by simpa using hread)]
      simp
    obtain ⟨hcore, hsettled⟩ := settled_unchanged (ht.port_ne_chassis (by simp)) (fun _ => rfl) hanswered
    refine ⟨_, s.attrData, by rw [exec, execAttrRead, State.request_taken _ _ _ _ _ ht], hcore, hsettled, ?_⟩
    rintro x rfl
    obtain ⟨hclosed, hvalid, hmatches, huncrossed, hlegal⟩ := s.legalParts_iff
    exact ⟨rfl, List.countP_eq_length_filter, rfl, rfl, s.lock.balanceCrossed_iff, hclosed, hvalid, hmatches, huncrossed,
      hlegal⟩

end Sys2Proof.Machine

namespace Sys2Proof.Machine

/-! ## Sample pairs weighed (R76 to R87, R113, R115, R144) -/

/-! ### One pair (R76 to R79, R84) -/

/-- A count at full scale, by its two values (R77). -/
theorem fullScale_iff (c : BitVec 24) : fullScale c = true ↔ c.toInt = 8388607 ∨ c.toInt = -8388608 := by
  simp [fullScale]

/-- The flags that a SETTLING window gathers; another window stands (R84). -/
theorem Window.flag_eq (w : Window) (o t : Bool) :
    w.flag o t = if w.capture.isNone then { w with overrange := w.overrange || o, tilt := w.tilt || t } else w := by
  unfold Window.flag
  cases w.capture <;> rfl

/-- A pair worked with this reading sets TILT: stale, or beyond the limit by either angle (R76, R84). -/
theorem Reading.tilted_eq (x : Reading) (limit : Int) :
    x.tilted limit = (!x.fresh || decide (limit < x.pitch.natAbs) || decide (limit < x.roll.natAbs)) := by
  rw [Reading.tilted, Reading.beyond, Bool.or_comm, Bool.or_assoc]

/-- A pair with a count at full scale is OVERRANGE (R77). -/
theorem pairOf_overrange {p : Params} {x : Reading} {zt : Int} {cA cB : BitVec 24}
    (h : cA.toInt = 8388607 ∨ cA.toInt = -8388608 ∨ cB.toInt = 8388607 ∨ cB.toInt = -8388608) :
    pairOf p x zt cA cB = .overrange :=
  if_pos (by simpa only [Bool.or_eq_true, fullScale_iff, or_assoc] using h)

/-- A pair within range is weighed (R77 to R79). -/
theorem pairOf_weighed {p : Params} {x : Reading} {zt : Int} {cA cB : BitVec 24}
    (h : ¬(cA.toInt = 8388607 ∨ cA.toInt = -8388608 ∨ cB.toInt = 8388607 ∨ cB.toInt = -8388608)) :
    pairOf p x zt cA cB = .weighed (cellMass cA p.zA p.kA) (cellMass cB p.zB p.kB)
      (correctTilt (cellMass cA p.zA p.kA + cellMass cB p.zB p.kB) x - zt) :=
  if_neg (by simpa only [Bool.or_eq_true, fullScale_iff, or_assoc] using h)

/-- A pair weighed, but for the accumulator: the latest pair, and TILT in a SETTLING window (R79, R84). -/
def Weigh.paired (x : Weigh) (mA mB v : Int) (tilt : Bool) : Weigh :=
  { x with latestPair := some (.weighed mA mB v),
           window := x.window.map fun w => if w.capture.isNone then { w with tilt := w.tilt || tilt } else w }

theorem Weigh.weighedPair_eq (x : Weigh) (mA mB v : Int) (tilt : Bool) :
    x.weighedPair mA mB v tilt = { x.paired mA mB v tilt with acc := x.acc.add mA mB v } := by
  simp [Weigh.weighedPair, Weigh.paired, Window.flag_eq]

/-- A pair opens and fixes no window (R81, R84). -/
theorem Weigh.paired_idle {x : Weigh} {mA mB v : Int} {tilt : Bool}
    (h : x.window = none ∨ x.hold = true ∨ ∃ w, x.window = some w ∧ w.capture.isSome = true) :
    (x.paired mA mB v tilt).window = none ∨ (x.paired mA mB v tilt).hold = true
      ∨ ∃ w, (x.paired mA mB v tilt).window = some w ∧ w.capture.isSome = true := by
  rcases h with hnone | hheld | ⟨w, hw, hcaptured⟩
  · exact .inl (by simp [Weigh.paired, hnone])
  · exact .inr (.inl hheld)
  · exact .inr (.inr ⟨w, by simp [Weigh.paired, hw, Option.isSome_iff_ne_none.mp hcaptured], hcaptured⟩)

/-- An OVERRANGE pair gives its flags to a SETTLING window (R77, R84). -/
theorem Weigh.overrangePair_eq (x : Weigh) (tilt : Bool) :
    x.overrangePair tilt = { x with
      acc := ⟨0, 0, 0, 0⟩, settle := [], latestPair := some .overrange
      window := x.window.map fun w => if w.capture.isNone then
        { w with overrange := true, tilt := w.tilt || tilt } else w } := by
  simp [Weigh.overrangePair, Window.flag_eq, Accumulator.cleared]

section pair
variable {s : State} {cA cB : BitVec 24}

theorem exec_samplePair_disabled (h : s.weigh.enabled = false) : exec (.samplePair cA cB) s = .next s := by
  simp [exec, execSamplePair, h]

theorem exec_samplePair_enabled (h : s.weigh.enabled = true) :
    exec (.samplePair cA cB) s = .next (s.workPair cA cB) := by
  simp [exec, execSamplePair, h]

theorem State.workPair_overrange
    (h : cA.toInt = 8388607 ∨ cA.toInt = -8388608 ∨ cB.toInt = 8388607 ∨ cB.toInt = -8388608) :
    s.workPair cA cB = s.setWeigh (s.weigh.overrangePair (s.weigh.reading.tilted s.lock.working.tilt)) := by
  simp only [State.workPair, pairOf_overrange h]

variable {mA mB v : Int}

/-- A pair that leaves the block unfinished joins the accumulator (R80). -/
theorem State.workPair_joins (hp : pairOf s.lock.working s.weigh.reading s.weigh.zt cA cB = .weighed mA mB v)
    (hc : s.weigh.acc.count < 7) :
    s.workPair cA cB = s.setWeigh { s.weigh.paired mA mB v (s.weigh.reading.tilted s.lock.working.tilt) with
      acc := s.weigh.acc.add mA mB v } := by
  have hshort : (s.weigh.acc.add mA mB v).count < 8 := Nat.succ_lt_succ hc
  simp only [State.workPair, hp, Weigh.weighedPair_eq, hshort, if_true]

/-- The eighth pair makes a block (R80). -/
theorem State.workPair_block (hp : pairOf s.lock.working s.weigh.reading s.weigh.zt cA cB = .weighed mA mB v)
    (hc : s.weigh.acc.count = 7) :
    s.workPair cA cB = (s.setWeigh { s.weigh.paired mA mB v (s.weigh.reading.tilted s.lock.working.tilt) with
      acc := ⟨0, 0, 0, 0⟩ }).blockArrival (s.weigh.acc.add mA mB v).block := by
  have hfull : ¬(s.weigh.acc.add mA mB v).count < 8 := by simp [Accumulator.add, hc]
  simp only [State.workPair, hp, Weigh.weighedPair_eq, hfull, if_false, Accumulator.cleared]

end pair

/-! ### One block (R80, R82, R83) -/

/-- A settle list of up to 16 entries with one more keeps the newest 16 (R82). -/
theorem appendSettle_eq_drop {l : List Block} (h : l.length ≤ 16) (b : Block) :
    appendSettle l b = (l ++ [b]).drop (l.length - 15) := by
  unfold appendSettle Config.settleCapacity
  split
  next hroom => rw [show l.length - 15 = 0 by omega, List.drop_zero]
  next hfull => rw [show l.length - 15 = 1 by omega, List.drop_append_of_le_length (by omega)]

/-- A list is settled with 16 entries of which no two v means differ by more than the band (R83). -/
theorem settled_iff (l : List Block) (p : Params) :
    settled l p = true ↔ l.length = 16 ∧ ∀ e ∈ l, ∀ f ∈ l, e.v - f.v ≤ p.band * p.d := by
  simp only [settled, Config.settleCapacity, Bool.and_eq_true, beq_iff_eq, decide_eq_true_eq]
  refine and_congr_right fun hlen => ?_
  obtain ⟨hi, hhi, lo, hlo, hspread, hbounds⟩ := spreadOf_eq (List.ne_nil_of_length_pos (by omega : 0 < l.length))
  rw [hspread]
  refine ⟨fun hle e he f hf => ?_, fun hall => hall hi hhi lo hlo⟩
  have htop := (hbounds e he).2
  have hbottom := (hbounds f hf).1
  omega

/-- A list short of 16 entries, or with two v means apart by more than the band, is not settled (R83). -/
theorem settled_eq_false {l : List Block} {p : Params}
    (h : l.length < 16 ∨ ∃ e ∈ l, ∃ f ∈ l, p.band * p.d < e.v - f.v) : settled l p = false := by
  refine Bool.eq_false_iff.mpr fun hsettled => ?_
  obtain ⟨hfull, hband⟩ := (settled_iff l p).mp hsettled
  rcases h with hshort | ⟨e, he, f, hf, hwide⟩
  · omega
  · exact absurd (hband e he f hf) (not_le.mpr hwide)

/-- A sum over the settle list (R83). -/
theorem sumBlocks_eq (f : Block → Int) (l : List Block) : sumBlocks f l = (l.map f).sum := List.sum_eq_foldl.symm

/-- The capture of a settle list (R83). -/
theorem captureOf_eq (l : List Block) (x : Reading) (standing : LegalStatus) : captureOf l x standing =
    { value := roundDiv (l.map Block.v).sum 16, angles := if x.fresh then some (x.pitch, x.roll) else none,
      legal := standing, mA := roundDiv (l.map Block.mA).sum 16, mB := roundDiv (l.map Block.mB).sum 16 } := by
  rw [captureOf, sumBlocks_eq, sumBlocks_eq, sumBlocks_eq]

section block
variable {s : State} {b : Block}

/-- A block with no SETTLING window, or under a hold, is the latest one and no more (R82, R86). -/
theorem State.blockArrival_latest
    (h : s.weigh.window = none ∨ s.weigh.hold = true ∨ ∃ w, s.weigh.window = some w ∧ w.capture.isSome = true) :
    s.blockArrival b = s.setWeigh { s.weigh with latestBlock := some b } := by
  simp only [State.blockArrival]
  split
  next w hw =>
    refine if_neg ?_
    rcases h with hnone | hhold | ⟨w', hw', hcaptured⟩
    · rw [hnone] at hw
      cases hw
    · simp [hhold]
    · rw [hw'] at hw
      cases hw
      simp [Option.isSome_iff_ne_none.mp hcaptured]
  next => rfl

variable {w : Window} {l : List Block} (hw : s.weigh.window = some w) (hc : w.capture = none) (hh : s.weigh.hold = false)
  (hs : s.weigh.settle.length ≤ 16) (hl : l = (s.weigh.settle ++ [b]).drop (s.weigh.settle.length - 15))
include hw hc hh hs hl

/-- A block in a SETTLING window that does not settle it (R82, R83). -/
theorem State.blockArrival_unsettled (hu : settled l s.lock.working = false) :
    s.blockArrival b = s.setWeigh { s.weigh with latestBlock := some b, settle := l } := by
  rw [← appendSettle_eq_drop hs] at hl
  simp [State.blockArrival, hw, hc, hh, ← hl, hu]

/-- A block that settles its window fixes the capture, which is handed on (R83). -/
theorem State.blockArrival_settled (hu : settled l s.lock.working = true) {f : Capture}
    (hf : f = captureOf l s.weigh.reading s.legal) :
    s.blockArrival b = (s.setWeigh { s.weigh with
      latestBlock := some b, settle := l, window := some { w with capture := some f } }).handCapture w f := by
  rw [← appendSettle_eq_drop hs] at hl
  simp [State.blockArrival, hw, hc, hh, ← hl, hu, hf]

end block

/-! ### One capture (R83, R87, R113, R115) -/

/-- The context takes the first gross capture offered, and none once ABORTED (R3, R11, R22). -/
theorem LiftCtx.offerGross_eq (x : LiftCtx) (c : Capture) :
    x.offerGross c = if x.path = .aborted ∨ x.gross.isSome then x else
      { x with gross := some ⟨c.value, c.angles, c.legal⟩ } := by
  unfold LiftCtx.offerGross
  cases x.gross <;> simp

/-- The context takes the first tare capture offered, and none once ABORTED (R3, R11, R22). -/
theorem LiftCtx.offerTare_eq (x : LiftCtx) (c : Capture) :
    x.offerTare c = if x.path = .aborted ∨ x.tare.isSome then x else { x with tare := some ⟨c.value, c.legal⟩ } := by
  unfold LiftCtx.offerTare
  cases x.tare <;> simp

/-- A ZERO capture of a flagged window is discarded (R87). -/
theorem State.takeZero_flagged {s : State} {w : Window} (h : w.overrange = true ∨ w.tilt = true) (r : Int) :
    s.takeZero w r = s := if_pos (by simpa using h)

/-- The tracked zero after a residual (R87). -/
def trackedZero (p : Params) (zt r : Int) : Int := if zeroOutcome p zt r = .inBand then zt + r else zt

/-- A ZERO capture of an unflagged window (R87, R113). -/
theorem State.takeZero_unflagged {s : State} {w : Window} (ho : w.overrange = false) (ht : w.tilt = false) (r : Int) :
    s.takeZero w r =
      (s.setWeigh { s.weigh with zt := trackedZero s.lock.working s.weigh.zt r, residual := some r }).setLock
        { s.lock with
          zero := s.lock.zero.take (zeroOutcome s.lock.working s.weigh.zt r) (trackedZero s.lock.working s.weigh.zt r) r } :=
  if_neg (by simp [ho, ht])

section residual
variable {p : Params} {zt r : Int} (hmax : 0 ≤ p.max)
include hmax

/-- A residual in band whose zero is within 4 % of Max is followed (R87). -/
theorem zeroOutcome_inBand (hr : (r.natAbs : Int) ≤ p.d / 2) (hz : ((zt + r).natAbs : Int) ≤ p.max * 4 / 100) :
    zeroOutcome p zt r = .inBand := by
  have hrange : zeroRange p.max = p.max * 4 / 100 := Int.tdiv_eq_ediv_of_nonneg (by omega)
  rw [zeroOutcome, if_pos hr, hrange, if_pos hz]

/-- A residual in band whose zero is beyond 4 % of Max is not (R87). -/
theorem zeroOutcome_blocked (hr : (r.natAbs : Int) ≤ p.d / 2) (hz : p.max * 4 / 100 < ((zt + r).natAbs : Int)) :
    zeroOutcome p zt r = .blocked := by
  have hrange : zeroRange p.max = p.max * 4 / 100 := Int.tdiv_eq_ediv_of_nonneg (by omega)
  rw [zeroOutcome, if_pos hr, hrange, if_neg (by omega)]

end residual

theorem zeroOutcome_outOfBand {p : Params} {zt r : Int} (hr : p.d / 2 < (r.natAbs : Int)) :
    zeroOutcome p zt r = .outOfBand := if_neg (by omega)

/-- ZERO_HEALTH's count rises by 1, up to 255 (R113). -/
theorem raiseSat_eq_min {hi n : Nat} (h : n ≤ hi) : raiseSat hi n = min hi (n + 1) := by
  unfold raiseSat
  split <;> omega

/-- What zero tracking makes of a ZERO capture of an unflagged window (R87, R113). -/
theorem State.takeZero_tracks {u t : State} {w : Window} {r : Int} (ho : w.overrange = false) (htilt : w.tilt = false)
    (hmax : 0 ≤ u.lock.working.max) (hcount : u.lock.zero.count ≤ 255) (ht : t = u.takeZero w r) :
    t = (u.setWeigh t.weigh).setLock { u.lock with zero := t.lock.zero } ∧ t.weigh.residual = some r
      ∧ ((r.natAbs : Int) ≤ u.lock.working.d / 2 → ((u.weigh.zt + r).natAbs : Int) ≤ u.lock.working.max * 4 / 100 →
          t.weigh.zt = u.weigh.zt + r ∧ t.lock.zero = { u.lock.zero with count := 0, point := some (u.weigh.zt + r) })
      ∧ ((r.natAbs : Int) ≤ u.lock.working.d / 2 → u.lock.working.max * 4 / 100 < ((u.weigh.zt + r).natAbs : Int) →
          t.weigh.zt = u.weigh.zt ∧ t.lock.zero = { u.lock.zero with crossed := true, point := some (u.weigh.zt + r) })
      ∧ (u.lock.working.d / 2 < (r.natAbs : Int) → t.weigh.zt = u.weigh.zt
          ∧ t.lock.zero.count = min 255 (u.lock.zero.count + 1)
          ∧ t.lock.zero.crossed = (u.lock.zero.crossed || decide (3 ≤ min 255 (u.lock.zero.count + 1)))
          ∧ t.lock.zero.point = some (u.weigh.zt + r)) := by
  rw [State.takeZero_unflagged ho htilt] at ht
  subst ht
  refine ⟨rfl, rfl, fun hr hz => ?_, fun hr hz => ?_, fun hr => ?_⟩
  · simp [trackedZero, zeroOutcome_inBand hmax hr hz, ZeroHealth.take]
  · simp [trackedZero, zeroOutcome_blocked hmax hr hz, ZeroHealth.take]
  · have hout : zeroOutcome u.lock.working u.weigh.zt r = .outOfBand := zeroOutcome_outOfBand hr
    simp [trackedZero, hout, ZeroHealth.take, raiseSat_eq_min hcount, Config.zeroHealthThreshold]

section hand
variable {s : State} {w : Window} (c : Capture)

theorem State.handCapture_zero (hk : w.kind = .zero) : s.handCapture w c = s.takeZero w c.value := by
  simp only [State.handCapture, hk]

/-- A GROSS capture goes to the context and to CELL_BALANCE (R83, R115). -/
theorem State.handCapture_gross (hk : w.kind = .gross) :
    s.handCapture w c = (s.setLcc { s.lcc with ctx := s.lcc.ctx.map fun u => if u.path = .aborted ∨ u.gross.isSome then u
      else { u with gross := some ⟨c.value, c.angles, c.legal⟩ } }).setLock { s.lock with
        balance := some (if 0 < c.mA + c.mB then 100 * (c.mA - c.mB).natAbs / (c.mA + c.mB).toNat else 100) } := by
  simp only [State.handCapture, hk, State.mapCtx, LiftCtx.offerGross_eq]
  rfl

/-- A TARE capture goes to the context (R83). -/
theorem State.handCapture_tare (hk : w.kind = .tare) :
    s.handCapture w c = s.setLcc { s.lcc with ctx := s.lcc.ctx.map fun u => if u.path = .aborted ∨ u.tare.isSome then u
      else { u with tare := some ⟨c.value, c.legal⟩ } } := by
  simp only [State.handCapture, hk, State.mapCtx, LiftCtx.offerTare_eq]

end hand

/-! ### A pressure reading (R144) -/

/-- With no stroke open in COMPRESS, or its channel paused, a pressure is an input alone (R144). -/
theorem State.readPressure_closed {s : State} {c : Compartment} (p : Nat) (h : (s.comps.comp c).stroke = none
      ∨ (s.comps.comp c).stage ≠ .compress ∨ (s.chans.get c.packer).state = .paused) : s.readPressure c p = s := by
  simp only [State.readPressure]
  split
  next k hk =>
    refine if_neg ?_
    rintro ⟨hstage, hstate⟩
    rcases h with hnone | hother | hpaused
    · rw [hnone] at hk
      cases hk
    · exact hother hstage
    · exact hstate hpaused
  next => rfl

/-- A pressure goes into the open stroke (R144). -/
theorem State.readPressure_open {s : State} {c : Compartment} (p : Nat) {k : Stroke} (hk : (s.comps.comp c).stroke = some k)
    (hstage : (s.comps.comp c).stage = .compress) (hstate : (s.chans.get c.packer).state ≠ .paused) :
    s.readPressure c p = s.setComp c { s.comps.comp c with
      stroke := some (k.read p s.settings.inForce.packFullPressure) } := by
  simp only [State.readPressure, hk, hstage, hstate, true_and, not_false_eq_true, ne_eq, if_true]

/-- A pressure of a compartment of the body is its input, and goes to its stroke (R42, R144). -/
theorem exec_pressureReading {s : State} {c : Compartment} (p : Nat) (hc : s.hasComp c = true) :
    exec (.pressureReading c p) s = .next ((s.setPressure c p).readPressure c p) := by
  simp [exec, execPressureReading, hc]

/-- Settles O53: a pair by what it is weighed to, its block by the window it meets, and a capture by its window's kind. -/
theorem samplePairsAreWeighed : Obligations.SamplePairsAreWeighed := by
  unfold Obligations.SamplePairsAreWeighed
  refine ⟨fun s cA cB p x tilt hp hx htilt => ?pair, fun s pitch roll => ⟨rfl, rfl⟩,
    fun s u c pressure hc hu => ?pressure⟩
  case pair =>
    rw [← Reading.tilted_eq] at htilt
    subst hp hx htilt
    refine ⟨exec_samplePair_disabled, fun he hfull => ?overrange,
      fun mA mB v y he hloA hhiA hloB hhiB hmA hmB hv hy => ?weighed⟩
    case overrange => rw [exec_samplePair_enabled he, State.workPair_overrange hfull, Weigh.overrangePair_eq]
    case weighed =>
      change y = s.weigh.paired mA mB v _ at hy
      have hpair : pairOf s.lock.working s.weigh.reading s.weigh.zt cA cB = .weighed mA mB v := by
        subst hv hmA hmB
        exact pairOf_weighed (by omega)
      refine ⟨fun hcount => by rw [exec_samplePair_enabled he, State.workPair_joins hpair hcount, hy, Accumulator.add],
        fun b z hcount hb hz => ?block⟩
      have hblock : exec (.samplePair cA cB) s
          = .next ((s.setWeigh { y with acc := ⟨0, 0, 0, 0⟩ }).blockArrival b) := by
        rw [exec_samplePair_enabled he, State.workPair_block hpair hcount, hb, hy]
        rfl
      rw [hblock]
      have hkept : y.hold = s.weigh.hold ∧ y.settle = s.weigh.settle ∧ y.reading = s.weigh.reading
          ∧ z.zt = s.weigh.zt := by
        subst hy hz
        exact ⟨rfl, rfl, rfl, rfl⟩
      obtain ⟨hsamehold, hsamesettle, hsamereading, hsamezt⟩ := hkept
      rw [← hsamehold, ← hsamesettle, ← hsamereading, ← hsamezt]
      refine ⟨fun hlatest => ?latest, fun w l hw hwindow hhold hlen hl => ⟨fun hapart => ?unsettled,
        fun f hfull hband hf => ?settled⟩⟩
      case latest =>
        have hidle : y.window = none ∨ y.hold = true ∨ ∃ w, y.window = some w ∧ w.capture.isSome = true := by
          rw [hsamehold] at hlatest
          rw [hy]
          exact Weigh.paired_idle hlatest
        rw [hz]
        exact congrArg _ (State.blockArrival_latest (s := s.setWeigh { y with acc := ⟨0, 0, 0, 0⟩ }) hidle)
      case unsettled =>
        rw [hz]
        exact congrArg _ (State.blockArrival_unsettled (s := s.setWeigh { y with acc := ⟨0, 0, 0, 0⟩ }) hw hwindow hhold
          hlen hl (settled_eq_false hapart))
      case settled =>
        have hsettled : settled l s.lock.working = true := (settled_iff _ _).mpr ⟨hfull, hband⟩
        rw [← captureOf_eq] at hf
        have hfixed : (s.setWeigh { y with acc := ⟨0, 0, 0, 0⟩ }).blockArrival b
            = (s.setWeigh { z with settle := l, window := some { w with capture := some f } }).handCapture w f := by
          rw [hz]
          exact State.blockArrival_settled (s := s.setWeigh { y with acc := ⟨0, 0, 0, 0⟩ }) hw hwindow hhold hlen hl
            hsettled hf
        rw [hfixed]
        refine ⟨fun hk => congrArg _ (State.handCapture_gross f hk), fun hk => congrArg _ (State.handCapture_tare f hk),
          fun hk hflag => ?_, fun hk hover htilt _ hmax hcount => ?_⟩ <;> rw [State.handCapture_zero f hk]
        · rw [State.takeZero_flagged hflag]
        · exact ⟨_, rfl, State.takeZero_tracks
            (u := s.setWeigh { z with settle := l, window := some { w with capture := some f } }) hover htilt hmax hcount rfl⟩
  case pressure =>
    have hinput : u = s.setPressure c pressure := by
      rw [hu]
      cases c <;> rfl
    have hkept : u.comps = s.comps ∧ u.chans = s.chans ∧ u.settings = s.settings := by
      subst hu
      exact ⟨rfl, rfl, rfl⟩
    obtain ⟨hcomps, hchans, hsettings⟩ := hkept
    rw [exec_pressureReading pressure hc, ← hinput, ← hcomps, ← hchans, ← hsettings]
    exact ⟨fun h => congrArg _ (State.readPressure_closed pressure h),
      fun k hk hstage hstate => congrArg _ (State.readPressure_open pressure hk hstage hstate)⟩

end Sys2Proof.Machine

namespace Sys2Proof.Machine

/-! ## The CEC and the metrology write in flight (R101, R108, R110) -/

/-! ### Commands that leave the lock's state, its CEC and its write -/

/-- The commands that change the lock's state, its CEC or the metrology write in flight. -/
def touchesLock : Instr → Bool
  | .fullReset .. | .metrologyReadDone | .freezeLock .. | .openLock .. | .closeLock .. | .setCode .. | .commit ..
  | .commitWriteDone | .counterWriteDone | .verifyWriteDone | .makerWriteDone | .codeWriteDone => true
  | _ => false

/-- The lock's state, its CEC and the metrology write in flight stand. -/
@[simp] def KeepsLock (s t : State) : Prop :=
  t.lock.state = s.lock.state ∧ t.lock.cec = s.lock.cec ∧ t.lock.write = s.lock.write

theorem KeepsLock.ite {c : Prop} [Decidable c] {s t u : State} (ht : KeepsLock s t) (hu : KeepsLock s u) :
    KeepsLock s (if c then t else u) := by
  split
  · exact ht
  · exact hu

/-- Taking a request from its port leaves the lock (R182). -/
theorem State.take_lock {s t : State} {h : Header} {r : Request} (ht : s.take h r = some t) : t.lock = s.lock := by
  rcases State.take_eq ht with rfl | ⟨-, rfl⟩ <;> simp

/-- A request whose owner leaves the lock's state, CEC and write leaves them, whether it is taken, refused or let stand
(R186). -/
theorem State.request_keepsLock {α : Type} {s : State} {h : Header} {r : Request} {b : Payload α}
    {owner : α → State → State} (ho : ∀ f t, KeepsLock t (owner f t)) : KeepsLock s (s.request h r b owner) := by
  refine State.request_cases (P := KeepsLock s) (by simp) fun t ht => ?_
  have hlock : t.lock = s.lock := State.take_lock ht
  exact ⟨fun c => by simp [hlock], fun f _ _ => by simpa [hlock] using ho f t⟩

/-- Another working set is the working set alone, and Zt (R88, R107). -/
@[simp] theorem State.setWorking_lock (s : State) (p : Params) :
    (s.setWorking p).lock = { s.lock with working := p } := by
  unfold State.setWorking
  dsimp only
  split <;> rfl

theorem State.takeTrialSet_keepsLock (h : Header) (l : List (Byte × Word32)) (s : State) :
    KeepsLock s (State.takeTrialSet h l s) := by
  simp only [State.takeTrialSet, State.openRequest, State.lockRequest, State.unlessWriting]
  (repeat' split) <;> simp

theorem State.takeTrialDiscard_keepsLock (h : Header) (s : State) : KeepsLock s (s.takeTrialDiscard h) := by
  simp only [State.takeTrialDiscard, State.openRequest, State.lockRequest, State.unlessWriting]
  (repeat' split) <;> simp

theorem State.takeServiceZero_keepsLock (h : Header) (s : State) : KeepsLock s (s.takeServiceZero h) := by
  simp only [State.takeServiceZero, State.openRequest, State.lockRequest, State.zeroByHand]
  (repeat' split) <;> simp

/-- A command that does not touch the lock leaves its state, its CEC and its write: a request by what its owner leaves, an event
by what its effect leaves. -/
theorem exec_keepsLock (i : Instr) (hi : touchesLock i = false) (s : State) :
    ∃ t, exec i s = .next t ∧ KeepsLock s t := by
  cases i with
  | fullReset g p | metrologyReadDone | freezeLock h b | openLock h b w | closeLock h b | setCode h b | commit h b
  | commitWriteDone | counterWriteDone | verifyWriteDone | makerWriteDone | codeWriteDone => cases hi
  | trialSet h b => exact ⟨_, rfl, State.request_keepsLock fun l t => t.takeTrialSet_keepsLock h l⟩
  | trialDiscard h b => exact ⟨_, rfl, State.request_keepsLock fun _ t => t.takeTrialDiscard_keepsLock h⟩
  | serviceZero h b => exact ⟨_, rfl, State.request_keepsLock fun _ t => t.takeServiceZero_keepsLock h⟩
  | lift h b | permit h b | resume h b | abort h b | cycleClear h b | pack h b | unload h b | abortUnload h b
  | faultClear h b | statusGet h b | entryPut h b | entryDrop h b | entryGet h b | tableClear h b | tableReady h b
  | journalRead h b | journalRelease h b | timeSet h b | slotMap h b | settingPut h b | settingGet h b | liveWeight h b
  | attrRead h b | profileWrite h b | profileErase h b | shadowLoad h b | chassisState h b =>
    exact ⟨_, rfl, State.request_keepsLock fun _ _ => by simp⟩
  | unknownKind h k =>
    refine ⟨_, rfl, ?_⟩
    split
    next t ht => simp [State.take_lock ht]
    next => simp
  | frameArrival f | messageSent p | serviceByteGap l | tagLineBreak | busOff p | linkReset p | tagSeen tag n
  | profileWriteDone | profileEraseDone | shadowLoadDone | recordWriteDone | sectorEraseDone | inclinometerReading x y
  | inclinometerStale | watchedInputChange w v | payloadTimerExpiry | secondTick | lineByteArrival l b =>
    exact ⟨_, rfl, by simp⟩
  | settingsReadDone | storeVerifyDone | journalScanDone | samplePair x y | pressureReading k p | ptoChange on
  | permitExpiry | silenceExpiry | coilOnTimeEnd k d | coilShort k d n => exact ⟨_, rfl, .ite (by simp) (by simp)⟩
  | coilPeriodStart k d n => exact ⟨_, rfl, .ite (.ite (by simp) (by simp)) (by simp)⟩
  | settingsWriteDone | releaseWriteDone =>
    refine ⟨_, rfl, ?_⟩
    split <;> simp
  | stepExpiry k x =>
    refine ⟨_, rfl, ?_⟩
    split
    · exact .ite (by simp) (by simp)
    all_goals simp

/-! ### Commands that change them -/

/-- The CEC stands, and a metrology write in flight stays with an OPEN lock (R108, R110). -/
def KeepsCec (s t : State) : Prop := t.lock.cec = s.lock.cec ∧ (WritesOpen s → WritesOpen t)

theorem KeepsLock.keepsCec {s t : State} (h : KeepsLock s t) : KeepsCec s t := by
  obtain ⟨hstate, hcec, hwrite⟩ := h
  exact ⟨hcec, fun hs => by rwa [WritesOpen, hstate, hwrite]⟩

/-- What is kept after a change of nothing of it. -/
theorem KeepsCec.after {s t u : State} (h : KeepsCec s t) (hu : KeepsLock t u) : KeepsCec s u := by
  obtain ⟨hcec, hopen⟩ := hu.keepsCec
  exact ⟨hcec.trans h.1, hopen ∘ h.2⟩

theorem KeepsCec.ite {c : Prop} [Decidable c] {s t u : State} (ht : c → KeepsCec s t) (hu : ¬ c → KeepsCec s u) :
    KeepsCec s (if c then t else u) := by
  split
  next hc => exact ht hc
  next hc => exact hu hc

theorem KeepsCec.answer {s t : State} (h : KeepsCec s t) (d : Header) (k : Byte) (c : Code) (x : AnswerData) :
    KeepsCec s (t.answer d k c x) := h.after (by simp)

theorem KeepsCec.answerDeferred {s t : State} (h : KeepsCec s t) (p : Port) (k : Byte) (c : Code) (x : AnswerData) :
    KeepsCec s (t.answerDeferred p k c x) := h.after (by simp)

theorem KeepsCec.defer {s t : State} (h : KeepsCec s t) (d : Header) (k : Byte) : KeepsCec s (t.defer d k) :=
  h.after (by simp)

/-- An answer alone. -/
theorem answer_keepsCec (s : State) (d : Header) (k : Byte) (c : Code) (x : AnswerData) : KeepsCec s (s.answer d k c x) :=
  KeepsLock.keepsCec (by simp)

/-- The lock replaced by one with the same CEC and no write in flight. -/
theorem keepsCec_of_no_write {s : State} {x : Lock} (hcec : x.cec = s.lock.cec)
    (hw : WritesOpen s → x.write = none) : KeepsCec s (s.setLock x) :=
  ⟨hcec, fun hs hwrite => by simp [hw hs] at hwrite⟩

/-- The lock replaced by an OPEN one with the same CEC (R110). -/
theorem keepsCec_of_opened {s : State} {x : Lock} (hcec : x.cec = s.lock.cec) (hopen : x.state = .opened) :
    KeepsCec s (s.setLock x) :=
  ⟨hcec, fun _ _ => hopen⟩

/-- A lock that is not OPEN has no write in flight (R110). -/
theorem WritesOpen.no_write {s : State} (hs : WritesOpen s) (h : s.lock.state ≠ .opened) : s.lock.write = none := by
  by_contra hw
  exact h (hs (Option.isSome_iff_ne_none.mpr hw))

/-- A request to the lock is answered BUSY or reaches it (R101). -/
theorem State.lockRequest_keepsCec {s t : State} (h : Header) (k : Byte) (ht : KeepsCec s t) :
    KeepsCec s (s.lockRequest h k t) := .ite (fun _ => answer_keepsCec s _ _ _ _) fun _ => ht

/-- A request that only an OPEN lock takes (R102). -/
theorem State.openRequest_keepsCec {s t : State} (h : Header) (k : Byte) (ht : s.lock.state = .opened → KeepsCec s t) :
    KeepsCec s (s.openRequest h k t) := by
  refine s.lockRequest_keepsCec h k ?_
  cases hstate : s.lock.state with
  | locked | frozen => exact answer_keepsCec s _ _ _ _
  | opened => exact ht hstate

/-- A request that a write in flight turns away (R110). -/
theorem State.unlessWriting_keepsCec {s t : State} (h : Header) (k : Byte) (ht : s.lock.write = none → KeepsCec s t) :
    KeepsCec s (s.unlessWriting h k t) :=
  .ite (fun _ => answer_keepsCec s _ _ _ _) fun hw => ht (by simpa using hw)

theorem State.takeFreeze_keepsCec (h : Header) (s : State) : KeepsCec s (s.takeFreeze h) := by
  refine s.lockRequest_keepsCec h _ ?_
  cases hstate : s.lock.state with
  | opened => exact answer_keepsCec s _ _ _ _
  | locked | frozen =>
    have hfrozen : KeepsCec s (s.setLock { s.lock with state := .frozen }) :=
      keepsCec_of_no_write rfl fun hs => hs.no_write (by simp [hstate])
    exact hfrozen.answer _ _ _ _

/-- OPEN_LOCK opens the lock, which a maker write may go with (R104, R109), or counts a failed attempt at a LOCKED lock, which
has no write in flight. -/
theorem State.takeOpen_keepsCec (h : Header) (f : OpenLockFields) (s : State) : KeepsCec s (State.takeOpen h f s) := by
  have hanswered : ∀ c, KeepsCec s (s.answer h 32#8 c .empty) := fun _ => answer_keepsCec s _ _ _ _
  have hopened : ∀ i, (s.lock.opens i).cec = s.lock.cec ∧ (s.lock.opens i).state = .opened := fun i => by
    unfold Lock.opens
    dsimp only
    split <;> exact ⟨rfl, rfl⟩
  refine s.lockRequest_keepsCec h _ ?_
  split
  · exact hanswered _
  next i _ =>
    obtain ⟨hcec, hopen⟩ := hopened i
    cases hstate : s.lock.state with
    | frozen | opened => exact hanswered _
    | locked =>
      have hfailed : KeepsCec s (s.setLock s.lock.failAttempt) :=
        keepsCec_of_no_write rfl fun hs => hs.no_write (by simp [hstate])
      refine .ite (fun _ => hanswered _) fun _ => .ite (fun _ => hanswered _) fun _ =>
        .ite (fun _ => hanswered _) fun _ => .ite (fun _ => ?_) fun _ => ?_
      · exact (keepsCec_of_opened hcec hopen).answer _ _ _ _
      · exact hfailed.answer _ _ _ _

theorem State.takeClose_keepsCec (h : Header) (s : State) : KeepsCec s (s.takeClose h) := by
  refine s.lockRequest_keepsCec h _ (.ite (fun _ => answer_keepsCec s _ _ _ _) fun hopen =>
    s.unlessWriting_keepsCec h _ fun hw => .ite (fun _ => answer_keepsCec s _ _ _ _) fun _ => ?_)
  have hclosed : KeepsCec s (s.setLock { s.lock with state := .locked }) := keepsCec_of_no_write rfl fun _ => hw
  have hverifying : KeepsCec s (s.setLock { s.lock.eraseBlockCheck with write := some .verify }) :=
    keepsCec_of_opened rfl (not_not.mp hopen)
  cases s.lock.cal with
  | valid | invalid => exact hclosed.answer _ _ _ _
  | unverified => exact hverifying.defer _ _

theorem State.takeSetCode_keepsCec (h : Header) (f : SetCodeFields) (s : State) : KeepsCec s (State.takeSetCode h f s) := by
  refine s.lockRequest_keepsCec h _ ?_
  split
  · exact answer_keepsCec s _ _ _ _
  next level _ =>
    refine .ite (fun _ => answer_keepsCec s _ _ _ _) fun _ => s.openRequest_keepsCec h _ fun hopen =>
      s.unlessWriting_keepsCec h _ fun _ => ?_
    have hstarted : KeepsCec s (s.setLock { s.lock.eraseCodeCheck with write := some (.code f.code level) }) :=
      keepsCec_of_opened rfl hopen
    exact hstarted.defer _ _

theorem State.takeCommit_keepsCec (h : Header) (s : State) : KeepsCec s (s.takeCommit h) := by
  have hanswered : ∀ c, KeepsCec s (s.answer h 37#8 c .empty) := fun _ => answer_keepsCec s _ _ _ _
  refine s.openRequest_keepsCec h _ fun hopen => s.unlessWriting_keepsCec h _ fun _ => .ite (fun _ => hanswered _) fun _ => ?_
  split
  next check _ _ =>
    have hstarted : KeepsCec s (s.grant.startCommit check) := by
      refine ⟨?_, fun _ _ => ?_⟩ <;> simp [State.startCommit, Lock.eraseBlockCheck, hopen]
    exact .ite (fun _ => hanswered _) fun _ => .ite (fun _ => hstarted.defer _ _) fun _ => hanswered _
  next => exact hanswered _

/-- A request whose owner keeps the CEC and the lock OPEN in a write keeps both (R186). -/
theorem State.request_keepsCec {α : Type} {s : State} {h : Header} {r : Request} {b : Payload α}
    {owner : α → State → State} (ho : ∀ f t, KeepsCec t (owner f t)) : KeepsCec s (s.request h r b owner) := by
  refine State.request_cases (P := KeepsCec s) (KeepsLock.keepsCec (by simp)) fun t ht => ?_
  have hlock : t.lock = s.lock := State.take_lock ht
  refine ⟨fun c => KeepsLock.keepsCec (by simp [hlock]), fun f _ _ => ?_⟩
  simpa [KeepsCec, WritesOpen, hlock] using ho f t

/-- Every command but FULL_RESET, the start-up reading and the completion of a commit keeps the CEC, and a write in flight with
an OPEN lock (R101, R108, R110). -/
theorem exec_keepsCec (i : Instr) (s : State) (hreset : ∀ g p, i ≠ .fullReset g p) (hread : i ≠ .metrologyReadDone)
    (hcommit : i ≠ .commitWriteDone) : ∃ t, exec i s = .next t ∧ KeepsCec s t := by
  have hnone : ∀ x : Lock, x.cec = s.lock.cec → x.write = none → KeepsCec s (s.setLock x) := fun _ hcec hw =>
    keepsCec_of_no_write hcec fun _ => hw
  have hsame : KeepsCec s s := KeepsLock.keepsCec (by simp)
  by_cases hi : touchesLock i = false
  · obtain ⟨t, hexec, hkept⟩ := exec_keepsLock i hi s
    exact ⟨t, hexec, hkept.keepsCec⟩
  cases i with
  | fullReset g p => exact absurd rfl (hreset g p)
  | metrologyReadDone => exact absurd rfl hread
  | commitWriteDone => exact absurd rfl hcommit
  | freezeLock h b => exact ⟨_, rfl, State.request_keepsCec fun _ t => t.takeFreeze_keepsCec h⟩
  | openLock h b w =>
    have hseen : KeepsCec (s.setPins { s.pins with lockWireOpen := w }) _ :=
      State.request_keepsCec (h := h) (r := .openLock b) (b := b) fun f t => t.takeOpen_keepsCec h f
    exact ⟨_, rfl, hseen⟩
  | closeLock h b => exact ⟨_, rfl, State.request_keepsCec fun _ t => t.takeClose_keepsCec h⟩
  | setCode h b => exact ⟨_, rfl, State.request_keepsCec fun f t => t.takeSetCode_keepsCec h f⟩
  | commit h b => exact ⟨_, rfl, State.request_keepsCec fun _ t => t.takeCommit_keepsCec h⟩
  | counterWriteDone =>
    refine ⟨_, rfl, ?_⟩
    split
    · exact hnone { s.lock with write := none, counterCell := s.lock.cec } rfl rfl
    · exact hsame
  | makerWriteDone =>
    refine ⟨_, rfl, ?_⟩
    split
    next withBlock _ => exact hnone (s.lock.makerDone withBlock) rfl rfl
    next => exact hsame
  | verifyWriteDone =>
    refine ⟨_, rfl, ?_⟩
    split
    · exact (hnone s.lock.verified rfl rfl).answerDeferred _ _ _ _
    · exact hsame
  | codeWriteDone =>
    refine ⟨_, rfl, ?_⟩
    split
    next c level _ => exact (hnone (s.lock.codeDone c level) rfl rfl).answerDeferred _ _ _ _
    next => exact hsame
  | _ => simp [touchesLock] at hi

/-- The completion of a commit raises the CEC by one and leaves the lock OPEN, its counter write in flight (R108). -/
theorem State.finishCommit_lock {s : State} {p : Params} {check mask : Word32}
    (hw : s.lock.write = some (.commit p check mask)) : s.finishCommit.lock = s.lock.committed p check := by
  simp [State.finishCommit, hw]

/-- A completion with no commit write in flight changes nothing (log 3). -/
theorem State.finishCommit_idle {s : State} (hw : ∀ p c m, s.lock.write ≠ some (.commit p c m)) : s.finishCommit = s := by
  unfold State.finishCommit
  split
  next p c m h => exact absurd h (hw p c m)
  next => rfl

/-- Settles O10: a commit's completion by `finishCommit_lock`, the reset and the reading by the write that they leave none in
flight, every other command by `exec_keepsCec`. -/
theorem cecChangesOnlyByCommit : Obligations.CecChangesOnlyByCommit := by
  unfold Obligations.CecChangesOnlyByCommit
  intro s t i hs hexec
  by_cases hreset : ∃ g p, i = .fullReset g p
  · obtain ⟨g, p, rfl⟩ := hreset
    cases hexec
    have hwrite : (s.fullReset g p).lock.write = none := by
      rw [State.fullReset, Lock.afterReset_frame]
      rfl
    exact ⟨fun h => by simp [hwrite] at h, fun h => absurd rfl (h g p)⟩
  by_cases hread : i = .metrologyReadDone
  · subst hread
    refine ⟨?_, fun _ h => absurd rfl h⟩
    cases hexec
    split
    · exact fun h => nomatch h
    · exact hs
  by_cases hcommit : i = .commitWriteDone
  · subst hcommit
    cases hexec
    by_cases hw : ∃ p c m, s.lock.write = some (.commit p c m)
    · obtain ⟨p, c, m, hw⟩ := hw
      have hopen : s.lock.state = .opened := hs (by simp [hw])
      have hlock : s.finishCommit.lock = s.lock.committed p c := State.finishCommit_lock hw
      exact ⟨fun _ => by rw [hlock]; exact hopen,
        fun _ _ => .inr ⟨by rw [hlock]; rfl, rfl, hopen, p, c, m, hw⟩⟩
    · rw [State.finishCommit_idle (by simpa using hw)]
      exact ⟨hs, fun _ _ => .inl rfl⟩
  · obtain ⟨u, hu, hcec, hopen⟩ := exec_keepsCec i s (by simpa using hreset) hread hcommit
    cases hexec.symm.trans hu
    exact ⟨hopen hs, fun _ _ => .inl hcec⟩

end Sys2Proof.Machine

namespace Sys2Proof.Machine

/-! ## The start-up reading of the metrology items (R75, R101) -/

/-- A block that passes its check gives the sets, the check, the calibration state and the CEC with the counter cell's (R101). -/
theorem Lock.read_good {x : Lock} (h : x.block.good = true) :
    x.read.reference = blockParams x.block.contents ∧ x.read.lockedCheck = blockLockedCheck x.block.contents
      ∧ x.read.cal = blockCal x.block.contents ∧ x.read.cec = max x.counterCell (blockCec x.block.contents) := by
  simp [Lock.read, h]

/-- Without such a block the factory set stands, the calibration INVALID (R101). -/
theorem Lock.read_bad {x : Lock} (h : x.block.good = false) :
    x.read.reference = Params.factory ∧ x.read.lockedCheck = none ∧ x.read.cal = .invalid
      ∧ x.read.cec = x.counterCell := by
  simp [Lock.read, h]

/-- The code and the level are the record's where it passes its check; else absent and HIGH (R101). -/
theorem Lock.read_code (x : Lock) :
    (x.codeRecord.checkGood = true → x.read.code = x.codeRecord.code ∧ x.read.level = x.codeRecord.level)
      ∧ (x.codeRecord.checkGood = false → x.read.code = none ∧ x.read.level = .high) := by
  constructor <;> intro h <;> simp [Lock.read, h]

/-- No stored block names the calibration INVALID (R198). -/
theorem blockCal_ne_invalid (x : BlockBits) : blockCal x ≠ .invalid := by
  unfold blockCal
  split <;> simp

/-- The engine is ENABLED unless the calibration read is INVALID (R75). -/
theorem State.readMetrology_enabled (s : State) : s.readMetrology.weigh.enabled = (s.lock.read.cal != .invalid) := rfl

/-- Settles O16: the items by `read_good`, `read_bad` and `read_code`, the engine by the calibration state read. -/
theorem metrologyReadFromStoredItems : Obligations.MetrologyReadFromStoredItems := by
  unfold Obligations.MetrologyReadFromStoredItems
  intro s hread hsettings
  have hexec : exec .metrologyReadDone s = .next s.readMetrology := by
    simp [exec, execMetrologyReadDone, hread, hsettings]
  obtain ⟨hcode, hnocode⟩ := s.lock.read_code
  refine ⟨s.readMetrology, hexec, rfl, rfl, rfl, rfl, rfl, rfl, fun hgood => ?good, fun hbad => ?bad, hcode, hnocode, rfl⟩
  case good =>
    obtain ⟨hset, hcheck, hcal, hcec⟩ := Lock.read_good hgood
    refine ⟨hset, hcheck, hcal, hcec, ?_⟩
    rw [s.readMetrology_enabled, hcal]
    simpa using blockCal_ne_invalid _
  case bad =>
    obtain ⟨hset, hcheck, hcal, hcec⟩ := Lock.read_bad hbad
    refine ⟨hset, hcheck, hcal, hcec, ?_⟩
    rw [s.readMetrology_enabled, hcal]
    rfl

end Sys2Proof.Machine

namespace Sys2Proof.Machine

/-! ## The lock's state (R102 to R104, R110) -/

/-! ### What turns a request to the lock away (R101, R102, R110) -/

/-- Two states with the same Link Ports have the same ports. -/
theorem State.port_eq_of_links {s u : State} (hu : u.links = s.links) : u.port = s.port :=
  funext (State.port_of_links hu)

theorem Taken.of_links {s u : State} {h : Header} {r : Request} (hu : u.links = s.links) (ht : Taken s h r) :
    Taken u h r := by
  rwa [Taken, AtHead, State.port_of_links hu]

theorem Settled.of_links {s u t : State} {h : Header} {k : Byte} {c : Code} {d : AnswerData} (hu : u.links = s.links)
    (ht : Settled u t h k c d) : Settled s t h k c d := by
  simpa only [Settled, OnlyPort, Answers, State.room, State.port_eq_of_links hu, hu] using ht

/-- The lock's request with its items unread is BUSY (R101, log 29). -/
theorem State.lockRequest_reading {s t : State} {h : Header} {k : Byte} (hread : s.lock.reading = true) :
    s.lockRequest h k t = s.answer h k .busy .empty := if_pos hread

/-- LOCKED or FROZEN to what only an OPEN lock takes (R102). -/
theorem State.openRequest_refused {s t : State} {h : Header} {k : Byte} {c : Code} (hread : s.lock.reading = false)
    (hc : lockRefusal s.lock.state = some c) : s.openRequest h k t = s.answer h k c .empty := by
  rw [State.openRequest, State.lockRequest_read hread, hc]

/-- BUSY during a metrology write (R110). -/
theorem State.unlessWriting_busy {s t : State} {h : Header} {k : Byte} (hw : s.lock.write ≠ none) :
    s.unlessWriting h k t = s.answer h k .busy .empty := if_pos (Option.isSome_iff_ne_none.mpr hw)

/-- A request to the lock reaches it through the test of R101. -/
theorem exec_toLock {c : Instr} {h : Header} {r : Request} {s : State} (hc : requestOf c = some (h, r))
    (hl : toLock c = true) (ht : Taken s h r) :
    ∃ u, exec c s = .next (((s.seen c).popped h).lockRequest h r.code u) := by
  cases c with
  | freezeLock d b | closeLock d b | setCode d b | trialSet d b | trialDiscard d b | commit d b | serviceZero d b
  | attrRead d b =>
    cases hc
    cases b with
    | none => cases hl
    | some f => exact ⟨_, congrArg Host.Outcome.next (State.request_taken s h _ f _ ht)⟩
  | openLock d b w =>
    cases hc
    cases b with
    | none => cases hl
    | some f =>
      have hseen : Taken (s.setPins { s.pins with lockWireOpen := w }) h _ := ht.of_links rfl
      exact ⟨_, congrArg Host.Outcome.next (State.request_taken _ h _ f _ hseen)⟩
  | _ => cases hl

/-- The requests that only an OPEN lock takes pass the test of R102. -/
theorem exec_onlyOpen {c : Instr} {h : Header} {r : Request} {s : State} (hc : requestOf c = some (h, r))
    (hl : onlyOpen c = true) (ht : Taken s h r) :
    ∃ u, exec c s = .next ((s.popped h).openRequest h r.code u) := by
  cases c with
  | trialSet d b | trialDiscard d b | commit d b | serviceZero d b =>
    cases hc
    cases b with
    | none => cases hl
    | some f => exact ⟨_, congrArg Host.Outcome.next (State.request_taken s h _ f _ ht)⟩
  | _ => cases hl

/-- Those that a write in flight turns away pass the test of R110 after it. -/
theorem exec_onlyUnwritten {c : Instr} {h : Header} {r : Request} {s : State} (hc : requestOf c = some (h, r))
    (hl : onlyUnwritten c = true) (ht : Taken s h r) :
    ∃ u, exec c s = .next ((s.popped h).openRequest h r.code ((s.popped h).unlessWriting h r.code u)) := by
  cases c with
  | trialSet d b | trialDiscard d b | commit d b =>
    cases hc
    cases b with
    | none => cases hl
    | some f => exact ⟨_, congrArg Host.Outcome.next (State.request_taken s h _ f _ ht)⟩
  | _ => cases hl

/-- A request to the lock is none of CHASSIS_STATE. -/
theorem toLock_ne_chassisState {c : Instr} {h : Header} {r : Request} (hc : requestOf c = some (h, r))
    (hl : toLock c = true) : ∀ b, r ≠ .chassisState b := by
  rintro b rfl
  cases c <;> simp_all [requestOf, toLock]

end Sys2Proof.Machine

namespace Sys2Proof.Machine

/-! ### A lock replaced by its owner -/

/-- A request answered in one frame, of which the lock alone was changed (R182, R186). -/
theorem setLock_settled {s t : State} {h : Header} {k : Byte} {c : Code} {x : Lock} (hp : h.src.port ≠ .chassis)
    (ht : t = ((s.popped h).setLock x).answer h k c .empty) :
    t.lock = x ∧ t.core = (s.setLock x).core ∧ Settled s t h k c .empty := by
  subst ht
  exact ⟨by simp, by simp [State.core_eq_iff], settled_of_answer rfl hp le_rfl⟩

/-- A request held, of which the lock alone was changed (R182, R186). -/
theorem setLock_held {s t : State} {h : Header} {k : Byte} {x : Lock} (ht : t = ((s.popped h).setLock x).defer h k) :
    t.core = (s.setLock x).core ∧ Held s t h k := by
  subst ht
  exact ⟨by simp [State.core_eq_iff], held_of_defer rfl⟩

/-! ### FREEZE_LOCK (R102) -/

theorem State.takeFreeze_opened {u : State} {h : Header} (hread : u.lock.reading = false)
    (hopen : u.lock.state = .opened) : u.takeFreeze h = u.answer h 27#8 .wrongState .empty := by
  rw [State.takeFreeze, State.lockRequest_read hread, hopen]

theorem State.takeFreeze_closed {u : State} {h : Header} (hread : u.lock.reading = false)
    (hclosed : u.lock.state ≠ .opened) :
    u.takeFreeze h = (u.setLock { u.lock with state := .frozen }).answer h 27#8 .ok .empty := by
  rw [State.takeFreeze, State.lockRequest_read hread]
  cases hstate : u.lock.state with
  | opened => exact absurd hstate hclosed
  | locked | frozen => rfl

/-! ### The identities and their codes (R103, R197) -/

theorem identityOf_none {b : Byte} (hb : 1 < b.toNat) : identityOf b = none := by
  unfold identityOf
  split
  · omega
  · omega
  · rfl

/-- The two values of an identity (R197). -/
theorem identityOf_named {b : Byte} (hb : b.toNat ≤ 1) :
    (b = 0#8 ∧ identityOf b = some .inspector) ∨ (b = 1#8 ∧ identityOf b = some .maker) := by
  have hvalue : b.toNat = 0 ∨ b.toNat = 1 := by omega
  rcases hvalue with hzero | hone
  · exact .inl ⟨BitVec.eq_of_toNat_eq hzero, by rw [identityOf, hzero]; rfl⟩
  · exact .inr ⟨BitVec.eq_of_toNat_eq hone, by rw [identityOf, hone]; rfl⟩

/-- The code of an identity (R103). -/
def Lock.codeOf (x : Lock) : Identity → Option LockCode
  | .inspector => x.code
  | .maker => some Config.makerCode

theorem Lock.codeMatches_iff (x : Lock) (i : Identity) (c : LockCode) :
    x.codeMatches i c = true ↔ x.codeOf i = some c := by
  cases i with
  | inspector => exact beq_iff_eq
  | maker => rw [Lock.codeMatches, Lock.codeOf, beq_iff_eq, Option.some.injEq, eq_comm]

/-! ### OPEN_LOCK (R103, R104) -/

section openLock
variable {u : State} {h : Header} {f : OpenLockFields} {i : Identity}

/-- An identity that is neither value (R103). -/
theorem State.takeOpen_unnamed (hread : u.lock.reading = false) (hi : identityOf f.identity = none) :
    State.takeOpen h f u = u.answer h 32#8 .malformed .empty := by
  simp only [State.takeOpen, State.lockRequest_read hread, hi]

theorem State.takeOpen_frozen (hread : u.lock.reading = false) (hi : identityOf f.identity = some i)
    (hstate : u.lock.state = .frozen) : State.takeOpen h f u = u.answer h 32#8 .frozen .empty := by
  simp only [State.takeOpen, State.lockRequest_read hread, hi, hstate]

theorem State.takeOpen_opened (hread : u.lock.reading = false) (hi : identityOf f.identity = some i)
    (hstate : u.lock.state = .opened) : State.takeOpen h f u = u.answer h 32#8 .wrongState .empty := by
  simp only [State.takeOpen, State.lockRequest_read hread, hi, hstate]

/-- At a LOCKED lock the checks of R103 follow one another. -/
theorem State.takeOpen_locked (hread : u.lock.reading = false) (hi : identityOf f.identity = some i)
    (hstate : u.lock.state = .locked) : State.takeOpen h f u =
      if u.pins.lockWireOpen = false then u.answer h 32#8 .wireIntact .empty
      else if u.lcc.phase ≠ .idle then u.answer h 32#8 .busy .empty
      else if u.stationary = false then u.answer h 32#8 .speed .empty
      else if u.lock.codeOf i = some f.code then (u.setLock (u.lock.opens i)).answer h 32#8 .ok .empty
      else (u.setLock u.lock.failAttempt).answer h 32#8 .codeMismatch .empty := by
  simp only [State.takeOpen, State.lockRequest_read hread, hi, hstate, Bool.not_eq_true', Lock.codeMatches_iff]

end openLock

/-- The fifth wrong code freezes the lock (R104). -/
theorem Lock.failAttempt_locked {x : Lock} (hstate : x.state = .locked) : x.failAttempt = { x with
    failed := x.failed + 1, state := if 5 ≤ x.failed + 1 then .frozen else .locked } := by
  simp [Lock.failAttempt, hstate, Config.failedLimit]

/-- Opened by the inspector, or with the level HIGH (R104). -/
theorem Lock.opens_plain {x : Lock} {i : Identity} (h : i = .inspector ∨ x.level = .high) :
    x.opens i = { x with failed := 0, state := .opened } := by
  unfold Lock.opens
  split <;> simp_all

/-- Opened by the maker with the level MAXIMUM (R104, R109). -/
theorem Lock.opens_maximum {x : Lock} (h : x.level = .maximum) : x.opens .maker = { x with
    failed := 0, state := .opened, code := none, level := .high,
    cal := if x.cal = .valid then .unverified else x.cal, write := some (.maker (x.cal == .valid)) } := by
  simp [Lock.opens, h]

/-- Opened in each case (R104). -/
theorem Lock.opens_frame (x : Lock) (i : Identity) : (x.opens i).state = .opened ∧ (x.opens i).failed = 0 := by
  unfold Lock.opens
  dsimp only
  split <;> exact ⟨rfl, rfl⟩

/-- The chassis stands still (R103 check 4). -/
theorem State.stationary_eq_true_iff (s : State) :
    s.stationary = true ↔ s.inter.present = true ∧ s.inter.report.speed = some 0 := by
  simp [State.stationary]

end Sys2Proof.Machine

namespace Sys2Proof.Machine

/-- FREEZE_LOCK taken (R102). -/
theorem freezeLock_settled {s : State} {h : Header} (ht : Taken s h (.freezeLock (some ())))
    (hread : s.lock.reading = false) : ∃ t, exec (.freezeLock h (some ())) s = .next t
      ∧ (s.lock.state = .opened → t.core = s.core ∧ Settled s t h 27#8 .wrongState .empty)
      ∧ (s.lock.state ≠ .opened → t.core = (s.setLock { s.lock with state := .frozen }).core
          ∧ Settled s t h 27#8 .ok .empty) := by
  have hp : h.src.port ≠ .chassis := ht.port_ne_chassis (by simp)
  have hlock : (s.popped h).lock = s.lock := by simp
  refine ⟨(s.popped h).takeFreeze h, congrArg Host.Outcome.next (State.request_taken s h _ () _ ht), ?_⟩
  rw [← hlock] at hread ⊢
  refine ⟨fun hopen => settled_unchanged hp (fun _ => rfl) (State.takeFreeze_opened hread hopen), fun hclosed => ?_⟩
  obtain ⟨-, hcore, hsettled⟩ := setLock_settled hp (State.takeFreeze_closed hread hclosed)
  exact ⟨hcore, hsettled⟩

/-- OPEN_LOCK taken with an identity that is neither value (R103). -/
theorem openLock_unnamed {u : State} {h : Header} {f : OpenLockFields} (hp : h.src.port ≠ .chassis)
    (hread : u.lock.reading = false) (hi : 1 < f.identity.toNat) :
    (State.takeOpen h f (u.popped h)).core = u.core
      ∧ Settled u (State.takeOpen h f (u.popped h)) h 32#8 .malformed .empty :=
  settled_unchanged hp (fun _ => rfl) (State.takeOpen_unnamed (by simpa using hread) (identityOf_none hi))

section openLock
variable {u t : State} {h : Header} {f : OpenLockFields} {i : Identity}

/-- OPEN_LOCK turned away, in the order of the checks of R103. -/
theorem openLock_refused (hp : h.src.port ≠ .chassis) (hread : u.lock.reading = false)
    (hi : identityOf f.identity = some i) (ht : t = State.takeOpen h f (u.popped h)) :
    (u.lock.state = .frozen → t.core = u.core ∧ Settled u t h 32#8 .frozen .empty)
      ∧ (u.lock.state = .opened → t.core = u.core ∧ Settled u t h 32#8 .wrongState .empty)
      ∧ (u.lock.state = .locked → u.pins.lockWireOpen = false → t.core = u.core ∧ Settled u t h 32#8 .wireIntact .empty)
      ∧ (u.lock.state = .locked → u.pins.lockWireOpen = true → u.lcc.phase ≠ .idle →
          t.core = u.core ∧ Settled u t h 32#8 .busy .empty)
      ∧ (u.lock.state = .locked → u.pins.lockWireOpen = true → u.lcc.phase = .idle → u.stationary = false →
          t.core = u.core ∧ Settled u t h 32#8 .speed .empty) := by
  have hread' : (u.popped h).lock.reading = false := by simpa using hread
  have hanswered : ∀ {c}, t = (u.popped h).answer h 32#8 c .empty → t.core = u.core ∧ Settled u t h 32#8 c .empty :=
    settled_unchanged hp fun _ => rfl
  refine ⟨fun hstate => hanswered ?_, fun hstate => hanswered ?_, fun hstate hwire => hanswered ?_,
    fun hstate hwire hphase => hanswered ?_, fun hstate hwire hphase hmoving => hanswered ?_⟩ <;> rw [ht]
  · exact State.takeOpen_frozen hread' hi (by simpa using hstate)
  · exact State.takeOpen_opened hread' hi (by simpa using hstate)
  all_goals rw [State.takeOpen_locked hread' hi (by simpa using hstate)]
  · simp [hwire]
  · simp [hwire, hphase]
  · simp [hwire, hphase, hmoving]

/-- OPEN_LOCK that passes every check but that of the code, and this one or not (R103, R104). -/
theorem openLock_judged (hp : h.src.port ≠ .chassis) (hread : u.lock.reading = false)
    (hi : identityOf f.identity = some i) (ht : t = State.takeOpen h f (u.popped h)) (hstate : u.lock.state = .locked)
    (hwire : u.pins.lockWireOpen = true) (hphase : u.lcc.phase = .idle) (hstill : u.stationary = true) :
    (u.lock.codeOf i ≠ some f.code → t.core = (u.setLock u.lock.failAttempt).core
        ∧ Settled u t h 32#8 .codeMismatch .empty)
      ∧ (u.lock.codeOf i = some f.code → t.lock = u.lock.opens i ∧ t.core = (u.setLock (u.lock.opens i)).core
        ∧ Settled u t h 32#8 .ok .empty) := by
  rw [State.takeOpen_locked (by simpa using hread) hi (by simpa using hstate)] at ht
  refine ⟨fun hwrong => ?_, fun hright => setLock_settled hp ?_⟩
  · obtain ⟨-, hcore, hsettled⟩ := setLock_settled (x := u.lock.failAttempt) (c := .codeMismatch) hp
      (by simpa [hwire, hphase, hstill, hwrong] using ht)
    exact ⟨hcore, hsettled⟩
  · simpa [hwire, hphase, hstill, hright] using ht

end openLock

end Sys2Proof.Machine

namespace Sys2Proof.Machine

/-- The code that a named identity has to give (R103, R197). -/
theorem Lock.codeOf_named {x : Lock} {b : Byte} {i : Identity} (hb : b.toNat ≤ 1) (hi : identityOf b = some i) :
    x.codeOf i = if b = 0#8 then x.code else some Config.makerCode := by
  rcases identityOf_named hb with ⟨rfl, hnamed⟩ | ⟨rfl, hnamed⟩ <;> cases hi.symm.trans hnamed <;> rfl

/-- What OPEN_LOCK leaves of the lock on the right code: the maker's at MAXIMUM goes with a maker write (R104, R109). -/
theorem Lock.opens_named {x : Lock} {b : Byte} {i : Identity} (hb : b.toNat ≤ 1) (hi : identityOf b = some i) :
    (b = 0#8 ∨ x.level = .high → x.opens i = { x with failed := 0, state := .opened })
      ∧ (b = 1#8 → x.level = .maximum → (x.opens i).code = none ∧ (x.opens i).level = .high
          ∧ (x.opens i).cal = (if x.cal = .valid then .unverified else x.cal)
          ∧ (x.opens i).write = some (.maker (x.cal == .valid))) := by
  rcases identityOf_named hb with ⟨rfl, hnamed⟩ | ⟨rfl, hnamed⟩ <;> cases hi.symm.trans hnamed
  · exact ⟨fun _ => Lock.opens_plain (.inl rfl), fun h => absurd h (by decide)⟩
  · refine ⟨fun h => Lock.opens_plain (.inr (h.resolve_left (by decide))), fun _ hlevel => ?_⟩
    rw [Lock.opens_maximum hlevel]
    exact ⟨rfl, rfl, rfl, rfl⟩

/-- A request to the lock with its items unread (R101, log 29). -/
theorem toLock_unread {c : Instr} {h : Header} {r : Request} {s t : State} (hc : requestOf c = some (h, r))
    (hl : toLock c = true) (ht : Taken s h r) (hexec : exec c s = .next t) (hread : s.lock.reading = true) :
    t.core = (s.seen c).core ∧ Settled s t h r.code .busy .empty := by
  have hseen : (s.seen c).lock = s.lock ∧ (s.seen c).links = s.links := by
    cases c <;> exact ⟨rfl, rfl⟩
  obtain ⟨hlock, hlinks⟩ := hseen
  obtain ⟨u, hu⟩ := exec_toLock hc hl ht
  have hanswered : t = ((s.seen c).popped h).answer h r.code .busy .empty := by
    rw [Host.Outcome.next.inj (hexec.symm.trans hu)]
    exact State.lockRequest_reading (by simp [hlock, hread])
  obtain ⟨hcore, hsettled⟩ := settled_unchanged (ht.port_ne_chassis (toLock_ne_chassisState hc hl)) (fun _ => rfl) hanswered
  exact ⟨hcore, hsettled.of_links hlinks⟩

/-- What only an OPEN lock takes, at one that is not (R102). -/
theorem onlyOpen_refused {c : Instr} {h : Header} {r : Request} {s t : State} {code : Code}
    (hc : requestOf c = some (h, r)) (hl : toLock c = true) (honly : onlyOpen c = true) (ht : Taken s h r)
    (hexec : exec c s = .next t) (hread : s.lock.reading = false) (hcode : lockRefusal s.lock.state = some code) :
    t.core = s.core ∧ Settled s t h r.code code .empty := by
  obtain ⟨u, hu⟩ := exec_onlyOpen hc honly ht
  refine settled_unchanged (ht.port_ne_chassis (toLock_ne_chassisState hc hl)) (fun _ => rfl) ?_
  rw [Host.Outcome.next.inj (hexec.symm.trans hu)]
  exact State.openRequest_refused (by simpa using hread) (by simpa using hcode)

/-- What a metrology write turns away, at an OPEN lock (R110). -/
theorem onlyUnwritten_busy {c : Instr} {h : Header} {r : Request} {s t : State} (hc : requestOf c = some (h, r))
    (hl : toLock c = true) (honly : onlyUnwritten c = true) (ht : Taken s h r) (hexec : exec c s = .next t)
    (hread : s.lock.reading = false) (hopen : s.lock.state = .opened) (hw : s.lock.write ≠ none) :
    t.core = s.core ∧ Settled s t h r.code .busy .empty := by
  obtain ⟨u, hu⟩ := exec_onlyUnwritten hc honly ht
  refine settled_unchanged (ht.port_ne_chassis (toLock_ne_chassisState hc hl)) (fun _ => rfl) ?_
  rw [Host.Outcome.next.inj (hexec.symm.trans hu),
    State.openRequest_opened (by simpa using hread) (by simpa using hopen)]
  exact State.unlessWriting_busy (by simpa using hw)

/-- Settles O40: a request to the lock by the tests that stand before its owner; FREEZE_LOCK and OPEN_LOCK by their branches,
the checks of R103 in their order. -/
theorem lockOpensAndFreezes : Obligations.LockOpensAndFreezes := by
  unfold Obligations.LockOpensAndFreezes
  refine ⟨fun c h r s hc hl ht => ?tests, fun s h hread => ⟨fun ht => freezeLock_settled ht hread,
    fun f wire ht hi => ?unnamed, fun f wire u ht hb hu => ?named⟩⟩
  case tests =>
    obtain ⟨u, hexec⟩ := exec_toLock hc hl ht
    exact ⟨_, hexec, toLock_unread hc hl ht hexec, fun hread honly =>
      ⟨fun hstate => onlyOpen_refused hc hl honly ht hexec hread (by rw [hstate]; rfl),
        fun hstate => onlyOpen_refused hc hl honly ht hexec hread (by rw [hstate]; rfl),
        fun hopen hw hunwritten => onlyUnwritten_busy hc hl hunwritten ht hexec hread hopen hw⟩⟩
  case unnamed =>
    have hseen : Taken (s.setPins { s.pins with lockWireOpen := wire }) h (.openLock (some f)) := ht.of_links rfl
    obtain ⟨hcore, hsettled⟩ := openLock_unnamed (u := s.setPins { s.pins with lockWireOpen := wire })
      (ht.port_ne_chassis (by simp)) hread hi
    exact ⟨_, congrArg Host.Outcome.next (State.request_taken _ h _ f _ hseen), hcore, hsettled.of_links rfl⟩
  case named =>
    subst hu
    have hp : h.src.port ≠ .chassis := ht.port_ne_chassis (by simp)
    have hseen : Taken (s.setPins { s.pins with lockWireOpen := wire }) h (.openLock (some f)) := ht.of_links rfl
    obtain ⟨i, hi⟩ : ∃ i, identityOf f.identity = some i := by
      rcases identityOf_named hb with ⟨-, hi⟩ | ⟨-, hi⟩ <;> exact ⟨_, hi⟩
    obtain ⟨hfrozen, hopened, hintact, hbusy, hmoving⟩ :=
      openLock_refused (u := s.setPins { s.pins with lockWireOpen := wire }) hp hread hi rfl
    have hjudged := openLock_judged (u := s.setPins { s.pins with lockWireOpen := wire }) hp hread hi rfl
    refine ⟨_, congrArg Host.Outcome.next (State.request_taken _ h _ f _ hseen), fun hstate => (hfrozen hstate).imp_right ?_,
      fun hstate => (hopened hstate).imp_right ?_, fun hstate hw => (hintact hstate hw).imp_right ?_,
      fun hstate hw hphase => (hbusy hstate hw hphase).imp_right ?_,
      fun hstate hw hphase hmoves => (hmoving hstate hw hphase ?moves).imp_right ?_,
      fun own hown hstate hw hphase hpresent hspeed => ?code⟩
    case moves =>
      rcases hmoves with hmoves | hmoves <;> simp [State.stationary, hmoves]
    case code =>
      have hstill : s.stationary = true := s.stationary_eq_true_iff.mpr ⟨hpresent, hspeed⟩
      obtain ⟨hwrong, hright⟩ := hjudged hstate hw hphase hstill
      rw [hown, ← Lock.codeOf_named hb hi]
      refine ⟨fun hne => ?wrong, fun heq => ?right⟩
      case wrong =>
        rw [← Lock.failAttempt_locked hstate]
        exact (hwrong hne).imp_right (Settled.of_links rfl)
      case right =>
        obtain ⟨hlock, hcore, hsettled⟩ := hright heq
        obtain ⟨hopen, hfailed⟩ := s.lock.opens_frame i
        rw [hlock]
        exact ⟨hopen, hfailed, hsettled.of_links rfl, hcore, Lock.opens_named hb hi⟩
    all_goals exact Settled.of_links rfl

end Sys2Proof.Machine

namespace Sys2Proof.Machine

/-! ## CLOSE_LOCK, SET_CODE and their writes (R105, R109, R111) -/

/-! ### CLOSE_LOCK (R111) -/

/-- The trial flag is clear where the two sets agree (R100). -/
theorem Lock.trial_eq_true_iff (x : Lock) : x.trial = true ↔ x.working ≠ x.reference := by
  simp [Lock.trial]

theorem State.takeClose_closed {u : State} {h : Header} (hread : u.lock.reading = false)
    (hstate : u.lock.state ≠ .opened) : u.takeClose h = u.answer h 33#8 .wrongState .empty := by
  rw [State.takeClose, State.lockRequest_read hread, if_pos hstate]

/-- An OPEN lock is closed by the tests that follow (R111). -/
theorem State.takeClose_opened {u : State} {h : Header} (hread : u.lock.reading = false)
    (hopen : u.lock.state = .opened) : u.takeClose h = u.unlessWriting h 33#8
      (if u.lock.working ≠ u.lock.reference then u.answer h 33#8 .trialPending .empty
      else if u.lock.cal = .unverified then
        (u.setLock { u.lock with write := some .verify, block := { u.lock.block with check := none } }).defer h 33#8
      else (u.setLock { u.lock with state := .locked }).answer h 33#8 .ok .empty) := by
  rw [State.takeClose, State.lockRequest_read hread, if_neg (not_not.mpr hopen)]
  refine congrArg (u.unlessWriting h 33#8) (if_congr u.lock.trial_eq_true_iff rfl ?_)
  split
  next hcal => exact (if_neg (by simp [hcal])).symm
  next hcal => exact (if_neg (by simp [hcal])).symm
  next hcal => exact (if_pos hcal).symm

/-- CLOSE_LOCK taken (R111). -/
theorem closeLock_outcomes {s : State} {h : Header} (hread : s.lock.reading = false)
    (ht : Taken s h (.closeLock (some ()))) : ∃ t, exec (.closeLock h (some ())) s = .next t
      ∧ (s.lock.state ≠ .opened → t.core = s.core ∧ Settled s t h 33#8 .wrongState .empty)
      ∧ (s.lock.state = .opened → s.lock.write ≠ none → t.core = s.core ∧ Settled s t h 33#8 .busy .empty)
      ∧ (s.lock.state = .opened → s.lock.write = none → s.lock.working ≠ s.lock.reference →
          t.core = s.core ∧ Settled s t h 33#8 .trialPending .empty)
      ∧ (s.lock.state = .opened → s.lock.write = none → s.lock.working = s.lock.reference → s.lock.cal ≠ .unverified →
          t.core = (s.setLock { s.lock with state := .locked }).core ∧ Settled s t h 33#8 .ok .empty)
      ∧ (s.lock.state = .opened → s.lock.write = none → s.lock.working = s.lock.reference → s.lock.cal = .unverified →
          t.core = (s.setLock { s.lock with
              write := some .verify, block := { s.lock.block with check := none } }).core ∧ Held s t h 33#8) := by
  have hp : h.src.port ≠ .chassis := ht.port_ne_chassis (by simp)
  have hlock : (s.popped h).lock = s.lock := by simp
  refine ⟨(s.popped h).takeClose h, congrArg Host.Outcome.next (State.request_taken s h _ () _ ht), ?_⟩
  rw [← hlock] at hread ⊢
  refine ⟨fun hclosed => settled_unchanged hp (fun _ => rfl) (State.takeClose_closed hread hclosed),
    fun hopen hw => settled_unchanged hp (fun _ => rfl) ?_, fun hopen hw htrial => settled_unchanged hp (fun _ => rfl) ?_,
    fun hopen hw htrial hcal => (setLock_settled hp ?_).2, fun hopen hw htrial hcal => setLock_held ?_⟩ <;>
    rw [State.takeClose_opened hread hopen]
  · exact State.unlessWriting_busy hw
  all_goals rw [State.unlessWriting_idle hw]
  · rw [if_pos htrial]
  · rw [if_neg (not_not.mpr htrial), if_neg hcal]
  · rw [if_neg (not_not.mpr htrial), if_pos hcal]

/-! ### SET_CODE (R105) -/

/-- The two values of an access level (R197). -/
theorem levelOf_named {b : Byte} (hb : b.toNat ≤ 1) : levelOf b = some (if b = 0#8 then .high else .maximum) := by
  have hvalue : b.toNat = 0 ∨ b.toNat = 1 := by omega
  rcases hvalue with hzero | hone
  · rw [BitVec.eq_of_toNat_eq (y := 0#8) hzero]
    rfl
  · rw [BitVec.eq_of_toNat_eq (y := 1#8) hone]
    rfl

theorem levelOf_none {b : Byte} (hb : 1 < b.toNat) : levelOf b = none := by
  unfold levelOf
  split
  · omega
  · omega
  · rfl

/-- A code of all ones or a level outside the two (R105, log 50). -/
theorem State.takeSetCode_malformed {u : State} {h : Header} {f : SetCodeFields} (hread : u.lock.reading = false)
    (hbad : 1 < f.level.toNat ∨ f.code = BitVec.allOnes 256) :
    State.takeSetCode h f u = u.answer h 34#8 .malformed .empty := by
  rw [State.takeSetCode, State.lockRequest_read hread]
  rcases hbad with hlevel | hcode
  · rw [levelOf_none hlevel]
  · cases levelOf f.level with
    | none => rfl
    | some level => exact if_pos hcode

/-- A code and a level that stand (R105). -/
theorem State.takeSetCode_named {u : State} {h : Header} {f : SetCodeFields} (hread : u.lock.reading = false)
    (hlevel : f.level.toNat ≤ 1) (hcode : f.code ≠ BitVec.allOnes 256) :
    State.takeSetCode h f u = u.openRequest h 34#8 (u.unlessWriting h 34#8 ((u.setLock { u.lock with
      write := some (.code f.code (if f.level = 0#8 then .high else .maximum)),
      codeRecord := { u.lock.codeRecord with checkGood := false } }).defer h 34#8)) := by
  rw [State.takeSetCode, State.lockRequest_read hread, levelOf_named hlevel]
  exact if_neg hcode

/-- SET_CODE taken with a code and a level that stand (R102, R105, R110). -/
theorem setCode_outcomes {s : State} {h : Header} {f : SetCodeFields} (hread : s.lock.reading = false)
    (ht : Taken s h (.setCode (some f))) (hlevel : f.level.toNat ≤ 1) (hcode : f.code ≠ BitVec.allOnes 256) :
    ∃ t, exec (.setCode h (some f)) s = .next t
      ∧ (s.lock.state = .locked → t.core = s.core ∧ Settled s t h 34#8 .locked .empty)
      ∧ (s.lock.state = .frozen → t.core = s.core ∧ Settled s t h 34#8 .frozen .empty)
      ∧ (s.lock.state = .opened → s.lock.write ≠ none → t.core = s.core ∧ Settled s t h 34#8 .busy .empty)
      ∧ (s.lock.state = .opened → s.lock.write = none →
          t.core = (s.setLock { s.lock with
              write := some (.code f.code (if f.level = 0#8 then .high else .maximum)),
              codeRecord := { s.lock.codeRecord with checkGood := false } }).core ∧ Held s t h 34#8) := by
  have hp : h.src.port ≠ .chassis := ht.port_ne_chassis (by simp)
  have hlock : (s.popped h).lock = s.lock := by simp
  refine ⟨State.takeSetCode h f (s.popped h), congrArg Host.Outcome.next (State.request_taken s h _ f _ ht), ?_⟩
  rw [← hlock] at hread ⊢
  refine ⟨fun hstate => settled_unchanged hp (fun _ => rfl) ?_, fun hstate => settled_unchanged hp (fun _ => rfl) ?_,
    fun hopen hw => settled_unchanged hp (fun _ => rfl) ?_, fun hopen hw => setLock_held ?_⟩ <;>
    rw [State.takeSetCode_named hread hlevel hcode]
  · exact State.openRequest_refused hread (by rw [hstate]; rfl)
  · exact State.openRequest_refused hread (by rw [hstate]; rfl)
  all_goals rw [State.openRequest_opened hread hopen]
  · exact State.unlessWriting_busy hw
  · exact State.unlessWriting_idle hw

/-! ### The completions (R105, R109, R111) -/

/-- The completion of work whose answer is held: the lock, and the answer on the service line (R186). -/
theorem setLock_answersHeld {s t : State} {x : Lock} {k : Byte} {c : Code}
    (ht : t = (s.setLock x).answerDeferred .service k c .empty) :
    t.lock = x ∧ t.core = (s.setLock x).core ∧ AnswersHeld s t .service k c .empty := by
  subst ht
  exact ⟨by simp, by simp, answersHeld_of_answerDeferred (by decide) rfl fun _ => rfl⟩

theorem exec_verifyWriteDone {s : State} (hw : s.lock.write = some .verify) :
    exec .verifyWriteDone s = .next ((s.setLock s.lock.verified).answerDeferred .service 33#8 .ok .empty) := by
  simp only [exec, execVerifyWriteDone, hw]

theorem exec_makerWriteDone {s : State} {withBlock : Bool} (hw : s.lock.write = some (.maker withBlock)) :
    exec .makerWriteDone s = .next (s.setLock (s.lock.makerDone withBlock)) := by
  simp only [exec, execMakerWriteDone, hw]

theorem exec_codeWriteDone {s : State} {c : LockCode} {level : AccessLevel}
    (hw : s.lock.write = some (.code c level)) : exec .codeWriteDone s
      = .next ((s.setLock (s.lock.codeDone c level)).answerDeferred .service 34#8 .ok .empty) := by
  simp only [exec, execCodeWriteDone, hw]

/-- A completion with no such write in flight changes nothing (log 3). -/
theorem exec_writeDone_idle (s : State) : (s.lock.write ≠ some .verify → exec .verifyWriteDone s = .next s)
    ∧ ((∀ withBlock, s.lock.write ≠ some (.maker withBlock)) → exec .makerWriteDone s = .next s)
    ∧ ((∀ c level, s.lock.write ≠ some (.code c level)) → exec .codeWriteDone s = .next s) := by
  refine ⟨fun hw => congrArg Host.Outcome.next ?_, fun hw => congrArg Host.Outcome.next ?_,
    fun hw => congrArg Host.Outcome.next ?_⟩ <;> split
  · exact absurd ‹_› hw
  · rfl
  · exact absurd ‹_› (hw _)
  · rfl
  · exact absurd ‹_› (hw _ _)
  · rfl

/-- Settles O41: the two requests by their branches, the completions by the lock that each leaves. -/
theorem lockClosesAndCodesAreSet : Obligations.LockClosesAndCodesAreSet := by
  unfold Obligations.LockClosesAndCodesAreSet
  intro s h hread
  obtain ⟨hverify, hmaker, hcode⟩ := exec_writeDone_idle s
  refine ⟨closeLock_outcomes hread, fun f ht => setCode_outcomes hread ht, fun f ht hbad => ?malformed, hverify, hmaker,
    hcode, fun hw => ?verified, fun withBlock hw => ?made, fun c level hw => ?coded⟩
  case malformed =>
    exact ⟨_, congrArg Host.Outcome.next (State.request_taken s h _ f _ ht), settled_unchanged
      (ht.port_ne_chassis (by simp)) (fun _ => rfl) (State.takeSetCode_malformed (by simpa using hread) hbad)⟩
  case verified =>
    obtain ⟨hlock, hcore, hanswers⟩ := setLock_answersHeld (s := s) (x := s.lock.verified) (k := 33#8) (c := .ok) rfl
    refine ⟨_, exec_verifyWriteDone hw, ?_⟩
    rw [hlock]
    exact ⟨rfl, rfl, rfl, storedBlock_good .., rfl, rfl, rfl, hcore, hanswers⟩
  case made =>
    refine ⟨_, exec_makerWriteDone hw, rfl, rfl, ?_, ?_⟩
    · rintro rfl
      rfl
    · rintro rfl
      exact storedBlock_good ..
  case coded =>
    exact ⟨_, exec_codeWriteDone hw, (setLock_answersHeld rfl).2⟩

end Sys2Proof.Machine

namespace Sys2Proof.Machine

/-! ## COMMIT and its completion (R108, R159, R163, R188) -/

/-! ### COMMIT turned away (R108, R157) -/

section takeCommit
variable {u : State} {h : Header}

theorem State.takeCommit_exhausted (hu : u.lock.TakesTrials) (hcec : 65535 ≤ u.lock.cec) :
    u.takeCommit h = u.answer h 37#8 .counterExhausted .empty := by
  obtain ⟨hread, hopen, hwrite⟩ := hu
  rw [State.takeCommit, State.openRequest_opened hread hopen, State.unlessWriting_idle hwrite, if_pos hcec]

theorem State.takeCommit_notReady (hu : u.lock.TakesTrials) (hcec : u.lock.cec < 65535)
    (hshadow : u.shadow.state ≠ .ready) : u.takeCommit h = u.answer h 37#8 .shadowNotReady .empty := by
  obtain ⟨hread, hopen, hwrite⟩ := hu
  rw [State.takeCommit, State.openRequest_opened hread hopen, State.unlessWriting_idle hwrite, if_neg (by omega)]
  split
  next hready _ => exact absurd hready hshadow
  next => rfl

/-- With a READY shadow the journal decides (R108, R157). -/
theorem State.takeCommit_ready {check : Word32} (hu : u.lock.TakesTrials) (hcec : u.lock.cec < 65535)
    (hshadow : u.shadow.state = .ready) (hcheck : u.shadow.check = some check) : u.takeCommit h =
      if u.journal.starting then u.answer h 37#8 .busy .empty
      else if u.journal.canGrant then (u.grant.startCommit check).defer h 37#8
      else u.answer h 37#8 .journalFull .empty := by
  obtain ⟨hread, hopen, hwrite⟩ := hu
  rw [State.takeCommit, State.openRequest_opened hread hopen, State.unlessWriting_idle hwrite, if_neg (by omega),
    hshadow, hcheck]

end takeCommit

/-! ### COMMIT taken: a reservation, and the write started (R108, R157, R163) -/

/-- A grant that takes free − reserved below 256 sets the low flag and sends JOURNAL_LOW (R163). -/
theorem State.grant_crosses {s : State} (hlow : s.journal.low = false)
    (hshort : s.journal.free < s.journal.reserved + 1 + 256) :
    s.grant = (s.setJournal { s.journal with reserved := s.journal.reserved + 1, low := true }).alert
      (.journalLow s.journal.free (s.journal.reserved + 1)) :=
  if_neg (by simp [Journal.ample, Config.lowMargin, hlow]; omega)

/-- Any other grant takes the reservation alone (R157, R163). -/
theorem State.grant_quiet {s : State} (h : s.journal.low = true ∨ s.journal.reserved + 1 + 256 ≤ s.journal.free) :
    s.grant = s.setJournal { s.journal with reserved := s.journal.reserved + 1 } :=
  if_pos (by
    rcases h with hlow | hample
    · simp [hlow]
    · simp [Journal.ample, Config.lowMargin, hample])

/-- A grant touches the body link at most (R163). -/
theorem State.grant_port {q : Port} (hq : q ≠ .body) (s : State) : s.grant.port q = s.port q := by
  unfold State.grant State.testLow
  split
  · rfl
  · exact State.alert_port hq _ _

/-- A request of the service line taken and held leaves the body link (R182). -/
theorem State.service_body {h : Header} (hp : h.src.port = .service) (s : State) (k : Byte) :
    (s.popped h).links.body = s.links.body ∧ (s.defer h k).links.body = s.links.body := by
  unfold State.popped State.defer
  rw [hp]
  exact ⟨rfl, rfl⟩

/-- A commit write started: the check of the block erased, the set and the mask in the write (R108). -/
theorem State.startCommit_lock (s : State) (check : Word32) :
    (s.startCommit check).lock = { s.lock with
      block := { s.lock.block with check := none },
      write := some (.commit s.lock.working check (changedMask s.lock (some check))) } := rfl

/-- COMMIT with everything in place (R108, R157, R163). -/
theorem commit_started {s t : State} {h : Header} {check : Word32} (hp : h.src.port = .service)
    (ht : t = ((s.popped h).grant.startCommit check).defer h 37#8) :
    t.lock.write = some (.commit s.lock.working check (changedMask s.lock (some check)))
      ∧ t.lock.block = { s.lock.block with check := none } ∧ t.lock.cec = s.lock.cec
      ∧ t.journal.reserved = s.journal.reserved + 1 ∧ t.journal.queue = s.journal.queue
      ∧ (t.port h.src.port).deferred = (s.port h.src.port).deferred ++ [⟨h, 37#8⟩]
      ∧ (s.journal.low = false → s.journal.free < s.journal.reserved + 1 + 256 → t.journal.low = true
          ∧ Indicated s t (.alert (.journalLow s.journal.free (s.journal.reserved + 1))))
      ∧ (s.journal.low = true ∨ s.journal.reserved + 1 + 256 ≤ s.journal.free →
          t.journal.low = s.journal.low ∧ t.links.body = s.links.body)
      ∧ t.weigh = s.weigh ∧ t.lcc = s.lcc ∧ SameStores s t := by
  have hjournal : (s.popped h).journal = s.journal := by simp
  have htjournal : t.journal = (s.popped h).grant.journal := by rw [ht]; simp [State.startCommit]
  have hlock : t.lock = ((s.popped h).grant.startCommit check).lock := by rw [ht]; simp
  obtain ⟨hpopped, -⟩ := State.service_body hp s 37#8
  have hbody : t.links.body = (s.popped h).grant.links.body := by
    obtain ⟨-, hdefer⟩ := State.service_body hp ((s.popped h).grant.startCommit check) 37#8
    rw [ht, hdefer]
    rfl
  have hdeferred : (t.port h.src.port).deferred = (s.port h.src.port).deferred ++ [⟨h, 37#8⟩] := by
    have hport : ((s.popped h).grant.startCommit check).port h.src.port = (s.popped h).port h.src.port :=
      (State.port_of_links rfl _).trans (State.grant_port (by simp [hp]) _)
    rw [ht, State.defer, State.port_setPort_same, hport, State.popped_port, if_pos rfl]
  rw [State.startCommit_lock] at hlock
  refine ⟨by simp [hlock], by simp [hlock], by simp [hlock], by simp [htjournal], by simp [htjournal], hdeferred,
    fun hlow hshort => ⟨?low, Gains.indicated ?told⟩, fun hquiet => ?quiet, ?_⟩
  case low =>
    rw [htjournal, State.grant_crosses (by rwa [hjournal]) (by rwa [hjournal])]
    simp
  case told =>
    have hgains : Gains (s.popped h) (s.popped h).grant
        [alertTold (.journalLow s.journal.free (s.journal.reserved + 1))] := by
      simpa [State.lowTold, hlow, hshort] using State.grant_gains (s.popped h)
    rwa [Gains, hpopped, ← hbody] at hgains
  case quiet =>
    rw [htjournal, hbody, State.grant_quiet (by rwa [hjournal])]
    exact ⟨by simp, hpopped⟩
  rw [ht]
  simp [SameStores, State.startCommit]

/-- The calibration tool's requests come in on the service line (R182). -/
theorem port_of_calTool {n : Node} (h : (n == .calTool) = true) : n.port = .service := by
  rw [beq_iff_eq.mp h]
  rfl

/-- COMMIT at an OPEN lock with no write in flight (R108, R157, R163). -/
theorem commit_outcomes {s : State} {h : Header} (hs : s.lock.TakesTrials) (ht : Taken s h (.commit (some ()))) :
    ∃ t, exec (.commit h (some ())) s = .next t
      ∧ (65535 ≤ s.lock.cec → t.core = s.core ∧ Settled s t h 37#8 .counterExhausted .empty)
      ∧ (s.lock.cec < 65535 → s.shadow.state ≠ .ready →
          t.core = s.core ∧ Settled s t h 37#8 .shadowNotReady .empty)
      ∧ ∀ check, s.lock.cec < 65535 → s.shadow.state = .ready → s.shadow.check = some check →
        (s.journal.starting = true → t.core = s.core ∧ Settled s t h 37#8 .busy .empty)
        ∧ (s.journal.starting = false → s.journal.canGrant = false →
            t.core = s.core ∧ Settled s t h 37#8 .journalFull .empty)
        ∧ (s.journal.starting = false → s.journal.canGrant = true →
            t = ((s.popped h).grant.startCommit check).defer h 37#8) := by
  have hp : h.src.port ≠ .chassis := ht.port_ne_chassis (by simp)
  have hlock : (s.popped h).lock = s.lock := by simp
  have hshadow : (s.popped h).shadow = s.shadow := by simp
  have hjournal : (s.popped h).journal = s.journal := by simp
  refine ⟨(s.popped h).takeCommit h, congrArg Host.Outcome.next (State.request_taken s h _ () _ ht), ?_⟩
  rw [← hlock] at hs ⊢
  rw [← hshadow, ← hjournal]
  refine ⟨fun hcec => settled_unchanged hp (fun _ => rfl) (State.takeCommit_exhausted hs hcec),
    fun hcec hstate => settled_unchanged hp (fun _ => rfl) (State.takeCommit_notReady hs hcec hstate),
    fun check hcec hstate hcheck => ?_⟩
  rw [State.takeCommit_ready hs hcec hstate hcheck]
  exact ⟨fun hstart => settled_unchanged hp (fun _ => rfl) (if_pos hstart),
    fun hstart hfull => settled_unchanged hp (fun _ => rfl) (by rw [hstart, hfull]; rfl),
    fun hstart hgrant => by rw [hstart, hgrant]; rfl⟩

/-! ### The completion (R96, R108, R159) -/

/-- A record staged joins the queue under the next number, against a reservation (R159). -/
theorem State.stage_counts (s : State) (r : Record) :
    (s.stage r).journal.queue = s.journal.queue ++ [{ r with seq := s.journal.nextSeq }]
      ∧ (s.stage r).journal.reserved = s.journal.reserved - 1 := by
  have hwrite : ∀ j : Journal, j.startWrite.queue = j.queue ∧ j.startWrite.reserved = j.reserved := fun j => by
    simp only [Journal.startWrite, Journal.setSector]
    (repeat' split) <;> exact ⟨rfl, rfl⟩
  simp [State.stage, hwrite]

/-- A record staged touches the body link at most (R159, R188). -/
theorem State.stage_port {q : Port} (hq : q ≠ .body) (s : State) (r : Record) : (s.stage r).port q = s.port q := by
  simp only [State.stage, State.indicate_eq]
  split
  · exact State.port_setPort_other _ _ _ _ hq
  · rfl

/-- The engine is ENABLED at IDLE where the calibration is not INVALID (R96). -/
theorem State.testEnable_enables {s : State} (hcal : s.lock.cal ≠ .invalid) (hphase : s.lcc.phase = .idle)
    (hread : s.lock.reading = false) : s.testEnable.weigh.enabled = true := by
  unfold State.testEnable
  split
  next => rfl
  next hkept => simpa [hcal, hphase, hread] using hkept

/-- The CALIBRATION record that a completed commit stages, before its number (R108). -/
def State.commitRecord (s : State) (p : Params) (check mask : Word32) : Record :=
  (s.setLock (s.lock.committed p check)).calibrationRecord mask

/-- The state of a completed commit before its answer (R96, R108). -/
def State.committed (s : State) (p : Params) (check mask : Word32) : State :=
  ((s.setLock (s.lock.committed p check)).stage (s.commitRecord p check mask)).testEnable

section completion
variable {s : State} {p : Params} {check mask : Word32}

theorem State.finishCommit_commit (hw : s.lock.write = some (.commit p check mask)) :
    s.finishCommit = (s.committed p check mask).answerDeferred .service 37#8 .ok (.cec (s.lock.cec + 1)) := by
  have hcec : (s.committed p check mask).lock.cec = s.lock.cec + 1 := by simp [State.committed, Lock.committed]
  rw [← hcec]
  simp only [State.finishCommit, hw]
  rfl

/-- The record that a completed commit stages (R108, R159). -/
theorem State.committed_record : ∃ r, (s.committed p check mask).journal.queue = s.journal.queue ++ [r]
    ∧ r.kind = .calibration ∧ r.flags = mask ∧ r.cec = s.lock.cec + 1 ∧ r.seq = s.journal.nextSeq
    ∧ r.time = (if s.inter.timeValid then some s.inter.seconds else none) := by
  obtain ⟨hqueue, -⟩ := (s.setLock (s.lock.committed p check)).stage_counts (s.commitRecord p check mask)
  exact ⟨_, by simpa [State.committed] using hqueue, rfl, rfl, rfl, rfl, rfl⟩

/-- A completed commit tells of its record alone (R159, R188). -/
theorem State.committed_gains : Gains s (s.committed p check mask) [recordTold s.journal.nextSeq .calibration] := by
  have hstaged : Gains s ((s.setLock (s.lock.committed p check)).stage (s.commitRecord p check mask))
      [recordTold s.journal.nextSeq .calibration] :=
    (State.stage_gains (s.setLock (s.lock.committed p check)) (s.commitRecord p check mask)).before rfl
  exact hstaged.after (by simp [State.committed])

theorem State.committed_port {q : Port} (hq : q ≠ .body) : (s.committed p check mask).port q = s.port q := by
  have hlinks : (s.committed p check mask).links
      = ((s.setLock (s.lock.committed p check)).stage (s.commitRecord p check mask)).links := by simp [State.committed]
  rw [State.port_of_links hlinks, State.stage_port hq]
  exact State.port_of_links rfl q

end completion

/-- Settles O43: COMMIT by its checks in their order and `commit_started`; the completion by the record it stages and the lock it
leaves; the counter cell by its own completion. -/
theorem commitRaisesTheCec : Obligations.CommitRaisesTheCec := by
  unfold Obligations.CommitRaisesTheCec
  refine fun s h hread => ⟨fun ht hopen hw => ?request, fun p check mask hw => ?completion, fun hw => ?counter⟩
  case request =>
    obtain ⟨t, hexec, hexhausted, hnotReady, hready⟩ := commit_outcomes ⟨hread, hopen, hw⟩ ht
    refine ⟨t, hexec, hexhausted, hnotReady, fun check hcec hstate hcheck => ?_⟩
    obtain ⟨hstarting, hfull, hgranted⟩ := hready check hcec hstate hcheck
    exact ⟨hstarting, hfull, fun hstart hgrant => commit_started (port_of_calTool ht.2) (hgranted hstart hgrant)⟩
  case completion =>
    have hlock : s.finishCommit.lock = s.lock.committed p check := State.finishCommit_lock hw
    refine ⟨s.finishCommit, rfl, ?_⟩
    rw [hlock, State.finishCommit_commit hw]
    refine ⟨rfl, rfl, rfl, rfl, rfl, rfl, storedBlock_good .., ?record, ?reserved, fun hphase => ?enabled,
      fun hheld => ?told, ?comps, ?stores, ?answers⟩
    case record => simpa using State.committed_record
    case reserved => simp [State.committed, State.stage_counts]
    case enabled =>
      have henabled : (s.committed p check mask).weigh.enabled = true :=
        State.testEnable_enables (by simp [Lock.committed]) (by simpa) (by simpa [Lock.committed])
      simpa using henabled
    case told =>
      have hport : (s.committed p check mask).port .service = s.port .service := State.committed_port (by decide)
      have hbody : ((s.committed p check mask).answerDeferred .service 37#8 .ok (.cec (s.lock.cec + 1))).links.body
          = (s.committed p check mask).links.body :=
        State.answerDeferred_port_other (q := .body) (by decide) (by rwa [hport]) _ _ _
      have hgains : Gains s (s.committed p check mask) [recordTold s.journal.nextSeq .calibration] :=
        State.committed_gains
      rw [Gains, ← hbody] at hgains
      exact Gains.tells rfl rfl hgains
    case comps => simp [State.committed]
    case stores => simp [SameStores, State.committed]
    case answers =>
      exact answersHeld_of_answerDeferred (by decide) (State.committed_port (by decide)) fun _ => rfl
  case counter => simp only [exec, execCounterWriteDone, hw]

end Sys2Proof.Machine

namespace Sys2Proof.Machine

/-! ## What keeps a predicate through an expiry (R30 to R41) -/

/-- A predicate of the state that a new record of the channel keeps, its fault, its END and the marks it delivers. -/
structure KeptInExpiry (K : State → Prop) (c : Channel) : Prop where
  record : ∀ {s : State} (r : Chan), K s → K (s.setChan c r)
  fault : ∀ {s : State} (k : FaultKind) (a : Nat), K s → K (s.failChan c k a)
  fin : ∀ {s : State}, K s → K (s.endChan c)
  mark : ∀ {s t : State} {code : Nat}, s.deliver c code = some t → K s → K t

section expiry
variable {K : State → Prop} {c : Channel} {s : State}

theorem KeptInExpiry.advance (h : KeptInExpiry K c) (hs : K s) : K (s.advance c).1 := by
  unfold State.advance
  dsimp only
  split
  · exact h.record _ hs
  · exact h.fault _ _ hs

theorem KeptInExpiry.completeElement (h : KeptInExpiry K c) (hs : K s) (u : Int) : K (s.completeElement c u) :=
  h.advance (h.record _ hs)

theorem KeptInExpiry.rampStep (h : KeptInExpiry K c) (hs : K s) (u0 target : Int) (k n : Nat) :
    K (s.rampStep c u0 target k n) := by
  unfold State.rampStep
  dsimp only
  split
  · exact h.record _ hs
  · exact h.completeElement hs _

theorem KeptInExpiry.deltaAt (h : KeptInExpiry K c) (hs : K s) (d : Int) (scale k : Nat) : K (s.deltaAt c d scale k) := by
  unfold State.deltaAt
  dsimp only
  split
  · exact h.record _ hs
  · exact h.completeElement hs _

theorem KeptInExpiry.holdStep (h : KeptInExpiry K c) (hs : K s) (n : Nat) : K (s.holdStep c n) := by
  unfold State.holdStep
  split
  · exact h.record _ hs
  · exact h.completeElement hs _

theorem KeptInExpiry.passAwait (h : KeptInExpiry K c) (hs : K s) : K (s.passAwait c).1 := h.advance (h.record _ hs)

theorem KeptInExpiry.countAwait (h : KeptInExpiry K c) (hs : K s) : K (s.countAwait c) := by
  unfold State.countAwait
  dsimp only
  split
  · exact hs
  · split
    · exact h.fault _ _ (h.record _ hs)
    · exact h.record _ hs

theorem KeptInExpiry.reach (h : KeptInExpiry K c) (n : Nat) (hs : K s) : K (s.reach n c) := by
  induction n generalizing s with
  | zero => exact hs
  | succ n ih =>
    have hnext : ∀ {u : State}, K u → K (if (u.advance c).2 then State.reach n (u.advance c).1 c else (u.advance c).1) :=
      fun {u} hu => by
        split
        · exact ih (h.advance hu)
        · exact h.advance hu
    unfold State.reach
    dsimp only
    split
    · exact h.fault _ _ hs
    split
    · exact h.fault _ _ hs
    split
    case h_1 => exact h.completeElement hs _
    case h_2 => exact h.rampStep hs _ _ _ _
    case h_3 => exact h.deltaAt hs _ _ _
    case h_4 => exact h.holdStep hs _
    case h_5 => exact hnext (h.record _ hs)
    case h_6 =>
      split
      next hd => exact hnext (h.record _ (h.mark hd hs))
      next => exact h.fault _ _ hs
    case h_7 =>
      split
      · exact hnext (h.record _ hs)
      · exact h.record _ hs
    case h_8 => exact h.fin hs
    case h_9 => exact h.fault _ _ hs

theorem KeptInExpiry.continueElement (h : KeptInExpiry K c) (hs : K s) (r : Chan) : K (s.continueElement c r) := by
  unfold State.continueElement
  split
  case h_1 => exact h.rampStep hs _ _ _ _
  case h_2 | h_3 | h_4 => exact h.deltaAt hs _ _ _
  case h_5 => exact h.holdStep hs _
  case h_6 =>
    have hpassed : K (s.passAwait c).1 := h.passAwait hs
    split
    · split <;> rename_i hres <;> rw [hres] at hpassed
      · exact h.reach _ hpassed
      · exact hpassed
    · exact h.countAwait hs
  case h_7 => exact h.reach _ hs

/-- An expiry works through new records of its channel, its fault, its END and the marks it delivers, and nothing else. -/
theorem KeptInExpiry.expire (h : KeptInExpiry K c) (hs : K s) : K (s.expire c) := by
  unfold State.expire
  dsimp only
  split
  · exact h.continueElement hs _
  all_goals exact hs

end expiry

/-! ## The household table and the pin of the lift in flight (R3, R124, R129) -/

/-! ### What the invariants ask, and what an operation leaves of it -/

/-- The lift is in APPROACH, in motion or halted there. -/
def Lcc.Approaching (x : Lcc) : Prop := x.phase = .run .approach ∨ (x.phase = .halted ∧ x.haltedPhase = some .approach)

/-- A pinned entry is the one that the lift in flight pinned (R129). -/
def PinsOwned (s : State) : Prop := ∀ e ∈ s.houses.table, e.pinned = true → s.lcc.ctx.bind LiftCtx.pin = some e.tag

/-- What `PinsHeld` asks beside the order. At the end of APPROACH, where the decision pins an entry before the next phase is
entered, the pins are owned and this does not hold. -/
structure PinsFit (s : State) : Prop where
  owned : PinsOwned s
  idle : s.lcc.phase = .idle → s.lcc.ctx = none
  undecided : s.lcc.Approaching → s.lcc.ctx.bind LiftCtx.pin = none

theorem pinsHeld_iff (s : State) : PinsHeld s ↔ TableOrdered s ∧ PinsFit s :=
  ⟨fun ⟨hordered, howned, hidle, hundecided⟩ => ⟨hordered, howned, hidle, hundecided⟩,
    fun ⟨hordered, howned, hidle, hundecided⟩ => ⟨hordered, howned, hidle, hundecided⟩⟩

/-- The tags of the table, in their order, and which of them are pinned. -/
def Houses.marks (x : Houses) : List (TagId × Bool) := x.table.map fun e => (e.tag, e.pinned)

/-- The tags of the table, in their order. -/
def Houses.tags (x : Houses) : List TagId := x.table.map Entry.tag

theorem Houses.tags_eq_of_marks {x y : Houses} (h : y.marks = x.marks) : y.tags = x.tags := by
  have hfst : ∀ z : Houses, z.tags = z.marks.map Prod.fst := fun z => by simp [Houses.tags, Houses.marks, Function.comp_def]
  rw [hfst, hfst, h]

theorem Houses.pinned_iff (x : Houses) (tag : TagId) :
    (tag, true) ∈ x.marks ↔ ∃ e ∈ x.table, e.pinned = true ∧ e.tag = tag := by
  simp [Houses.marks, and_comm]

theorem tableOrdered_iff (s : State) : TableOrdered s
    ↔ s.houses.tags.Pairwise (fun a b => a.toNat < b.toNat) ∧ s.houses.tags.length ≤ Config.tableCapacity := by
  simp [TableOrdered, Houses.tags, List.pairwise_map]

/-- The tags of the table stand, and the pins go on fitting the lift. -/
structure KeepsPins (s t : State) : Prop where
  tags : t.houses.tags = s.houses.tags
  pins : PinsFit s → PinsFit t

/-- Two states that agree on the tags of the table and its pins, and on the phase and the pin of the lift. -/
@[simp] def SamePins (s t : State) : Prop :=
  t.houses.marks = s.houses.marks ∧ t.lcc.phase = s.lcc.phase ∧ t.lcc.haltedPhase = s.lcc.haltedPhase
    ∧ t.lcc.ctx.map LiftCtx.pin = s.lcc.ctx.map LiftCtx.pin

theorem bind_pin (x : Option LiftCtx) : x.bind LiftCtx.pin = (x.map LiftCtx.pin).join := by cases x <;> rfl

/-- Pins are owned by the table's marks and the lift's pin alone. -/
theorem PinsOwned.of_same {s t : State} (hs : PinsOwned s) (hmarks : t.houses.marks = s.houses.marks)
    (hpin : t.lcc.ctx.map LiftCtx.pin = s.lcc.ctx.map LiftCtx.pin) : PinsOwned t := by
  intro e he hpinned
  have hmark : (e.tag, true) ∈ s.houses.marks := hmarks ▸ (t.houses.pinned_iff e.tag).mpr ⟨e, he, hpinned, rfl⟩
  obtain ⟨f, hf, hfp, htag⟩ := (s.houses.pinned_iff e.tag).mp hmark
  rw [bind_pin, hpin, ← bind_pin, hs f hf hfp, htag]

theorem SamePins.keeps {s t : State} (h : SamePins s t) : KeepsPins s t := by
  obtain ⟨hmarks, hphase, hhalted, hpin⟩ := h
  refine ⟨Houses.tags_eq_of_marks hmarks, fun hs => ⟨hs.owned.of_same hmarks hpin, fun hidle => ?_, ?_⟩⟩
  · rw [← Option.map_eq_none_iff (f := LiftCtx.pin), hpin, Option.map_eq_none_iff]
    exact hs.idle (hphase ▸ hidle)
  · rw [Lcc.Approaching, hphase, hhalted, bind_pin, hpin, ← bind_pin]
    exact hs.undecided

theorem SamePins.trans {s t u : State} (h : SamePins s t) (k : SamePins t u) : SamePins s u := by
  obtain ⟨hmarks, hphase, hhalted, hpin⟩ := h
  obtain ⟨kmarks, kphase, khalted, kpin⟩ := k
  exact ⟨kmarks.trans hmarks, kphase.trans hphase, khalted.trans hhalted, kpin.trans hpin⟩

theorem KeepsPins.refl (s : State) : KeepsPins s s := ⟨rfl, id⟩

theorem KeepsPins.trans {s t u : State} (h : KeepsPins s t) (k : KeepsPins t u) : KeepsPins s u :=
  ⟨k.tags.trans h.tags, k.pins ∘ h.pins⟩

/-- What is kept after a change of neither table nor lift. -/
theorem KeepsPins.before {s t u : State} (h : KeepsPins t u) (hs : SamePins s t) : KeepsPins s u := hs.keeps.trans h

/-- What is kept before a change of neither table nor lift. -/
theorem KeepsPins.after {s t u : State} (h : KeepsPins s t) (hu : SamePins t u) : KeepsPins s u := h.trans hu.keeps

theorem KeepsPins.refresh {s t : State} (h : KeepsPins s t) : KeepsPins s t.refresh := h.after (by simp)
theorem KeepsPins.recomputeQa {s t : State} (h : KeepsPins s t) : KeepsPins s t.recomputeQa := h.after (by simp)
theorem KeepsPins.alert {s t : State} (h : KeepsPins s t) (a : Alert) : KeepsPins s (t.alert a) := h.after (by simp)
theorem KeepsPins.mapPackers {s t : State} (h : KeepsPins s t) (w : Origin → Bool) (f : Chan → Chan) :
    KeepsPins s (t.mapPackers w f) := h.after (by simp)

theorem KeepsPins.ite {c : Prop} [Decidable c] {s t u : State} (ht : c → KeepsPins s t) (hu : KeepsPins s u) :
    KeepsPins s (if c then t else u) := by
  split
  · exact ht ‹_›
  · exact hu

/-- A cycle without a context has no pin to hold, in whatever phase it is. -/
theorem PinsOwned.fit_of_no_lift {s : State} (hs : PinsOwned s) (h : s.lcc.ctx = none) : PinsFit s :=
  ⟨hs, fun _ => h, fun _ => by rw [h]; rfl⟩

/-- A lift in flight needs its pins owned, and none in APPROACH. -/
theorem PinsOwned.fit {s : State} (hs : PinsOwned s) (hidle : s.lcc.phase ≠ .idle)
    (hundecided : s.lcc.Approaching → s.lcc.ctx.bind LiftCtx.pin = none) : PinsFit s :=
  ⟨hs, fun h => absurd h hidle, hundecided⟩

/-! ### The table's operations (R124, R129) -/

/-- An entry changed in neither tag nor pin leaves the marks. -/
theorem Houses.update_marks (x : Houses) (tag : TagId) {f : Entry → Entry}
    (hf : ∀ e, (f e).tag = e.tag ∧ (f e).pinned = e.pinned) :
    (x.update tag f).marks = x.marks := by
  simp only [Houses.marks, Houses.update, List.map_map]
  refine List.map_congr_left fun e _ => ?_
  rw [Function.comp_apply]
  split <;> simp [hf]

@[simp] theorem Houses.pin_tags (x : Houses) (tag : TagId) (v : Bool) : (x.pin tag v).tags = x.tags := by
  simp only [Houses.tags, Houses.pin, Houses.update, List.map_map]
  refine List.map_congr_left fun e _ => ?_
  rw [Function.comp_apply]
  split <;> rfl

/-- After a pin is set or released, a pinned entry is the one pinned now, or another that was. -/
theorem Houses.pinned_of_pin {x : Houses} {tag : TagId} {v : Bool} {e : Entry} (he : e ∈ (x.pin tag v).table)
    (hpinned : e.pinned = true) : (e.tag = tag ∧ v = true) ∨ (e.tag ≠ tag ∧ e ∈ x.table) := by
  obtain ⟨f, hf, rfl⟩ := List.mem_map.mp he
  by_cases htag : f.tag = tag
  · exact .inl ⟨by simp [htag], by simpa [htag] using hpinned⟩
  · exact .inr ⟨by simp [htag], by simpa [htag] using hf⟩

/-! ### What changes neither the table nor the pin -/

/-- A change of the context that leaves its pin. -/
theorem State.mapCtx_samePins (s : State) {f : LiftCtx → LiftCtx} (hf : ∀ x, (f x).pin = x.pin) :
    SamePins s (s.mapCtx f) := by
  simp [State.mapCtx, Function.comp_def, hf]

@[simp] theorem LiftCtx.offerTag_pin (x : LiftCtx) (r : TagResult) (n : Nat) : (x.offerTag r n).pin = x.pin := by
  unfold LiftCtx.offerTag
  split <;> rfl

theorem State.closeTags_samePins (s : State) : SamePins s s.closeTags :=
  SamePins.trans (t := s.setHouses { s.houses with
      windowOpen := false, lastResult := some (tagResult s.houses.tagList, s.houses.overflow) })
    (by simp [Houses.marks]) (State.mapCtx_samePins _ fun x => x.offerTag_pin _ _)

theorem State.openWindow_samePins (s : State) (k : WindowKind) : SamePins s (s.openWindow k) := by
  unfold State.openWindow
  split
  · simp
  · exact s.mapCtx_samePins fun x => by rw [x.openedDisabled_eq]

theorem State.closeWindow_samePins (s : State) : SamePins s s.closeWindow := by
  cases hw : s.weigh.window with
  | none => simp [State.closeWindow, hw]
  | some w =>
    have hpin : ∀ x : LiftCtx, (x.windowEnds (some w)).pin = x.pin := fun x => by
      unfold LiftCtx.windowEnds
      dsimp only
      split <;> rfl
    rw [State.closeWindow_eq hw]
    simp [Function.comp_def, hpin]

@[simp] theorem LiftCtx.offerGross_pin (x : LiftCtx) (c : Capture) : (x.offerGross c).pin = x.pin := by
  rw [x.offerGross_eq]
  split <;> rfl

@[simp] theorem LiftCtx.offerTare_pin (x : LiftCtx) (c : Capture) : (x.offerTare c).pin = x.pin := by
  rw [x.offerTare_eq]
  split <;> rfl

theorem State.handCapture_samePins (s : State) (w : Window) (c : Capture) : SamePins s (s.handCapture w c) := by
  unfold State.handCapture
  split
  · simp
  · exact SamePins.trans (s.mapCtx_samePins fun x => x.offerGross_pin c) (by simp)
  · exact s.mapCtx_samePins fun x => x.offerTare_pin c

theorem State.blockArrival_samePins (s : State) (b : Block) : SamePins s (s.blockArrival b) := by
  unfold State.blockArrival
  dsimp only
  split
  · split
    · split
      · exact SamePins.trans (by simp) (State.handCapture_samePins _ _ _)
      · simp
    · simp
  · simp

theorem State.workPair_samePins (s : State) (cA cB : BitVec 24) : SamePins s (s.workPair cA cB) := by
  unfold State.workPair
  dsimp only
  split
  · simp
  · split
    · simp
    · exact SamePins.trans (by simp) (State.blockArrival_samePins _ _)

/-- Billing a household leaves its tag and its pin (R132, R133). -/
theorem State.stageLift_samePins (s : State) (x : LiftCtx) : SamePins s (s.stageLift x) := by
  have hbilled : ∀ (e : Entry) (b : Bill) (n : Nat), (s.houses.update e.tag fun e => e.billed b n).marks = s.houses.marks :=
    fun e b n => s.houses.update_marks _ fun e => ⟨rfl, rfl⟩
  unfold State.stageLift
  dsimp only
  split <;> simp [hbilled]

/-! ### A record staged (R14, R129) -/

/-- The lift's last act: its pin released, its context given up, IDLE (R14, R129). -/
theorem SamePins.staged {s t : State} (h : SamePins s t) {x : LiftCtx} (hx : s.lcc.ctx = some x) :
    KeepsPins s (((match x.pin with
      | some tag => t.setHouses (t.houses.pin tag false)
      | none => t).dropTags.setLcc Lcc.reset).sendPhase.testEnable.testSnapshot) := by
  have htail : ∀ u : State, u.houses.tags = t.houses.tags →
      (PinsOwned t → ∀ e ∈ u.houses.table, e.pinned = false) →
      KeepsPins s ((u.dropTags.setLcc Lcc.reset).sendPhase.testEnable.testSnapshot) := fun u htags hfree => by
    have htable : ((u.dropTags.setLcc Lcc.reset).sendPhase.testEnable.testSnapshot).houses.table = u.houses.table := by
      simp [State.dropTags]
    have hreset : ((u.dropTags.setLcc Lcc.reset).sendPhase.testEnable.testSnapshot).lcc = Lcc.reset := by simp
    refine ⟨?_, fun hs => PinsOwned.fit_of_no_lift ?_ ?_⟩
    · rw [Houses.tags, htable, ← h.keeps.tags, ← htags, Houses.tags]
    · intro e he hpinned
      rw [htable] at he
      rw [hfree (h.keeps.pins hs).owned e he] at hpinned
      cases hpinned
    · rw [hreset]
      rfl
  have hpin : t.lcc.ctx.bind LiftCtx.pin = x.pin := by
    rw [bind_pin, h.2.2.2, hx]
    rfl
  split
  next tag htag =>
    refine htail _ (by simp) fun howned e he => ?_
    by_contra hpinned
    rcases Houses.pinned_of_pin he (by simpa using hpinned) with ⟨-, hv⟩ | ⟨hne, hmem⟩
    · cases hv
    · have hsame := howned e hmem (by simpa using hpinned)
      rw [hpin, htag] at hsame
      exact hne (Option.some.inj hsame).symm
  next hnone =>
    refine htail t rfl fun howned e he => ?_
    by_contra hpinned
    have hsame := howned e he (by simpa using hpinned)
    rw [hpin, hnone] at hsame
    cases hsame

theorem State.stageCycle_keepsPins (s : State) : KeepsPins s s.stageCycle := by
  unfold State.stageCycle
  split
  · exact .refl s
  next x hx =>
    refine SamePins.staged ?_ hx
    split
    · exact s.stageLift_samePins x
    · simp
    · simp

/-! ### Halts, causes and STUCK (R18, R19, R23) -/

theorem State.enterStuck_keepsPins (s : State) : KeepsPins s s.enterStuck := by
  have hmarks : s.enterStuck.houses.marks = s.houses.marks := by simp [State.enterStuck, State.dropTags, Houses.marks]
  have hlcc : s.enterStuck.lcc.phase = .stuck ∧ s.enterStuck.lcc.ctx = s.lcc.ctx := by simp [State.enterStuck]
  obtain ⟨hphase, hctx⟩ := hlcc
  refine ⟨Houses.tags_eq_of_marks hmarks, fun hs => PinsOwned.fit (hs.owned.of_same hmarks (by rw [hctx])) ?_ fun h => ?_⟩
  · simp [hphase]
  · simp [Lcc.Approaching, hphase] at h

/-- A lift that halts in APPROACH has no pin yet (R18, R129). -/
theorem State.halt_keepsPins (s : State) {p : ProfilePhase} (hp : s.lcc.phase = .run p) (causes : Causes)
    (faults : Six (Option FaultKind)) : KeepsPins s (s.halt p causes faults) := by
  have hmarks : (s.halt p causes faults).houses.marks = s.houses.marks := by simp
  have hlcc : (s.halt p causes faults).lcc.phase = .halted ∧ (s.halt p causes faults).lcc.haltedPhase = some p
      ∧ (s.halt p causes faults).lcc.ctx.map LiftCtx.pin = s.lcc.ctx.map LiftCtx.pin := by
    simp [State.halt, State.mapCtx, Function.comp_def]
  obtain ⟨hphase, hhalted, hpin⟩ := hlcc
  refine ⟨Houses.tags_eq_of_marks hmarks, fun hs => PinsOwned.fit (hs.owned.of_same hmarks hpin) ?_ fun h => ?_⟩
  · simp [hphase]
  · rw [bind_pin, hpin, ← bind_pin]
    exact hs.undecided (.inl (by simp_all [Lcc.Approaching]))

theorem State.addCause_keepsPins (s : State) (c : InterlockCause) : KeepsPins s (s.addCause c) := by
  unfold State.addCause
  split
  next p hp => exact s.halt_keepsPins hp _ _
  next => exact .ite (fun _ => .refl s) (SamePins.keeps (by simp))
  all_goals exact .refl s

theorem State.removeCause_samePins (s : State) (c : InterlockCause) : SamePins s (s.removeCause c) := by
  unfold State.removeCause
  split <;> simp

theorem State.cycleFault_keepsPins (s : State) (c : Channel) (k : FaultKind) : KeepsPins s (s.cycleFault c k) := by
  unfold State.cycleFault
  split
  next => exact s.enterStuck_keepsPins
  next p hp => exact s.halt_keepsPins hp _ _
  next => exact .ite (fun _ => s.enterStuck_keepsPins) (SamePins.keeps (by simp))
  all_goals exact .refl s

theorem State.reportStarts_keepsPins (s : State) (l : List Channel) : KeepsPins s (s.reportStarts l) := by
  unfold State.reportStarts
  induction l generalizing s with
  | nil => exact .refl s
  | cons c r ih =>
    rw [List.foldl_cons]
    refine KeepsPins.trans ?_ (ih _)
    split
    · exact s.cycleFault_keepsPins c _
    · exact .refl s

theorem State.recomputeSpeed_keepsPins (s : State) (first : Bool) : KeepsPins s (s.recomputeSpeed first) := by
  have hcaused : KeepsPins s ((s.setInter { s.inter with speedOver := s.inter.isOver }).addCause .speed) :=
    (State.addCause_keepsPins _ _).before (by simp)
  have hcleared : SamePins s ((s.setInter { s.inter with speedOver := s.inter.isOver }).removeCause .speed) :=
    State.removeCause_samePins _ _
  unfold State.recomputeSpeed
  dsimp only
  split
  · exact hcaused.after (by simp)
  · exact hcleared.keeps.after (by simp)
  · exact SamePins.keeps (by split <;> simp)
  · exact SamePins.keeps (by simp)

/-! ### The decision (R12, R129) -/

theorem State.takeDecision_tags (s : State) (x : LiftCtx) : (s.takeDecision x).houses.tags = s.houses.tags := by
  unfold State.takeDecision
  dsimp only
  split <;> simp [State.mapCtx]

/-- The decision pins an entry of its own and no other: none is pinned before it (R12, R129). -/
theorem State.takeDecision_owned {s : State} {x : LiftCtx} (hx : s.lcc.ctx = some x) (hs : PinsOwned s) (hpin : x.pin = none) :
    PinsOwned (s.takeDecision x) := by
  have hfree : ∀ e ∈ s.houses.table, e.pinned ≠ true := fun e he hpinned => by
    have hsame := hs e he hpinned
    rw [hx, Option.bind_some, hpin] at hsame
    cases hsame
  unfold State.takeDecision
  dsimp only
  split
  next e haccept hentry =>
    intro f hf hpinned
    rcases Houses.pinned_of_pin hf hpinned with ⟨htag, -⟩ | ⟨-, hmem⟩
    · simp [State.mapCtx, hx, LiftCtx.decide, haccept, hentry, htag]
    · exact absurd hpinned (hfree f hmem)
  next => exact fun f hf hpinned => absurd hpinned (hfree f hf)

/-! ### The end of a phase, and the next (R7, R9) -/

/-- No phase but LIFT's acceptance enters APPROACH. -/
theorem State.endPhase_next_ne_approach (s : State) (p : ProfilePhase) : (s.endPhase p).2 ≠ some .approach := by
  unfold State.endPhase
  dsimp only
  split
  case h_1 =>
    generalize (if s.closeWindow.houses.windowOpen then s.closeWindow.closeTags else s.closeWindow) = u
    split
    · simp
    · dsimp only
      split <;> simp
  all_goals simp

theorem State.endPhase_keepsPins (s : State) {p : ProfilePhase} (hp : p ≠ .approach) : KeepsPins s (s.endPhase p).1 := by
  have hclosed : KeepsPins s s.closeWindow := s.closeWindow_samePins.keeps
  unfold State.endPhase
  dsimp only
  split
  case h_1 => exact absurd rfl hp
  case h_7 | h_8 => exact hclosed.trans (State.stageCycle_keepsPins _)
  all_goals exact hclosed

/-- The state in which APPROACH is decided, its windows closed (R9, R85, R122). -/
theorem State.approachClosed_samePins (s : State) :
    SamePins s (if s.closeWindow.houses.windowOpen then s.closeWindow.closeTags else s.closeWindow) := by
  split
  · exact s.closeWindow_samePins.trans (State.closeTags_samePins _)
  · exact s.closeWindow_samePins

theorem State.endPhase_tags (s : State) (p : ProfilePhase) : (s.endPhase p).1.houses.tags = s.houses.tags := by
  by_cases hp : p = .approach
  · subst hp
    have hclosed := s.approachClosed_samePins.keeps.tags
    unfold State.endPhase
    dsimp only
    split
    · exact hclosed
    · exact (State.takeDecision_tags _ _).trans hclosed
  · exact (s.endPhase_keepsPins hp).tags

/-- The end of a phase: the pins are owned, and at the end of APPROACH a lift goes on to another phase (R9, R12). -/
theorem State.endPhase_pins {s : State} {p : ProfilePhase} (hs : PinsFit s) (hp : s.lcc.phase = .run p) :
    PinsOwned (s.endPhase p).1 ∧ ((s.endPhase p).2 = none → PinsFit (s.endPhase p).1) := by
  by_cases happroach : p = .approach
  · subst happroach
    have hsame := s.approachClosed_samePins
    have hfit := hsame.keeps.pins hs
    have hpin := hs.undecided (.inl hp)
    unfold State.endPhase
    dsimp only
    generalize (if s.closeWindow.houses.windowOpen then s.closeWindow.closeTags else s.closeWindow) = u at hsame hfit ⊢
    obtain ⟨-, -, -, hkept⟩ := hsame
    split
    next => exact ⟨hfit.owned, fun _ => hfit⟩
    next x hx =>
      have hnone : x.pin = none := by
        rw [bind_pin, ← hkept, hx] at hpin
        exact hpin
      exact ⟨State.takeDecision_owned hx hfit.owned hnone, fun h => by cases h⟩
  · have hkept := (s.endPhase_keepsPins happroach).pins hs
    exact ⟨hkept.owned, fun _ => hkept⟩

/-- A phase entered other than APPROACH leaves the pins to fit; APPROACH does with no pin (R7). -/
theorem State.startPhase_pins {s : State} (hs : PinsOwned s) (x : LiftCtx) {p : ProfilePhase}
    (hp : p = .approach → s.lcc.ctx.bind LiftCtx.pin = none) : PinsFit (s.startPhase x p) := by
  have hpin : (s.startPhase x p).lcc.ctx.map LiftCtx.pin = s.lcc.ctx.map LiftCtx.pin := by
    rw [State.startPhase_lcc, Option.map_map]
    refine congrArg (Option.map · s.lcc.ctx) (funext fun y => ?_)
    rw [Function.comp_apply]
    split <;> rfl
  have hphase : (s.startPhase x p).lcc.phase = .run p := by rw [State.startPhase_lcc]
  refine (hs.of_same (by simp) hpin).fit (by simp [hphase]) fun h => ?_
  rw [bind_pin, hpin, ← bind_pin]
  exact hp (by simpa [Lcc.Approaching, hphase] using h)

theorem State.enterPhases_tags (n : Nat) (s : State) (p : ProfilePhase) :
    (State.enterPhases n s p).houses.tags = s.houses.tags := by
  induction n generalizing s p with
  | zero => rfl
  | succ n ih =>
    unfold State.enterPhases
    split
    next => rfl
    next x _ =>
      have hstarted : (s.startPhase x p).houses.tags = s.houses.tags := by simp
      have hended : ((s.startPhase x p).endPhase p).1.houses.tags = s.houses.tags :=
        (State.endPhase_tags _ _).trans hstarted
      dsimp only
      split
      · split <;> rename_i hres <;> rw [hres] at hended
        · exact (ih _ _).trans hended
        · exact hended
      · exact (State.reportStarts_keepsPins _ _).tags.trans hstarted

/-- One phase entered, and those after it. -/
theorem State.enterPhases_step {n : Nat} {s : State} {p : ProfilePhase} (hs : PinsOwned s)
    (hp : p = .approach → s.lcc.ctx.bind LiftCtx.pin = none)
    (hnext : ∀ u q, q ≠ .approach → PinsOwned u → (p ≠ .approach → PinsFit u) → PinsFit (State.enterPhases n u q)) :
    PinsFit (State.enterPhases (n + 1) s p) := by
  unfold State.enterPhases
  split
  next hnone => exact hs.fit_of_no_lift hnone
  next x _ =>
    have hstarted : PinsFit (s.startPhase x p) := State.startPhase_pins hs x hp
    have hrun : (s.startPhase x p).lcc.phase = .run p := by rw [State.startPhase_lcc]
    obtain ⟨howned, hdone⟩ := State.endPhase_pins hstarted hrun
    have hkept : p ≠ .approach → PinsFit ((s.startPhase x p).endPhase p).1 :=
      fun hne => (State.endPhase_keepsPins _ hne).pins hstarted
    have hne := State.endPhase_next_ne_approach (s.startPhase x p) p
    dsimp only
    split
    · split <;> rename_i hres <;> rw [hres] at howned hdone hkept hne
      · exact hnext _ _ (fun h => hne (congrArg some h)) howned hkept
      · exact hdone rfl
    · exact (State.reportStarts_keepsPins _ _).pins hstarted

theorem State.enterPhases_pins (n : Nat) {s : State} {p : ProfilePhase} (hs : PinsOwned s) (hp : p ≠ .approach) :
    PinsFit (State.enterPhases (n + 1) s p) := by
  induction n generalizing s p with
  | zero => exact State.enterPhases_step hs (fun h => absurd h hp) fun _ _ _ _ hfit => hfit hp
  | succ n ih => exact State.enterPhases_step hs (fun h => absurd h hp) fun _ _ hq hu _ => ih hu hq

theorem State.enterPhase_pins {s : State} {p : ProfilePhase} (hs : PinsOwned s)
    (hp : p = .approach → s.lcc.ctx.bind LiftCtx.pin = none) : PinsFit (s.enterPhase p) :=
  State.enterPhases_step hs hp fun _ _ hq hu _ => State.enterPhases_pins 6 hu hq

theorem State.enterPhase_keepsPins (s : State) {p : ProfilePhase} (hp : p ≠ .approach) : KeepsPins s (s.enterPhase p) :=
  ⟨State.enterPhases_tags 8 s p, fun hs => State.enterPhase_pins hs.owned fun h => absurd h hp⟩

theorem State.cycleEnd_keepsPins (s : State) : KeepsPins s s.cycleEnd := by
  unfold State.cycleEnd
  split
  next p hp =>
    refine .ite (fun _ => ?_) (.refl s)
    have htags := s.endPhase_tags p
    have hpins : PinsFit s → _ := fun hs => State.endPhase_pins hs hp
    have hne := s.endPhase_next_ne_approach p
    split <;> rename_i hres <;> rw [hres] at htags hpins hne
    · refine ⟨(State.enterPhases_tags 8 _ _).trans htags, fun hs => ?_⟩
      exact State.enterPhase_pins (hpins hs).1 fun h => absurd (congrArg some h) hne
    · exact ⟨htags, fun hs => (hpins hs).2 rfl⟩
  all_goals exact .refl s

/-! ### An expiry (R38 to R45) -/

theorem State.failChan_keepsPins (s : State) (c : Channel) (k : FaultKind) (a : Nat) : KeepsPins s (s.failChan c k a) := by
  unfold State.failChan
  dsimp only
  split
  case h_3 | h_4 =>
    split
    · exact (State.cycleFault_keepsPins _ c k).before (by simp)
    all_goals exact SamePins.keeps (by simp)
  all_goals exact .refl s

theorem State.endChan_keepsPins (s : State) (c : Channel) : KeepsPins s (s.endChan c) := by
  unfold State.endChan
  dsimp only
  split
  · exact (State.cycleEnd_keepsPins _).before (by simp)
  all_goals exact SamePins.keeps (by simp)

/-- No mark touches the table or the pin (R40). -/
theorem State.deliver_samePins {s t : State} {c : Channel} {code : Nat} (hd : s.deliver c code = some t) : SamePins s t := by
  unfold State.deliver at hd
  dsimp only at hd
  split at hd
  case h_1 => 
    unfold State.tagOpenMark at hd
    split at hd <;> cases hd
    simp [Houses.marks]
  case h_2 => 
    unfold State.tagCloseMark at hd
    split at hd <;> cases hd
    exact s.closeTags_samePins
  case h_3 | h_5 | h_7 =>
    unfold State.openMark at hd
    split at hd <;> cases hd
    exact s.openWindow_samePins _
  case h_4 | h_6 | h_8 =>
    unfold State.closeMark at hd
    (repeat' split at hd) <;> cases hd
    · exact s.closeWindow_samePins
    · simp
  case h_10 | h_11 | h_12 =>
    unfold State.packMark at hd
    split at hd <;> cases hd
    simp [State.packSweep, State.packCompress]
  case h_9 | h_13 =>
    simp only [State.tipMark, State.ejectMark] at hd
    split at hd <;> cases hd
    simp
  case h_14 => cases hd

theorem State.expire_keepsPins (s : State) (c : Channel) : KeepsPins s (s.expire c) :=
  KeptInExpiry.expire (K := KeepsPins s) {
    record := fun _ hk => hk.after (by simp)
    fault := fun k a hk => hk.trans (State.failChan_keepsPins _ c k a)
    fin := fun hk => hk.trans (State.endChan_keepsPins _ c)
    mark := fun hd hk => hk.after (State.deliver_samePins hd) } (.refl s)

theorem State.coilFault_keepsPins (s : State) (c : Channel) (l : Latch) : KeepsPins s (s.coilFault c l) := by
  have hfailed : KeepsPins s ((s.setLatch c l).failChan c .coil (s.chans.get c).pointer) :=
    (State.failChan_keepsPins _ c _ _).before (by simp)
  exact .ite (fun _ => .refl s) (hfailed.after (by simp))

/-! ### The table by its tags (R124, R126, R127) -/

/-- Tags strictly ascending (R124). -/
abbrev Ascending (l : List Entry) : Prop := l.Pairwise fun e f => e.tag.toNat < f.tag.toNat

/-- The search of a list for a tag. -/
abbrev findTag (l : List Entry) (tag : TagId) : Option Entry := l.find? fun e => e.tag == tag

/-- Entries below a tag, and entries above it. -/
structure Around (tag : TagId) (a b : List Entry) : Prop where
  below : ∀ e ∈ a, e.tag.toNat < tag.toNat
  above : ∀ e ∈ b, tag.toNat < e.tag.toNat

section entries
variable {l a b : List Entry} {e f : Entry} {tag g : TagId}

/-- No tag stands twice. -/
theorem Ascending.eq_of_tag (h : Ascending l) (he : e ∈ l) (hf : f ∈ l) (htag : e.tag = f.tag) : e = f := by
  have hnodup : (l.map Entry.tag).Nodup :=
    List.pairwise_map.mpr (h.imp fun hlt heq => absurd hlt (by rw [heq]; exact lt_irrefl _))
  exact List.inj_on_of_nodup_map hnodup he hf htag

/-- An ascending list around a tag: it holds no entry of the tag, or one between those below and those above. -/
theorem Ascending.split (h : Ascending l) (tag : TagId) :
    ∃ a b, Around tag a b ∧ (l = a ++ b ∨ ∃ f, f.tag = tag ∧ l = a ++ f :: b) := by
  induction l with
  | nil => exact ⟨[], [], ⟨by simp, by simp⟩, .inl rfl⟩
  | cons f l ih =>
    obtain ⟨hf, hl⟩ := List.pairwise_cons.mp h
    rcases lt_trichotomy f.tag.toNat tag.toNat with hlt | heq | hgt
    · obtain ⟨a, b, ⟨hbelow, habove⟩, hsplit⟩ := ih hl
      refine ⟨f :: a, b, ⟨List.forall_mem_cons.mpr ⟨hlt, hbelow⟩, habove⟩, ?_⟩
      rcases hsplit with rfl | ⟨e, he, rfl⟩
      · exact .inl rfl
      · exact .inr ⟨e, he, rfl⟩
    · exact ⟨[], l, ⟨by simp, heq ▸ hf⟩, .inr ⟨f, BitVec.eq_of_toNat_eq heq, rfl⟩⟩
    · exact ⟨[], f :: l, ⟨by simp, List.forall_mem_cons.mpr ⟨hgt, fun e he => hgt.trans (hf e he)⟩⟩, .inl rfl⟩

theorem Around.below_ne (h : Around tag a b) : ∀ e ∈ a, e.tag ≠ tag := fun e he heq => by
  have hlt := h.below e he
  simp [heq] at hlt

theorem Around.above_ne (h : Around tag a b) : ∀ e ∈ b, e.tag ≠ tag := fun e he heq => by
  have hlt := h.above e he
  simp [heq] at hlt

theorem Around.find_between (h : Around tag a b) : findTag (a ++ b) tag = none := by
  simp only [findTag, List.find?_eq_none, List.mem_append, beq_iff_eq]
  rintro e (he | he)
  · exact h.below_ne e he
  · exact h.above_ne e he

theorem Around.find_present (h : Around tag a b) (hf : f.tag = tag) : findTag (a ++ f :: b) tag = some f := by
  have hnone : findTag a tag = none := by simpa [findTag] using h.below_ne
  simp [findTag, List.find?_append, hnone, hf]

/-- The search for another tag passes over an entry. -/
theorem findTag_over (h : f.tag ≠ g) : findTag (a ++ f :: b) g = findTag (a ++ b) g := by
  simp [findTag, List.find?_append, h]

/-- An entry put where its tag has none goes between (R124, R126). -/
theorem Around.insert_between (h : Around e.tag a b) : insertEntry e (a ++ b) = a ++ e :: b := by
  obtain ⟨hbelow, habove⟩ := h
  induction a with
  | nil =>
    cases b with
    | nil => rfl
    | cons g b => exact if_pos (habove g List.mem_cons_self)
  | cons g a ih =>
    obtain ⟨hg, ha⟩ := List.forall_mem_cons.mp hbelow
    have hne : e.tag ≠ g.tag := fun heq => by simp [heq] at hg
    simp [insertEntry, hg.le.not_gt, hne, ih ha]

/-- An entry put where its tag has one replaces it (R124, R126). -/
theorem Around.insert_present (h : Around e.tag a b) (hf : f.tag = e.tag) : insertEntry e (a ++ f :: b) = a ++ e :: b := by
  obtain ⟨hbelow, habove⟩ := h
  induction a with
  | nil => simp [insertEntry, hf]
  | cons g a ih =>
    obtain ⟨hg, ha⟩ := List.forall_mem_cons.mp hbelow
    have hne : e.tag ≠ g.tag := fun heq => by simp [heq] at hg
    simp [insertEntry, hg.le.not_gt, hne, ih ha]

/-- The entry of a tag taken out (R127). -/
theorem Around.filter_between (h : Around tag a b) : (a ++ b).filter (fun e => e.tag != tag) = a ++ b := by
  refine List.filter_eq_self.mpr fun e he => ?_
  rcases List.mem_append.mp he with hea | heb
  · simpa using h.below_ne e hea
  · simpa using h.above_ne e heb

theorem Around.filter_present (h : Around tag a b) (hf : f.tag = tag) :
    (a ++ f :: b).filter (fun e => e.tag != tag) = a ++ b := by
  rw [← h.filter_between, List.filter_append, List.filter_cons, List.filter_append]
  simp [hf]

/-- A list goes on ascending with an entry of the tag between. -/
theorem Around.ascending (h : Around e.tag a b) (ha : Ascending a) (hb : Ascending b) : Ascending (a ++ e :: b) := by
  refine List.pairwise_append.mpr ⟨ha, List.pairwise_cons.mpr ⟨h.above, hb⟩, fun x hx y hy => ?_⟩
  rcases List.mem_cons.mp hy with rfl | hyb
  · exact h.below x hx
  · exact (h.below x hx).trans (h.above y hyb)

/-- An ascending list with an entry put in it: it ascends, the entry is the one of its tag, and every other tag has its own (R124,
R126). -/
structure PutIn (e : Entry) (l m : List Entry) : Prop where
  ascending : Ascending m
  length : m.length = if (findTag l e.tag).isSome then l.length else l.length + 1
  found : findTag m e.tag = some e
  others : ∀ g, g ≠ e.tag → findTag m g = findTag l g
  mem : ∀ f ∈ m, f = e ∨ f ∈ l

theorem Ascending.putIn (h : Ascending l) (e : Entry) : PutIn e l (insertEntry e l) := by
  obtain ⟨a, b, haround, rfl | ⟨f, hf, rfl⟩⟩ := h.split e.tag
  · obtain ⟨ha, hb, -⟩ := List.pairwise_append.mp h
    rw [haround.insert_between]
    exact {
      ascending := haround.ascending ha hb
      length := by simp [haround.find_between, Nat.add_assoc]
      found := haround.find_present rfl
      others := fun g hg => findTag_over hg.symm
      mem := fun f hf => by simpa [or_left_comm] using hf }
  · obtain ⟨ha, hb, -⟩ := List.pairwise_append.mp h
    rw [haround.insert_present hf]
    exact {
      ascending := haround.ascending ha hb.of_cons
      length := by simp [haround.find_present hf]
      found := haround.find_present rfl
      others := fun g hg => by rw [findTag_over hg.symm, findTag_over (hf ▸ hg.symm)]
      mem := fun x hx => by
        simp only [List.mem_append, List.mem_cons] at hx ⊢
        tauto }

end entries

/-! ### The requests to the table (R125 to R128) -/

/-- What an acceptable put names: an entry of its tag, with nothing lifted yet and no pin (R126). -/
theorem entryOf_fresh {f : EntryFields} {e : Entry} (h : entryOf f = some e) :
    e.tag = f.tag ∧ e.liftsToday = 0 ∧ e.lastTime = none ∧ e.pinned = false := by
  unfold entryOf at h
  dsimp only at h
  split at h
  · split at h
    · cases h
      exact ⟨rfl, rfl, rfl, rfl⟩
    · cases h
  · cases h

/-- The state with an entry put in its table (R126). -/
def State.putEntry (s : State) (e : Entry) : State := s.setHouses { s.houses with table := insertEntry e s.houses.table }

/-- A put is taken where its tag has an entry that is not pinned, or has none and there is room (R125). -/
def Houses.takesPut (x : Houses) (tag : TagId) : Prop :=
  (∃ o, x.find tag = some o ∧ o.pinned = false) ∨ (x.find tag = none ∧ x.table.length < Config.tableCapacity)

section requests
variable {s : State} {h : Header} {f : EntryFields} {tag : TagId} {e o : Entry}

theorem State.takeEntryPut_malformed (he : entryOf f = none) : State.takeEntryPut h f s = s.answer h 16#8 .malformed .empty := by
  simp [State.takeEntryPut, he]

theorem State.takeEntryPut_present (he : entryOf f = some e) (ho : s.houses.find f.tag = some o) :
    State.takeEntryPut h f s = if o.pinned = true then s.answer h 16#8 .entryPinned .empty
      else (s.putEntry e).answer h 16#8 .ok (.replaced (insertEntry e s.houses.table).length) := by
  simp [State.takeEntryPut, he, ho, State.putEntry]

theorem State.takeEntryPut_new (he : entryOf f = some e) (ho : s.houses.find f.tag = none) :
    State.takeEntryPut h f s = if s.houses.table.length < Config.tableCapacity then
        (s.putEntry e).answer h 16#8 .ok (.inserted (insertEntry e s.houses.table).length)
      else s.answer h 16#8 .tableFull .empty := by
  simp [State.takeEntryPut, he, ho, State.putEntry]

end requests

/-! ### What a command leaves of the table and its pins -/

/-- The order of the table, and with it the pins, hold after a command that met them. -/
structure TableHolds (s t : State) : Prop where
  ordered : TableOrdered s → TableOrdered t
  held : PinsHeld s → PinsHeld t

theorem KeepsPins.ordered {s t : State} (h : KeepsPins s t) (hs : TableOrdered s) : TableOrdered t := by
  rw [tableOrdered_iff] at hs ⊢
  rwa [h.tags]

theorem KeepsPins.holds {s t : State} (h : KeepsPins s t) : TableHolds s t :=
  ⟨h.ordered, fun hs => by
    obtain ⟨hordered, hfit⟩ := (pinsHeld_iff s).mp hs
    exact (pinsHeld_iff t).mpr ⟨h.ordered hordered, h.pins hfit⟩⟩

theorem SamePins.holds {s t : State} (h : SamePins s t) : TableHolds s t := h.keeps.holds

theorem TableHolds.refl (s : State) : TableHolds s s := ⟨id, id⟩

theorem TableHolds.trans {s t u : State} (h : TableHolds s t) (k : TableHolds t u) : TableHolds s u :=
  ⟨k.ordered ∘ h.ordered, k.held ∘ h.held⟩

theorem TableHolds.ite {c : Prop} [Decidable c] {s t u : State} (ht : c → TableHolds s t) (hu : ¬ c → TableHolds s u) :
    TableHolds s (if c then t else u) := by
  split
  · exact ht ‹_›
  · exact hu ‹_›

theorem TableHolds.answer {s t : State} (h : TableHolds s t) (d : Header) (k : Byte) (c : Code) (x : AnswerData) :
    TableHolds s (t.answer d k c x) := h.trans (SamePins.holds (by simp))

/-- An answer alone. -/
theorem answer_tableHolds (s : State) (d : Header) (k : Byte) (c : Code) (x : AnswerData) : TableHolds s (s.answer d k c x) :=
  (TableHolds.refl s).answer d k c x

/-- Another table in order, with no pin that the old one had not. -/
theorem tableHolds_of_table {s : State} {x : Houses} (hordered : TableOrdered s → TableOrdered (s.setHouses x))
    (hpins : TableOrdered s → ∀ e ∈ x.table, e.pinned = true → e ∈ s.houses.table) : TableHolds s (s.setHouses x) :=
  ⟨hordered, fun ⟨hs, howned, hidle, hundecided⟩ =>
    ⟨hordered hs, fun e he hpinned => howned e (hpins hs e he hpinned) hpinned, hidle, hundecided⟩⟩

/-! ### What the requests to the table keep (R125 to R128) -/

theorem State.putEntry_tableHolds {s : State} {e : Entry} (hpinned : e.pinned = false) (hput : s.houses.takesPut e.tag) :
    TableHolds s (s.putEntry e) := by
  refine tableHolds_of_table (fun ⟨hascending, hroom⟩ => ?_) fun ⟨hascending, _⟩ f hf hfp => ?_
  · have hin : PutIn e s.houses.table (insertEntry e s.houses.table) := Ascending.putIn hascending e
    refine ⟨hin.ascending, ?_⟩
    change (insertEntry e s.houses.table).length ≤ _
    rw [hin.length]
    change (if (s.houses.find e.tag).isSome then _ else _) ≤ _
    rcases hput with ⟨o, ho, -⟩ | ⟨hnone, hlt⟩
    · simpa [ho] using hroom
    · simpa [hnone] using hlt
  · rcases (Ascending.putIn hascending e).mem f hf with rfl | hmem
    · rw [hpinned] at hfp
      cases hfp
    · exact hmem

theorem State.takeEntryPut_tableHolds (h : Header) (f : EntryFields) (s : State) :
    TableHolds s (State.takeEntryPut h f s) := by
  cases he : entryOf f with
  | none =>
    rw [State.takeEntryPut_malformed he]
    exact answer_tableHolds _ _ _ _ _
  | some e =>
    obtain ⟨htag, -, -, hpinned⟩ := entryOf_fresh he
    cases ho : s.houses.find f.tag with
    | some o =>
      rw [State.takeEntryPut_present he ho]
      refine .ite (fun _ => answer_tableHolds _ _ _ _ _) fun hfree => ?_
      exact (State.putEntry_tableHolds hpinned (.inl ⟨o, htag ▸ ho, by simpa using hfree⟩)).answer _ _ _ _
    | none =>
      rw [State.takeEntryPut_new he ho]
      refine .ite (fun hroom => ?_) fun _ => answer_tableHolds _ _ _ _ _
      exact (State.putEntry_tableHolds hpinned (.inr ⟨htag ▸ ho, hroom⟩)).answer _ _ _ _

/-- Entries taken out of the table. -/
theorem tableHolds_of_sublist {s : State} {x : Houses} (h : x.table.Sublist s.houses.table) : TableHolds s (s.setHouses x) :=
  tableHolds_of_table (fun ⟨hascending, hroom⟩ => ⟨List.Pairwise.sublist h hascending, h.length_le.trans hroom⟩)
    fun _ _ he _ => h.mem he

theorem State.takeEntryDrop_tableHolds (h : Header) (tag : TagId) (s : State) :
    TableHolds s (State.takeEntryDrop h tag s) := by
  unfold State.takeEntryDrop
  split
  · exact answer_tableHolds _ _ _ _ _
  · refine .ite (fun _ => answer_tableHolds _ _ _ _ _) fun _ => ?_
    exact (tableHolds_of_sublist List.filter_sublist).answer _ _ _ _

theorem State.takeTableClear_tableHolds (h : Header) (s : State) : TableHolds s (s.takeTableClear h) :=
  .ite (fun _ => answer_tableHolds _ _ _ _ _) fun _ =>
    (tableHolds_of_sublist (List.nil_sublist _)).answer _ _ _ _

theorem State.takeTableReady_samePins (h : Header) (s : State) : SamePins s (s.takeTableReady h) := by
  simp [State.takeTableReady, Houses.marks]

/-! ### The owners of the lift, and the Interlocks' events (R4 to R6, R20 to R24, R173 to R177) -/

/-- A LIFT is accepted in IDLE, with no entry pinned (R5, R6). -/
theorem State.acceptLift_keepsPins {s : State} (hidle : s.lcc.phase = .idle) (st : Stream) (slot creep : Nat) :
    KeepsPins s (s.acceptLift st slot creep) := by
  unfold State.acceptLift
  refine ⟨(State.enterPhases_tags 8 _ _).trans (by simp [Houses.emptyTags, Houses.tags]), fun hs => ?_⟩
  refine State.enterPhase_pins (fun e he hpinned => ?_) fun _ => rfl
  have hsame := hs.owned e (by simpa [Houses.emptyTags] using he) hpinned
  rw [hs.idle hidle] at hsame
  cases hsame

theorem State.takeLift_keepsPins (h : Header) (f : LiftFields) (s : State) : KeepsPins s (State.takeLift h f s) := by
  have hanswered : ∀ c d, KeepsPins s (s.answer h 1#8 c d) := fun _ _ => SamePins.keeps (by simp)
  unfold State.takeLift
  split
  · exact hanswered _ _
  next st slot creep clamped _ =>
    refine .ite (fun _ => hanswered _ _) ?_
    split
    · exact hanswered _ _
    next hnone =>
      have hidle : s.lcc.phase = .idle := by
        by_contra hbusy
        simp [State.liftRefusal, hbusy] at hnone
      have haccepted : KeepsPins s (s.acceptLift st slot creep) := State.acceptLift_keepsPins hidle st slot creep
      exact .ite (fun _ => haccepted.after (by simp)) (haccepted.after (by simp))

theorem State.renewPermit_samePins (s : State) : SamePins s s.renewPermit := by
  have hcleared : SamePins s ((s.setInter { s.inter with
      permitHeld := true, permitTimer := some s.settings.inForce.permitPeriod }).removeCause .permit) :=
    State.removeCause_samePins _ _
  unfold State.renewPermit
  dsimp only
  split
  · simp
  · exact hcleared.trans (by simp)

/-- The cycle goes on in the phase that it was halted in (R20). -/
theorem State.resumeCycle_keepsPins {s : State} {p : ProfilePhase} (hphase : s.lcc.phase = .halted)
    (hhalted : s.lcc.haltedPhase = some p) : KeepsPins s (s.resumeCycle p) := by
  unfold State.resumeCycle
  dsimp only
  split
  next h =>
    obtain ⟨rfl, -⟩ := h
    exact (State.enterPhase_keepsPins _ (by simp)).before (by simp)
  next =>
    refine ⟨by simp [Houses.tags], fun hs => ?_⟩
    refine PinsOwned.fit (hs.owned.of_same (by simp) (by simp)) (by simp) fun h => ?_
    have happroach : p = .approach := by simpa [Lcc.Approaching] using h
    simpa using hs.undecided (.inr ⟨hphase, happroach ▸ hhalted⟩)

theorem State.takeResume_keepsPins (h : Header) (s : State) : KeepsPins s (s.takeResume h) := by
  unfold State.takeResume
  split
  next p hphase hhalted =>
    exact .ite (fun _ => (State.resumeCycle_keepsPins hphase hhalted).after (by simp)) (SamePins.keeps (by simp))
  next => exact SamePins.keeps (by simp)

theorem State.abandon_samePins (s : State) : SamePins s s.abandon := by
  simp [State.abandon, State.dropTags, State.mapCtx, Houses.marks, Function.comp_def]

theorem State.enterRecover_keepsPins (s : State) (f : Bool) : KeepsPins s (s.enterRecover f) := by
  have hwaits : KeepsPins s (s.setLcc { s.lcc with phase := .halted, haltedPhase := some .recover }) :=
    ⟨rfl, fun hs => PinsOwned.fit (hs.owned.of_same (by simp) (by simp)) (by simp) fun h => by simp [Lcc.Approaching] at h⟩
  exact .ite (fun _ => s.enterPhase_keepsPins (by simp)) (.ite (fun _ => hwaits.after (by simp)) hwaits)

theorem State.takeAbort_keepsPins (h : Header) (s : State) : KeepsPins s (s.takeAbort h) := by
  have hgiven : KeepsPins s ((s.enterStuck.refresh).answer h 4#8 .ok .empty) := s.enterStuck_keepsPins.after (by simp)
  have hanswered : SamePins s ((s.abandon).answer h 4#8 .ok .empty) := s.abandon_samePins.trans (by simp)
  have habandoned : KeepsPins s (((s.abandon).answer h 4#8 .ok .empty).enterRecover s.lcc.causes.fault).refresh :=
    ((State.enterRecover_keepsPins _ _).before hanswered).refresh
  unfold State.takeAbort
  dsimp only
  split
  case h_3 => exact hgiven
  case h_4 => exact habandoned
  case h_5 => exact .ite (fun _ => hgiven) habandoned
  all_goals exact SamePins.keeps (by simp)

theorem State.takeCycleClear_keepsPins (h : Header) (s : State) : KeepsPins s (s.takeCycleClear h) := by
  have hstaged : KeepsPins s (s.mapCtx fun x => { x with path := .aborted, manualRecovery := true }).stageCycle :=
    (State.stageCycle_keepsPins _).before (s.mapCtx_samePins fun _ => rfl)
  exact .ite (fun _ => hstaged.after (by simp)) (SamePins.keeps (by simp))

theorem State.takeChassis_keepsPins (f : ChassisFields) (s : State) : KeepsPins s (State.takeChassis f s) :=
  ((State.recomputeSpeed_keepsPins _ _).before (by simp)).recomputeQa.refresh

theorem State.chassisSilent_keepsPins (s : State) : KeepsPins s s.chassisSilent :=
  (((State.recomputeSpeed_keepsPins _ _).before (by simp)).alert _).refresh

theorem State.expirePermit_keepsPins (s : State) : KeepsPins s s.expirePermit :=
  (((State.addCause_keepsPins _ _).before (by simp)).mapPackers _ _).refresh

theorem State.changePto_keepsPins (s : State) (on : Bool) : KeepsPins s (s.changePto on) := by
  have hcaused : KeepsPins s ((s.setInter { s.inter with pto := on }).addCause .pto) :=
    (State.addCause_keepsPins _ _).before (by simp)
  have hcleared : SamePins s ((s.setInter { s.inter with pto := on }).removeCause .pto) :=
    State.removeCause_samePins _ _
  exact .ite (fun _ => hcleared.keeps.after (by simp)) (hcaused.after (by simp))

/-! ### The tag line (R120, R185) -/

/-- A tag seen changes no more of the households than the tag list and the overflow count (R120). -/
theorem Houses.see_frame (x : Houses) (tag : TagId) (n : Nat) : (x.see tag n).windowOpen = x.windowOpen
    ∧ (x.see tag n).lastResult = x.lastResult ∧ (x.see tag n).table = x.table ∧ (x.see tag n).loaded = x.loaded := by
  unfold Houses.see
  (repeat' split) <;> exact ⟨rfl, rfl, rfl, rfl⟩

theorem State.tagSeen_samePins (s : State) (tag : TagId) (strength : Byte) : SamePins s (s.tagSeen tag strength) := by
  simp [State.tagSeen, Houses.marks, Houses.see_frame]

theorem State.lineByte_samePins (s : State) (l : Line) (b : Byte) : SamePins s (s.lineByte l b) := by
  have hframe : ∀ (u : State) (bytes : List Byte), SamePins u (u.lineFrame l bytes) := fun u bytes => by
    unfold State.lineFrame
    split
    · simp
    · split
      · exact u.tagSeen_samePins _ _
      · simp
  unfold State.lineByte
  split
  · simp
  · exact SamePins.trans (by simp) (hframe _ _)

/-! ### The whole of a command (R1, R186) -/

/-- A full reset leaves no table and no lift (R1). -/
theorem State.fullReset_tableHolds (s : State) (g p : Bool) : TableHolds s (s.fullReset g p) := by
  have hordered : TableOrdered (s.fullReset g p) := ⟨List.Pairwise.nil, Nat.zero_le _⟩
  have hempty : (s.fullReset g p).houses.table = [] := rfl
  exact ⟨fun _ => hordered, fun _ => ⟨hordered, by simp [hempty], fun _ => rfl, fun _ => rfl⟩⟩

theorem State.request_tableHolds {α : Type} {s : State} {h : Header} {r : Request} {b : Payload α}
    {owner : α → State → State} (ho : ∀ f t, TableHolds t (owner f t)) : TableHolds s (s.request h r b owner) := by
  refine State.request_cases (P := TableHolds s) (.refl s) fun t ht => ?_
  have htaken : TableHolds s t := by
    rcases State.take_eq ht with rfl | ⟨-, rfl⟩
    · exact .refl t
    · exact SamePins.holds (by simp)
  exact ⟨fun c => htaken.trans (SamePins.holds (by simp)), fun f _ _ => htaken.trans (ho f t)⟩

/-- Every command keeps the table in order and its pins with the lift: a request by what its owner keeps, an event by what its
effect keeps. -/
theorem exec_tableHolds (i : Instr) (s : State) : ∃ t, exec i s = .next t ∧ TableHolds s t := by
  cases i with
  | fullReset g p => exact ⟨_, rfl, s.fullReset_tableHolds g p⟩
  | entryPut h b => exact ⟨_, rfl, State.request_tableHolds fun f t => State.takeEntryPut_tableHolds h f t⟩
  | entryDrop h b => exact ⟨_, rfl, State.request_tableHolds fun tag t => State.takeEntryDrop_tableHolds h tag t⟩
  | tableClear h b => exact ⟨_, rfl, State.request_tableHolds fun _ t => t.takeTableClear_tableHolds h⟩
  | tableReady h b => exact ⟨_, rfl, State.request_tableHolds fun _ t => (t.takeTableReady_samePins h).holds⟩
  | lift h b => exact ⟨_, rfl, State.request_tableHolds fun f t => (State.takeLift_keepsPins h f t).holds⟩
  | permit h b =>
    exact ⟨_, rfl, State.request_tableHolds fun _ t => t.renewPermit_samePins.holds.answer _ _ _ _⟩
  | resume h b => exact ⟨_, rfl, State.request_tableHolds fun _ t => (t.takeResume_keepsPins h).holds⟩
  | abort h b => exact ⟨_, rfl, State.request_tableHolds fun _ t => (t.takeAbort_keepsPins h).holds⟩
  | cycleClear h b => exact ⟨_, rfl, State.request_tableHolds fun _ t => (t.takeCycleClear_keepsPins h).holds⟩
  | chassisState h b => exact ⟨_, rfl, State.request_tableHolds fun f t => (State.takeChassis_keepsPins f t).holds⟩
  | openLock h b w =>
    have hseen : TableHolds s (s.setPins { s.pins with lockWireOpen := w }) := SamePins.holds (by simp)
    exact ⟨_, rfl, hseen.trans (State.request_tableHolds fun _ _ => SamePins.holds (by simp))⟩
  | pack h b | unload h b | abortUnload h b | faultClear h b | statusGet h b | entryGet h b | journalRead h b
  | journalRelease h b | timeSet h b | slotMap h b | settingPut h b | settingGet h b | freezeLock h b | closeLock h b
  | setCode h b | trialSet h b | trialDiscard h b | commit h b | serviceZero h b | liveWeight h b | attrRead h b
  | profileWrite h b | profileErase h b | shadowLoad h b =>
    exact ⟨_, rfl, State.request_tableHolds fun _ _ => SamePins.holds (by simp)⟩
  | unknownKind h k =>
    refine ⟨_, rfl, ?_⟩
    split
    next ht =>
      rcases State.take_eq ht with rfl | ⟨-, rfl⟩ <;> exact SamePins.holds (by simp)
    next => exact .refl s
  | frameArrival f | messageSent p | serviceByteGap l | tagLineBreak | busOff p | linkReset p | profileWriteDone
  | profileEraseDone | shadowLoadDone | commitWriteDone | recordWriteDone | sectorEraseDone | inclinometerReading x y
  | inclinometerStale | watchedInputChange w v | payloadTimerExpiry | secondTick =>
    exact ⟨_, rfl, SamePins.holds (by simp)⟩
  | tagSeen tag n => exact ⟨_, rfl, (s.tagSeen_samePins tag n).holds⟩
  | lineByteArrival l b => exact ⟨_, rfl, (s.lineByte_samePins l b).holds⟩
  | settingsReadDone | metrologyReadDone | storeVerifyDone | journalScanDone | pressureReading k p | coilOnTimeEnd k d =>
    exact ⟨_, rfl, .ite (fun _ => SamePins.holds (by simp)) fun _ => .refl s⟩
  | counterWriteDone | verifyWriteDone | makerWriteDone | codeWriteDone | settingsWriteDone | releaseWriteDone =>
    refine ⟨_, rfl, ?_⟩
    split <;> exact SamePins.holds (by simp)
  | stepExpiry k x =>
    have hsensed : KeepsPins s (((s.setPins { s.pins with sensors := x }).expire k).refresh) :=
      ((State.expire_keepsPins _ k).before (by simp)).refresh
    refine ⟨_, rfl, ?_⟩
    split
    · exact .ite (fun _ => hsensed.holds) fun _ => .refl s
    all_goals exact .refl s
  | coilPeriodStart k d n =>
    exact ⟨_, rfl, .ite (fun _ => .ite (fun _ => (s.coilFault_keepsPins k _).holds) fun _ => SamePins.holds (by simp))
      fun _ => .refl s⟩
  | coilShort k d n => exact ⟨_, rfl, .ite (fun _ => (s.coilFault_keepsPins k _).holds) fun _ => .refl s⟩
  | samplePair x y => exact ⟨_, rfl, .ite (fun _ => (s.workPair_samePins x y).holds) fun _ => .refl s⟩
  | ptoChange on => exact ⟨_, rfl, .ite (fun _ => .refl s) fun _ => (s.changePto_keepsPins on).holds⟩
  | permitExpiry => exact ⟨_, rfl, .ite (fun _ => s.expirePermit_keepsPins.holds) fun _ => .refl s⟩
  | silenceExpiry => exact ⟨_, rfl, .ite (fun _ => s.chassisSilent_keepsPins.holds) fun _ => .refl s⟩

/-- Both after one step. -/
theorem step_tableHolds {s t : State} (hstep : step s = .next t) : TableHolds s t := by
  simp only [step] at hstep
  split at hstep
  next => cases hstep; exact .refl s
  next c rest _ =>
    obtain ⟨u, hexec, hu⟩ := exec_tableHolds c { s with pending := rest }
    rw [hexec] at hstep
    cases hstep
    exact ⟨fun hs => hu.ordered hs, fun hs => hu.held hs⟩

/-- Settles O5: of each command `exec_tableHolds` says that it keeps the table in order. -/
theorem tableStaysOrdered : Obligations.TableStaysOrdered := by
  unfold Obligations.TableStaysOrdered
  exact fun _ _ hs hstep => (step_tableHolds hstep).ordered hs

/-- Settles O6: of each command `exec_tableHolds` says that it keeps the pins with the lift; two pinned entries have the lift's
tag, which stands in the table once, and an IDLE cycle has no lift. -/
theorem pinsStayHeld : Obligations.PinsStayHeld := by
  unfold Obligations.PinsStayHeld
  intro s t hs hstep
  have ht : PinsHeld t := (step_tableHolds hstep).held hs
  refine ⟨ht, fun e he f hf hep hfp => ?_⟩
  obtain ⟨⟨hascending, -⟩, howned, hidle, -⟩ := ht
  have hetag := howned e he hep
  refine ⟨Ascending.eq_of_tag hascending he hf (Option.some.inj (hetag.symm.trans (howned f hf hfp))), fun hphase => ?_⟩
  rw [hidle hphase] at hetag
  cases hetag

/-! ## What the requests to the household table answer and change (R123 to R128, R197) -/

/-! ### The fields of a put (R123, R197) -/

/-- A byte of a field with two codes: one of them, or neither. -/
theorem byte_codes (b : Byte) : b = 0#8 ∨ b = 1#8 ∨ ∃ k, b.toNat = k + 2 := by
  by_cases hb : 1 < b.toNat
  · exact .inr (.inr ⟨b.toNat - 2, by omega⟩)
  · have hsmall : b.toNat = 0 ∨ b.toNat = 1 := by omega
    exact hsmall.imp BitVec.eq_of_toNat_eq fun h => .inl (BitVec.eq_of_toNat_eq h)

theorem byte_code_of_le {b : Byte} (h : b.toNat ≤ 1) : b = 0#8 ∨ b = 1#8 := by
  rcases byte_codes b with hzero | hone | ⟨k, hk⟩
  · exact .inl hzero
  · exact .inr hone
  · omega

/-- A streams byte up to 3 as its two bits. -/
theorem streams_bits {b : Byte} (h : b.toNat ≤ 3) :
    b.getLsbD 0 = decide (b.toNat % 2 = 1) ∧ b.getLsbD 1 = decide (2 ≤ b.toNat) := by
  have hcases : b = 0#8 ∨ b = 1#8 ∨ b = 2#8 ∨ b = 3#8 := by bv_omega
  rcases hcases with rfl | rfl | rfl | rfl <;> decide

/-- A field of all ones is absent (R197). -/
theorem presentField_eq_none_iff {w : Nat} (x : BitVec w) : presentField x = none ↔ x = BitVec.allOnes w := by
  simp [presentField]

/-- The entry of a put whose fields are in range (R123, R126). -/
def namedEntry (f : EntryFields) : Entry :=
  { tag := f.tag, account := f.account.toNat, status := if f.status = 0#8 then .active else .suspended
    takesRefuse := f.streams.getLsbD 0, takesRecycle := f.streams.getLsbD 1
    slot := f.slot.toNat, tariff := if f.tariff = 0#8 then .byWeight else .byLift
    allowance := presentField f.allowance, excess := if f.excessPolicy = 0#8 then .charge else .refuse
    liftLimit := presentField f.liftLimit, liftsToday := 0, lastTime := none, pinned := false }

/-- The fields in range, the three codes aside (R123, R197). -/
abbrev restInRange (f : EntryFields) : Prop :=
  f.tag ≠ noTagId ∧ f.account ≠ allOnes32 ∧ 1 ≤ f.streams.toNat ∧ f.streams.toNat ≤ 3 ∧ f.slot.toNat ≤ 3
    ∧ f.liftLimit ≠ 0#8 ∧ (presentField f.allowance = none ∨ f.tariff = 0#8)

section fields
variable {f : EntryFields}

/-- A put with a code that its field has not names nothing. -/
theorem entryOf_of_bad_code
    (h : (∃ k, f.status.toNat = k + 2) ∨ (∃ k, f.tariff.toNat = k + 2) ∨ ∃ k, f.excessPolicy.toNat = k + 2) :
    entryOf f = none := by
  rcases h with ⟨k, hk⟩ | ⟨k, hk⟩ | ⟨k, hk⟩ <;> simp [entryOf, hk]

/-- With the three codes in range the other fields decide. -/
theorem entryOf_of_codes (hst : f.status.toNat ≤ 1) (hta : f.tariff.toNat ≤ 1) (hex : f.excessPolicy.toNat ≤ 1) :
    entryOf f = if restInRange f then some (namedEntry f) else none := by
  rcases byte_code_of_le hst with hst | hst <;> rcases byte_code_of_le hta with hta | hta <;>
  rcases byte_code_of_le hex with hex | hex <;>
  simp [entryOf, namedEntry, restInRange, hst, hta, hex]

/-- A put names an entry where all its fields are in range (R123, R197). -/
theorem entryOf_eq (f : EntryFields) : entryOf f
    = if f.status.toNat ≤ 1 ∧ f.tariff.toNat ≤ 1 ∧ f.excessPolicy.toNat ≤ 1 ∧ restInRange f then some (namedEntry f)
      else none := by
  by_cases hcodes : f.status.toNat ≤ 1 ∧ f.tariff.toNat ≤ 1 ∧ f.excessPolicy.toNat ≤ 1
  · obtain ⟨hst, hta, hex⟩ := hcodes
    simp only [entryOf_of_codes hst hta hex, hst, hta, hex, true_and]
  · rw [if_neg fun hall => hcodes ⟨hall.1, hall.2.1, hall.2.2.1⟩]
    refine entryOf_of_bad_code ?_
    have hbad : ∀ {b : Byte}, ¬b.toNat ≤ 1 → ∃ k, b.toNat = k + 2 := fun {b} h => ⟨b.toNat - 2, by omega⟩
    rw [not_and_or, not_and_or] at hcodes
    exact hcodes.imp hbad (Or.imp hbad hbad)

/-- The same with each field's range and value as R123, R126 and R197 give them. -/
theorem entryOf_fields (f : EntryFields) : entryOf f =
    if f.tag ≠ 0xFFFFFFFFFFFFFFFF#64 ∧ f.account ≠ 0xFFFFFFFF#32 ∧ f.status.toNat ≤ 1 ∧ 1 ≤ f.streams.toNat
        ∧ f.streams.toNat ≤ 3 ∧ f.slot.toNat ≤ 3 ∧ f.tariff.toNat ≤ 1 ∧ f.excessPolicy.toNat ≤ 1 ∧ f.liftLimit ≠ 0#8
        ∧ (f.allowance = 0xFFFFFF#24 ∨ f.tariff = 0#8) then
      some
        { tag := f.tag, account := f.account.toNat, status := if f.status = 0#8 then .active else .suspended
          takesRefuse := decide (f.streams.toNat % 2 = 1), takesRecycle := decide (2 ≤ f.streams.toNat)
          slot := f.slot.toNat, tariff := if f.tariff = 0#8 then .byWeight else .byLift
          allowance := if f.allowance = 0xFFFFFF#24 then none else some f.allowance.toNat
          excess := if f.excessPolicy = 0#8 then .charge else .refuse
          liftLimit := if f.liftLimit = 255#8 then none else some f.liftLimit.toNat, liftsToday := 0, lastTime := none
          pinned := false }
    else none := by
  have habsent : presentField f.allowance = none ↔ f.allowance = 0xFFFFFF#24 := presentField_eq_none_iff _
  rw [entryOf_eq]
  refine if_ctx_congr ?_ (fun hin => ?_) fun _ => rfl
  · rw [restInRange, habsent]
    tauto
  · obtain ⟨-, -, -, -, hstreams, -⟩ := hin
    obtain ⟨hrefuse, hrecycle⟩ := streams_bits hstreams
    rw [namedEntry, hrefuse, hrecycle]
    rfl

end fields

/-! ### What an edit leaves in the table (R126, R127) -/

section entries
variable {l : List Entry} {e : Entry} {tag : TagId}

/-- A list with the entry of a tag taken out: no other tag's entry went (R127). -/
structure TakenOut (tag : TagId) (l m : List Entry) : Prop where
  gone : findTag m tag = none
  others : ∀ g, g ≠ tag → findTag m g = findTag l g
  length : m.length = l.length - 1

theorem Ascending.takenOut (h : Ascending l) (he : findTag l tag = some e) :
    TakenOut tag l (l.filter fun f => f.tag != tag) := by
  obtain ⟨a, b, haround, rfl | ⟨f, hf, rfl⟩⟩ := h.split tag
  · rw [haround.find_between] at he
    cases he
  · rw [haround.filter_present hf]
    exact {
      gone := haround.find_between
      others := fun g hg => (findTag_over (hf ▸ hg.symm)).symm
      length := by simp }

/-- The first entry above a tag in an ascending list is the one of the lowest tag above it (R127). -/
theorem Ascending.find_after (h : Ascending l) (he : e ∈ l) (hlt : tag.toNat < e.tag.toNat)
    (hleast : ∀ g ∈ l, tag.toNat < g.tag.toNat → e.tag.toNat ≤ g.tag.toNat) :
    l.find? (fun g => decide (tag.toNat < g.tag.toNat)) = some e := by
  obtain ⟨f, hf⟩ : ∃ f, l.find? (fun g => decide (tag.toNat < g.tag.toNat)) = some f :=
    Option.isSome_iff_exists.mp (List.find?_isSome.mpr ⟨e, he, decide_eq_true hlt⟩)
  obtain ⟨hfabove, a, b, rfl, hskipped⟩ := List.find?_eq_some_iff_append.mp hf
  have hfmem : f ∈ a ++ f :: b := by simp
  have hle : e.tag.toNat ≤ f.tag.toNat := hleast f hfmem (of_decide_eq_true hfabove)
  have hnotbefore : e ∉ a := fun hea => by simpa [hlt] using hskipped e hea
  have hfirst : ∀ g ∈ b, f.tag.toNat < g.tag.toNat := (List.pairwise_cons.mp (List.pairwise_append.mp h).2.1).1
  rcases List.mem_cons.mp ((List.mem_append.mp he).resolve_left hnotbefore) with rfl | heb
  · exact hf
  · exact absurd (hfirst e heb) hle.not_gt

end entries

/-! ### The requests as their owner takes them -/

section requests
variable {s t : State} {h : Header} {f : EntryFields} {q : EntryGetFields} {e o : Entry} {tag : TagId}

theorem State.takeEntryPut_replaces (hasc : Ascending s.houses.table) (he : entryOf f = some e)
    (ho : s.houses.find f.tag = some o) (hfree : o.pinned = false) :
    State.takeEntryPut h f s = (s.putEntry e).answer h 16#8 .ok (.replaced s.houses.table.length) := by
  have hfind : findTag s.houses.table e.tag = some o := (entryOf_fresh he).1.symm ▸ ho
  have hlength := (hasc.putIn e).length
  rw [hfind, Option.isSome_some, if_pos rfl] at hlength
  rw [State.takeEntryPut_present he ho, if_neg (by simp [hfree]), hlength]

theorem State.takeEntryPut_inserts (hasc : Ascending s.houses.table) (he : entryOf f = some e)
    (ho : s.houses.find f.tag = none) (hroom : s.houses.table.length < Config.tableCapacity) :
    State.takeEntryPut h f s = (s.putEntry e).answer h 16#8 .ok (.inserted (s.houses.table.length + 1)) := by
  have hfind : findTag s.houses.table e.tag = none := (entryOf_fresh he).1.symm ▸ ho
  have hlength := (hasc.putIn e).length
  rw [hfind, Option.isSome_none, if_neg Bool.false_ne_true] at hlength
  rw [State.takeEntryPut_new he ho, if_pos hroom, hlength]

/-- A put that is taken is answered OK with its entry in the table (R125, R126). -/
theorem State.takeEntryPut_taken (hasc : Ascending s.houses.table) (he : entryOf f = some e)
    (htakes : s.houses.takesPut f.tag) : ∃ d, State.takeEntryPut h f s = (s.putEntry e).answer h 16#8 .ok d := by
  rcases htakes with ⟨o, ho, hfree⟩ | ⟨hnone, hroom⟩
  · exact ⟨_, State.takeEntryPut_replaces hasc he ho hfree⟩
  · exact ⟨_, State.takeEntryPut_inserts hasc he hnone hroom⟩

theorem State.takeEntryDrop_missing (ho : s.houses.find tag = none) :
    State.takeEntryDrop h tag s = s.answer h 17#8 .notFound .empty := by
  simp [State.takeEntryDrop, ho]

theorem State.takeEntryDrop_present (ho : s.houses.find tag = some o) : State.takeEntryDrop h tag s
    = if o.pinned = true then s.answer h 17#8 .entryPinned .empty
      else (s.setHouses (s.houses.drop tag)).answer h 17#8 .ok (.count (s.houses.drop tag).table.length) := by
  simp [State.takeEntryDrop, ho]

/-- What the three forms of ENTRY_GET search for (R127). -/
def Houses.sought (x : Houses) (q : EntryGetFields) : Option Entry :=
  if q.form = 0#8 then x.find q.tag else if q.form = 1#8 then x.table.head? else x.after q.tag

theorem Houses.sought_tag {x : Houses} (hq : q.form = 0#8) : x.sought q = x.find q.tag := if_pos hq

theorem Houses.sought_first {x : Houses} (hq : q.form = 1#8) : x.sought q = x.table.head? := by simp [Houses.sought, hq]

theorem Houses.sought_after {x : Houses} (hq : q.form = 2#8) : x.sought q = x.after q.tag := by simp [Houses.sought, hq]

theorem State.takeEntryGet_form (hq : q.form.toNat ≤ 2) : State.takeEntryGet h q s
    = (s.houses.sought q).elim (s.answer h 18#8 .notFound .empty) fun e => s.answer h 18#8 .ok (.entry e) := by
  have hform : q.form = 0#8 ∨ q.form = 1#8 ∨ q.form = 2#8 := by bv_omega
  rcases hform with hform | hform | hform
  · cases hfind : s.houses.find q.tag <;> simp [State.takeEntryGet, Houses.sought, hform, hfind]
  · cases hfirst : s.houses.table.head? <;> simp [State.takeEntryGet, Houses.sought, hform, hfirst]
  · cases hafter : s.houses.after q.tag <;> simp [State.takeEntryGet, Houses.sought, hform, hafter]

theorem State.takeEntryGet_found (hq : q.form.toNat ≤ 2) (he : s.houses.sought q = some e) :
    State.takeEntryGet h q s = s.answer h 18#8 .ok (.entry e) := by
  rw [State.takeEntryGet_form hq, he, Option.elim_some]

theorem State.takeEntryGet_missing (hq : q.form.toNat ≤ 2) (he : s.houses.sought q = none) :
    State.takeEntryGet h q s = s.answer h 18#8 .notFound .empty := by
  rw [State.takeEntryGet_form hq, he, Option.elim_none]

theorem State.takeEntryGet_malformed (hq : 3 ≤ q.form.toNat) :
    State.takeEntryGet h q s = s.answer h 18#8 .malformed .empty := by
  obtain ⟨n, hn⟩ : ∃ n, q.form.toNat = n + 3 := ⟨q.form.toNat - 3, by omega⟩
  simp [State.takeEntryGet, hn]

theorem State.takeEntryGet_core : (State.takeEntryGet h q s).core = s.core := by
  rcases Nat.lt_or_ge q.form.toNat 3 with hle | hbad
  · rw [State.takeEntryGet_form (Nat.le_of_lt_succ hle)]
    cases s.houses.sought q <;> exact State.core_answer _ _ _ _ _
  · rw [State.takeEntryGet_malformed hbad, State.core_answer]

/-- A table given another content: this is all that changed but the Link Ports (R182). -/
theorem setHouses_of_answer {x : Houses} {k : Byte} {c : Code} {d : AnswerData}
    (ht : t = ((s.popped h).setHouses x).answer h k c d) : t.houses = x ∧ t.core = (s.setHouses x).core := by
  subst ht
  exact ⟨by simp, by simp [State.core_eq_iff]⟩

theorem settled_setHouses {x : Houses} {k : Byte} {c : Code} {d : AnswerData} (hp : h.src.port ≠ .chassis)
    (hd : ∀ ix, partCount ix d = 1) (ht : t = ((s.popped h).setHouses x).answer h k c d) : Settled s t h k c d := by
  subst ht
  exact settled_of_answer rfl hp (hd _).le

end requests

/-- Settles O36: each request by what its owner does in the cases of the tag's entry, and the table by the place of the tag in
an ascending list. -/
theorem householdEdits : Obligations.HouseholdEdits := by
  unfold Obligations.HouseholdEdits
  refine ⟨entryOf_fields, fun s h ⟨hasc, _⟩ => ?_⟩
  have hhouses : (s.popped h).houses = s.houses := by simp
  refine ⟨fun f ht => ?put, fun tag ht => ?drop, fun q ht => ?get, fun ht => ?clear, fun ht => ?ready⟩
  case put =>
    have hp : h.src.port ≠ .chassis := ht.port_ne_chassis (by simp)
    refine ⟨State.takeEntryPut h f (s.popped h), congrArg Host.Outcome.next (State.request_taken s h _ f _ ht),
      fun hbad => settled_unchanged hp (fun _ => rfl) (State.takeEntryPut_malformed hbad), fun e he => ?_⟩
    rw [← hhouses] at hasc ⊢
    refine ⟨fun o ho hpinned => settled_unchanged hp (fun _ => rfl) ((State.takeEntryPut_present he ho).trans (if_pos hpinned)),
      fun ho hfull => settled_unchanged hp (fun _ => rfl) ((State.takeEntryPut_new he ho).trans (if_neg hfull.not_lt)),
      fun o ho hfree => settled_setHouses hp (fun _ => rfl) (State.takeEntryPut_replaces hasc he ho hfree),
      fun ho hroom => settled_setHouses hp (fun _ => rfl) (State.takeEntryPut_inserts hasc he ho hroom), fun htakes => ?_⟩
    obtain ⟨htag, hlifts, htime, hunpinned⟩ := entryOf_fresh he
    obtain ⟨-, -, hfound, hothers, -⟩ := Ascending.putIn hasc e
    obtain ⟨d, htaken⟩ := State.takeEntryPut_taken (h := h) hasc he htakes
    obtain ⟨hstored, hcore⟩ := setHouses_of_answer htaken
    rw [hstored]
    exact ⟨htag ▸ hfound, hlifts, htime, hunpinned, htag ▸ hothers, hcore⟩
  case drop =>
    have hp : h.src.port ≠ .chassis := ht.port_ne_chassis (by simp)
    rw [← hhouses] at hasc ⊢
    refine ⟨State.takeEntryDrop h tag (s.popped h), congrArg Host.Outcome.next (State.request_taken s h _ tag _ ht),
      fun hnone => settled_unchanged hp (fun _ => rfl) (State.takeEntryDrop_missing hnone), fun e he => ?_⟩
    have htaken := State.takeEntryDrop_present (h := h) he
    refine ⟨fun hpinned => settled_unchanged hp (fun _ => rfl) (htaken.trans (if_pos hpinned)), fun hfree => ?_⟩
    rw [if_neg (by simp [hfree])] at htaken
    obtain ⟨hstored, hcore⟩ := setHouses_of_answer htaken
    obtain ⟨hgone, hothers, hlength⟩ := Ascending.takenOut hasc he
    rw [hstored, ← hlength]
    exact ⟨hgone, hothers, hcore, settled_setHouses hp (fun _ => rfl) htaken⟩
  case get =>
    have hp : h.src.port ≠ .chassis := ht.port_ne_chassis (by simp)
    rw [← hhouses] at hasc ⊢
    refine ⟨State.takeEntryGet h q (s.popped h), congrArg Host.Outcome.next (State.request_taken s h _ q _ ht), ?_⟩
    have hfound : ∀ e, q.form.toNat ≤ 2 → (s.popped h).houses.sought q = some e →
        Settled s (State.takeEntryGet h q (s.popped h)) h 18#8 .ok (.entry e) :=
      fun e hle he => (settled_unchanged hp (fun _ => rfl) (State.takeEntryGet_found hle he)).2
    have hmissing : q.form.toNat ≤ 2 → (s.popped h).houses.sought q = none →
        Settled s (State.takeEntryGet h q (s.popped h)) h 18#8 .notFound .empty :=
      fun hle he => (settled_unchanged hp (fun _ => rfl) (State.takeEntryGet_missing hle he)).2
    refine ⟨by simp [State.takeEntryGet_core], fun hform e he => hfound e (by simp [hform]) (Houses.sought_tag hform ▸ he),
      fun hform he => hmissing (by simp [hform]) (Houses.sought_tag hform ▸ he),
      fun hform e r hl => hfound e (by simp [hform]) (by rw [Houses.sought_first hform, hl, List.head?_cons]),
      fun hform e he hlt hleast => hfound e (by simp [hform])
        ((Houses.sought_after hform).trans (Ascending.find_after hasc he hlt hleast)),
      fun hform hl => hmissing (by simp [hform]) (by rw [Houses.sought_first hform, hl, List.head?_nil]),
      fun hform hall => hmissing (by simp [hform]) ((Houses.sought_after hform).trans ?_),
      fun hform => (settled_unchanged hp (fun _ => rfl) (State.takeEntryGet_malformed hform)).2⟩
    exact List.find?_eq_none.mpr (by simpa using hall)
  case clear =>
    have hp : h.src.port ≠ .chassis := ht.port_ne_chassis (by simp)
    refine ⟨(s.popped h).takeTableClear h, congrArg Host.Outcome.next (State.request_taken s h _ () _ ht), ?_⟩
    rw [← hhouses, State.takeTableClear]
    refine ⟨fun hpinned => settled_unchanged hp (fun _ => rfl) (if_pos (List.any_eq_true.mpr hpinned)), fun hfree => ?_⟩
    rw [if_neg (by simpa using hfree)]
    exact ⟨(setHouses_of_answer rfl).2, settled_setHouses hp (fun _ => rfl) rfl⟩
  case ready =>
    have hp : h.src.port ≠ .chassis := ht.port_ne_chassis (by simp)
    refine ⟨(s.popped h).takeTableReady h, congrArg Host.Outcome.next (State.request_taken s h _ () _ ht), ?_⟩
    rw [← hhouses]
    exact ⟨(setHouses_of_answer rfl).2, settled_setHouses hp (fun _ => rfl) rfl⟩

/-! ## The tag window: tags seen and the result formed (R120, R121) -/

/-! ### A tag seen (R120) -/

section see
variable {x : Houses} {tag : TagId} {n : Nat}

theorem Houses.see_ignored (h : x.windowOpen = false ∨ tag = noTagId) : x.see tag n = x :=
  if_pos (by simpa using h)

theorem Houses.see_open (hw : x.windowOpen = true) (htag : tag ≠ noTagId) : x.see tag n
    = if x.tagList.any (fun e => e.tag == tag) then
        { x with tagList := x.tagList.map fun e => if e.tag = tag then e.seen n else e }
      else if x.tagList.length < Config.tagListCapacity then { x with tagList := x.tagList ++ [⟨tag, 1, n⟩] }
      else { x with overflow := raiseSat 255 x.overflow } :=
  if_neg (by simp [hw, htag])

theorem Houses.see_listed (hw : x.windowOpen = true) (htag : tag ≠ noTagId) (hlisted : ∃ e ∈ x.tagList, e.tag = tag) :
    x.see tag n = { x with tagList := x.tagList.map fun e => if e.tag = tag then e.seen n else e } := by
  rw [Houses.see_open hw htag, if_pos (by simpa using hlisted)]

theorem Houses.see_new (hw : x.windowOpen = true) (htag : tag ≠ noTagId) (hnew : ∀ e ∈ x.tagList, e.tag ≠ tag)
    (hroom : x.tagList.length < Config.tagListCapacity) :
    x.see tag n = { x with tagList := x.tagList ++ [⟨tag, 1, n⟩] } := by
  rw [Houses.see_open hw htag, if_neg (by simpa using hnew), if_pos hroom]

theorem Houses.see_over (hw : x.windowOpen = true) (htag : tag ≠ noTagId) (hnew : ∀ e ∈ x.tagList, e.tag ≠ tag)
    (hfull : Config.tagListCapacity ≤ x.tagList.length) : x.see tag n = { x with overflow := raiseSat 255 x.overflow } := by
  rw [Houses.see_open hw htag, if_neg (by simpa using hnew), if_neg hfull.not_gt]

end see

/-! ### The result of a tag list (R121) -/

/-- The highest count of a tag list. -/
abbrev topCount (l : List TagEntry) : Nat := l.foldl (fun m e => max m e.count) 0

section result
variable {l m r : List TagEntry} {e f : TagEntry}

/-- The highest count reached from a start is at most `n` where the start and all the counts are. -/
theorem foldl_count_le_iff (l : List TagEntry) (m n : Nat) :
    l.foldl (fun m e => max m e.count) m ≤ n ↔ m ≤ n ∧ ∀ e ∈ l, e.count ≤ n := by
  induction l generalizing m with
  | nil => simp
  | cons e l ih => simp [ih, and_assoc]

theorem topCount_eq (he : e ∈ l) (hall : ∀ f ∈ l, f.count ≤ e.count) : topCount l = e.count :=
  le_antisymm ((foldl_count_le_iff _ _ _).mpr ⟨Nat.zero_le _, hall⟩) (((foldl_count_le_iff l 0 _).mp le_rfl).2 e he)

/-- The one entry of the highest count wins. -/
theorem tagResult_winner (hall : ∀ f ∈ l, f.count ≤ e.count) (hone : l.filter (fun f => f.count == e.count) = [e]) :
    tagResult l = .winner e.tag := by
  have he : e ∈ l := List.mem_of_mem_filter (hone ▸ List.mem_singleton_self e)
  have htop : topCount l = e.count := topCount_eq he hall
  simp only [tagResult, htop, hone]

/-- Two entries of the highest count leave it open. -/
theorem tagResult_ambiguous (he : e ∈ l) (hall : ∀ f ∈ l, f.count ≤ e.count)
    (htwo : 2 ≤ (l.filter fun f => f.count == e.count).length) : tagResult l = .ambiguous := by
  have htop : topCount l = e.count := topCount_eq he hall
  simp only [tagResult, htop]
  generalize l.filter (fun f => f.count == e.count) = best at htwo
  match best, htwo with
  | _ :: _ :: _, _ => rfl

/-- No entry of a lower count stands among those of the highest. -/
theorem filter_count_lower (h : ∀ f ∈ l, f.count < e.count) : l.filter (fun f => f.count == e.count) = [] :=
  List.filter_eq_nil_iff.mpr fun f hf => by simpa using (h f hf).ne

theorem tagResult_of_one_top (h : ∀ f ∈ l ++ r, f.count < e.count) : tagResult (l ++ e :: r) = .winner e.tag := by
  obtain ⟨hl, hr⟩ := List.forall_mem_append.mp h
  refine tagResult_winner (fun f hf => ?_) ?_
  · rcases List.mem_append.mp hf with hfl | hfr
    · exact (hl f hfl).le
    · exact (List.mem_cons.mp hfr).elim (fun heq => (congrArg TagEntry.count heq).le) fun hmem => (hr f hmem).le
  · simp [filter_count_lower hl, filter_count_lower hr]

theorem tagResult_of_two_tops (hcount : e.count = f.count) (h : ∀ g ∈ l ++ m ++ r, g.count ≤ e.count) :
    tagResult (l ++ e :: (m ++ f :: r)) = .ambiguous := by
  refine tagResult_ambiguous (e := e) (by simp) (fun g hg => ?_) ?_
  · have hwhere : g = e ∨ g = f ∨ g ∈ l ++ m ++ r := by
      simp only [List.mem_append, List.mem_cons] at hg ⊢
      tauto
    rcases hwhere with rfl | rfl | hmem
    · exact le_rfl
    · exact hcount.ge
    · exact h g hmem
  · rw [List.filter_append, List.filter_cons_of_pos (by simp), List.filter_append, List.filter_cons_of_pos (by simp [hcount])]
    simp only [List.length_append, List.length_cons]
    omega

end result

/-! ### TAG_CLOSE (R40, R121) -/

theorem State.deliver_tagClose {s : State} {c : Channel} (ho : (s.chans.get c).origin = some .cycle)
    (hw : s.houses.windowOpen = true) : s.deliver c 1 = some s.closeTags :=
  if_pos ⟨ho, hw⟩

/-- A context takes the result while it waits for its decision on the path of a lift (R121). -/
theorem LiftCtx.offerTag_eq (y : LiftCtx) (r : TagResult) (n : Nat) : y.offerTag r n
    = if y.decision = none ∧ y.path = .lift then { y with tagResult := some r, overflow := n } else y := by
  simp only [LiftCtx.offerTag, Option.isNone_iff_eq_none]

/-- Settles O57: a tag seen by the branches of its owner, the result by the entries of the highest count, and TAG_CLOSE as a mark
whose owner takes it. -/
theorem tagsAreCountedAndTheResultFormed : Obligations.TagsAreCountedAndTheResultFormed := by
  unfold Obligations.TagsAreCountedAndTheResultFormed
  refine ⟨fun s tag strength => ?seen,
    ⟨rfl, fun l r e => tagResult_of_one_top, fun l m r e f => tagResult_of_two_tops⟩, ?close⟩
  case seen =>
    obtain ⟨hopen, hlast, htable, hloaded⟩ := s.houses.see_frame tag strength.toNat
    refine ⟨s.houses.see tag strength.toNat, rfl, hopen, hlast, htable, hloaded, Houses.see_ignored, fun hw htag =>
      ⟨fun hlisted hcounts => ?listed, fun hnew hroom => ?new, fun hnew hfull hover => ?full⟩⟩
    case listed =>
      rw [Houses.see_listed hw htag hlisted]
      refine ⟨rfl, List.map_congr_left fun e he => ?_⟩
      split
      · next heq => rw [TagEntry.seen, heq, raiseSat_eq_min (hcounts e he)]
      · rfl
    case new =>
      rw [Houses.see_new hw htag hnew hroom]
      exact ⟨rfl, rfl⟩
    case full =>
      rw [Houses.see_over hw htag hnew hfull, raiseSat_eq_min hover]
      exact ⟨rfl, rfl⟩
  case close =>
    rintro s c x r v rfl hp ho h hw hlo hhi hset
    have hf : s.setFollows c v := ⟨hp, ⟨hlo, hhi⟩, hset⟩
    refine (exec_mark_set hf h (State.deliver_tagClose (s := s.sensed x) ho hw) rfl).trans ?_
    simp only [State.closeTags, State.mapCtx, LiftCtx.offerTag_eq]
    rfl

end Sys2Proof.Machine

namespace Sys2Proof.Machine

/-! ## The console's ABORT_UNLOAD (R149, R150, R159) -/

/-- A total in grams, rounded to kilograms (R149). -/
theorem roundDiv_thousand (n : Nat) : roundDiv n 1000 = (((n + 500) / 1000 : Nat) : Int) := by
  simp only [roundDiv, if_pos (Int.natCast_nonneg n)]
  omega

/-- A record handed over stands in its compartment (R137). -/
@[simp] theorem State.handOver_comps (s : State) (m : Compartment) (x : Comp) :
    (s.handOver m x).comps = s.comps.putComp m x := by
  simp only [State.handOver]
  split <;> simp

/-- The compartment after its UNLOAD record is staged: the total and the counts 0, the status recomputed (R137, R149). -/
@[simp] theorem State.stageUnload_comps (s : State) (m : Compartment) : (s.stageUnload m).comps = s.comps.putComp m
    (({ s.comps.comp m with total := 0, shorts := 0, tips := 0 } : Comp).recompute s.settings.inForce m) := by
  simp [State.stageUnload]

/-- The UNLOAD record is queued against its reservation, with the compartment and the total that it had (R149, R159). -/
theorem State.stageUnload_record (s : State) (m : Compartment) :
    (∃ r, (s.stageUnload m).journal.queue = s.journal.queue ++ [r] ∧ r.kind = .unload ∧ r.comp = some m
        ∧ r.seq = s.journal.nextSeq ∧ r.gross = some ((((s.comps.comp m).total + 500) / 1000 : Nat) : Int))
      ∧ (s.stageUnload m).journal.reserved = s.journal.reserved - 1 := by
  obtain ⟨hqueue, hreserved⟩ := State.stage_counts (s.handOver m _) _
  simp only [State.handOver_frame] at hqueue hreserved
  exact ⟨⟨_, hqueue, rfl, rfl, rfl, congrArg some (roundDiv_thousand _)⟩, hreserved⟩

section abort
variable {s : State} {m : Compartment} {taken : Bool}

/-- An ejection that ABORT_UNLOAD ends: its channel stopped, the ejection settled (R150). -/
def State.abortEject (s : State) (m : Compartment) (taken : Bool) : State :=
  (s.mapChan m.packer Chan.stop).settleEject m taken .rest .aborted

/-- Before EJECT_DONE the reservation goes back (R150). -/
theorem State.abortEject_untaken : s.abortEject m false = ((s.mapChan m.packer Chan.stop).returnReservation).setComp m
    { s.comps.comp m with stage := .rest, ejectDone := none, lastEject := some .aborted } := by
  simp [State.abortEject, State.settleEject]

/-- After EJECT_DONE the UNLOAD record is staged (R149, R150). -/
theorem State.abortEject_taken : s.abortEject m true = ((s.mapChan m.packer Chan.stop).stageUnload m).setComp m
    { ({ s.comps.comp m with total := 0, shorts := 0, tips := 0 } : Comp).recompute s.settings.inForce m with
      stage := .rest, ejectDone := none, lastEject := some .done } := by
  simp [State.abortEject, State.settleEject]

/-- After EJECT_DONE the record is told, before it nothing (R149, R150). -/
theorem State.abortEject_gains :
    Gains s (s.abortEject m taken) (if taken = true then [recordTold s.journal.nextSeq .unload] else []) := by
  simpa [State.abortEject] using ((s.mapChan m.packer Chan.stop).settleEject_gains m taken .rest .aborted).before (s := s) (by simp)

/-- An ejection ended leaves no pack cycle due where too few tips are counted (R141, R150). -/
theorem State.takeAbortUnload_ejecting {h : Header} {b : Byte} (hm : s.compNamed b = some m)
    (hstage : (s.comps.comp m).stage = .ejecting) (htaken : (s.comps.comp m).ejectDone = some taken)
    (hfew : ((s.abortEject m taken).comps.comp m).tips < s.settings.inForce.packAfter) :
    State.takeAbortUnload h b s = ((s.abortEject m taken).refresh).answer h 8#8 .ok .empty := by
  have hdue : (s.abortEject m taken).testDue m = s.abortEject m taken :=
    State.testDue_stands (.inl (hfew.trans_eq (by simp [State.abortEject])))
  rw [← hdue]
  simp only [State.takeAbortUnload, hm, hstage, htaken, if_true]
  rfl

end abort

/-- Settles O33: each refusal by the check that gives it; an ejection ended by `abortEject_untaken` and
`abortEject_taken`. -/
theorem abortUnloadSettlesTheEjection : Obligations.AbortUnloadSettlesTheEjection := by
  unfold Obligations.AbortUnloadSettlesTheEjection
  refine ⟨fun s h b ht hnone => ?unnamed, fun s h b c ht hc hpack => ?named⟩
  case unnamed =>
    exact ⟨_, congrArg Host.Outcome.next (State.request_taken s h _ b _ ht),
      answered_without_effect (port_of_console ht.2) (fun _ => rfl) (by simp [State.takeAbortUnload, hnone])⟩
  case named =>
    have hp : h.src.port = .body := port_of_console ht.2
    have hnamed : (s.popped h).compNamed b = some c := by simpa using hc
    have hlast : ∀ u : State, u.room h.src.port = true →
        ((u.answer h 8#8 .ok .empty).port h.src.port).tx.getLast? = some (.answer h 8#8 .ok 1 1 .empty) := fun u =>
      State.answer_last u h _ _ _ (by simp [hp]) le_rfl
    refine ⟨State.takeAbortUnload h b (s.popped h), congrArg Host.Outcome.next (State.request_taken s h _ b _ ht),
      fun hstage => ?resting, fun hstage hopen hfew => ?before, fun hstage hdone => ?after⟩
    case resting => exact answered_without_effect hp (fun _ => rfl) (by simp [State.takeAbortUnload, hc, hstage])
    case before =>
      rw [State.takeAbortUnload_ejecting hnamed (by simpa using hstage) (by simpa using hopen)
        (by simpa [State.abortEject_untaken] using hfew), State.abortEject_untaken]
      exact ⟨by simp, by simp, by simp, by simp, by simp, by simp, by simp [SameStores],
        fun hroom => hlast _ (by simp [hroom])⟩
    case after =>
      have hgains : Gains (s.popped h) (((s.popped h).abortEject c true).refresh.answer h 8#8 .ok .empty)
          [recordTold s.journal.nextSeq .unload, .answer h 8#8 .ok 1 1 .empty] := by
        simpa using (State.abortEject_gains (s := s.popped h) (m := c) (taken := true)).trans
          ((State.answer_gains ((s.popped h).abortEject c true).refresh h 8#8 .ok .empty hp le_rfl).before (by simp))
      obtain ⟨hrecord, hreserved⟩ := State.stageUnload_record ((s.popped h).mapChan c.packer Chan.stop) c
      rw [State.takeAbortUnload_ejecting hnamed (by simpa using hstage) (by simpa using hdone)
        (by simpa [State.abortEject_taken, Comp.recompute] using Nat.lt_of_succ_le hpack)]
      rw [State.abortEject_taken] at hgains ⊢
      exact ⟨by simp [Comp.recompute], by simp [Comp.recompute], by simp [Comp.recompute], by simp, by simp, by simp,
        by simpa using hrecord, by simpa using hreserved, by simp, by simp [SameStores],
        fun hroom => hlast _ (by simp [hroom]), hgains.tells_popped⟩

end Sys2Proof.Machine

namespace Sys2Proof.Machine

/-! ## The end of the start-up scan (R157, R161 to R164, R168, R169) -/

/-! ### What the reclaim test and the start of an erase leave -/

/-- The reclaim test changes the sectors alone (R162). -/
@[simp] theorem Journal.testAll_frame (j : Journal) :
    j.testAll.starting = j.starting ∧ j.testAll.newest = j.newest ∧ j.testAll.oldest = j.oldest
     ∧ j.testAll.nextSeq = j.nextSeq ∧ j.testAll.mark = j.mark ∧ j.testAll.cells = j.cells
     ∧ j.testAll.holder = j.holder ∧ j.testAll.free = j.free ∧ j.testAll.reserved = j.reserved
     ∧ j.testAll.queue = j.queue ∧ j.testAll.writing = j.writing ∧ j.testAll.erase = j.erase
     ∧ j.testAll.note = j.note ∧ j.testAll.release = j.release ∧ j.testAll.low = j.low := by
  rw [j.testAll_spec.1]
  exact ⟨rfl, rfl, rfl, rfl, rfl, rfl, rfl, rfl, rfl, rfl, rfl, rfl, rfl, rfl, rfl⟩

/-- The start of an erase changes the sectors, the note, the erase in flight and oldest retained alone (R161, R162). -/
@[simp] theorem Journal.startErase_frame (j : Journal) :
    j.startErase.starting = j.starting ∧ j.startErase.newest = j.newest ∧ j.startErase.nextSeq = j.nextSeq
     ∧ j.startErase.mark = j.mark ∧ j.startErase.cells = j.cells ∧ j.startErase.holder = j.holder
     ∧ j.startErase.free = j.free ∧ j.startErase.reserved = j.reserved ∧ j.startErase.queue = j.queue
     ∧ j.startErase.writing = j.writing ∧ j.startErase.release = j.release ∧ j.startErase.low = j.low := by
  simp only [Journal.startErase, Journal.setSector]
  split <;> exact ⟨rfl, rfl, rfl, rfl, rfl, rfl, rfl, rfl, rfl, rfl, rfl, rfl⟩

/-- Where no erase is in flight its start leaves a sector as it stands, or it is RECLAIMABLE and is erased (R162). -/
theorem Journal.startErase_sector {j : Journal} (he : j.erase = none) (k : Nat) :
    j.startErase.sector k = j.sector k ∨ (j.sector k).state = .reclaimable ∧ j.startErase.Erases k := by
  cases hn : j.nextErase with
  | none => exact .inl (by rw [Journal.startErase_none hn])
  | some m =>
    obtain ⟨herases, -, hothers, -⟩ := Journal.startErase_some he hn
    by_cases hk : k = m
    · exact .inr ⟨hk ▸ (Journal.nextErase_mem hn).2, hk ▸ herases⟩
    · exact .inl (hothers k hk)

/-- The retained records stand over the reclaim test, where only RECLAIMABLE sectors are disregarded (R154, R162). -/
theorem Journal.testAll_retained {j : Journal}
    (hd : ∀ k, (j.sector k).disregarded = true → (j.sector k).state = .reclaimable) (k : Nat) :
    (j.testAll.sector k).retained = (j.sector k).retained := by
  have hstands : ∀ (l : List Nat) (j : Journal),
      (∀ k, (j.sector k).disregarded = true → (j.sector k).state = .reclaimable) →
      ((l.foldl Journal.testReclaim j).sector k).retained = (j.sector k).retained := by
    intro l
    induction l with
    | nil => exact fun _ _ => rfl
    | cons m r ih =>
      intro j hd
      obtain ⟨hdisregarded, hretained, -⟩ := Journal.testReclaim_records hd m
      exact (ih _ hdisregarded).trans (hretained k)
  exact hstands _ j hd

/-- Oldest retained stands over the reclaim test (R155, R162). -/
theorem Journal.testAll_oldestStands {j : Journal}
    (hd : ∀ k, (j.sector k).disregarded = true → (j.sector k).state = .reclaimable) (h : j.OldestStands) :
    j.testAll.OldestStands := by
  simpa [Journal.OldestStands, Journal.testAll_retained hd] using h

/-- Journals of the same BLANK and ACTIVE sectors, slots and queue have the same free slots (R157). -/
theorem Journal.countFree_congr {j u : Journal} (hslots : u.slots = j.slots) (hqueue : u.queue = j.queue)
    (hblank : ∀ k, (u.sector k).state = .blank ↔ (j.sector k).state = .blank)
    (hactive : ∀ k, (u.sector k).state = .active ↔ (j.sector k).state = .active) : u.countFree = j.countFree := by
  have hb : ∀ k, ((u.sector k).state == .blank) = ((j.sector k).state == .blank) := fun k => by
    rw [Bool.eq_iff_iff, beq_iff_eq, beq_iff_eq, hblank]
  have ha : ∀ k, ((u.sector k).state == .active) = ((j.sector k).state == .active) := fun k => by
    rw [Bool.eq_iff_iff, beq_iff_eq, beq_iff_eq, hactive]
  simp only [Journal.countFree, Journal.activeSector, Journal.patterns, hb, ha, hslots, hqueue]

/-- The reclaim test leaves the free slots (R157, R162). -/
theorem Journal.testAll_countFree (j : Journal) : j.testAll.countFree = j.countFree := by
  obtain ⟨-, hbeyond, -, hwithin⟩ := j.testAll_spec
  have hsector : ∀ k, j.testAll.sector k = j.sector k
      ∨ (j.sector k).state = .full ∧ j.testAll.sector k = ⟨.reclaimable, false⟩ := fun k => by
    by_cases hk : k < 32
    · exact (hwithin k hk).imp_right fun ⟨hfull, _, hs⟩ => ⟨hfull, hs⟩
    · exact .inl (hbeyond k hk)
  refine Journal.countFree_congr (by simp) (by simp) (fun k => ?_) fun k => ?_
  all_goals
    rcases hsector k with hs | ⟨hfull, hs⟩
    · rw [hs]
    · simp [hs, hfull]

/-- The start of an erase leaves the free slots (R157, R162). -/
theorem Journal.startErase_countFree {j : Journal} (he : j.erase = none) : j.startErase.countFree = j.countFree := by
  refine Journal.countFree_congr (by simp) (by simp) (fun k => ?_) fun k => ?_
  all_goals
    rcases Journal.startErase_sector he k with hs | ⟨hreclaimable, hs, -⟩
    · rw [hs]
    · simp [hs, hreclaimable]

/-- The free slots where no sector is ACTIVE: those of the BLANK sectors (R157). -/
theorem Journal.countFree_of_no_active {j : Journal} (hq : j.queue = []) (h : ∀ k < 32, (j.sector k).state ≠ .active) :
    j.countFree = 128 * (List.range 32).countP fun k => (j.sector k).state == .blank := by
  have hnone : j.activeSector = none := List.find?_eq_none.mpr fun k hk => by
    simpa using h k (by simpa [Config.sectors] using hk)
  simp [Journal.countFree, hnone, hq, List.countP_eq_length_filter, Config.sectors, Config.slotsPerSector]

/-- The free slots where one sector is ACTIVE: those of the BLANK sectors and its unwritten ones (R157). -/
theorem Journal.countFree_of_active {j : Journal} {k : Nat} (hq : j.queue = []) (hk : k < 32)
    (h : ∀ m < 32, (j.sector m).state = .active ↔ m = k) :
    j.countFree = 128 * (List.range 32).countP (fun m => (j.sector m).state == .blank)
      + (List.range 128).countP fun i => readSlot j.slots (k * 128 + i) == BitVec.allOnes 512 := by
  have hactive : j.activeSector = some k := by
    cases hfind : j.activeSector with
    | none =>
      have hidle : (j.sector k).state ≠ .active := by
        simpa using List.find?_eq_none.mp hfind k (by simpa [Config.sectors] using hk)
      exact absurd ((h k hk).mpr rfl) hidle
    | some m =>
      have hm : m < 32 := by simpa [Config.sectors] using List.mem_of_find?_eq_some hfind
      rw [(h m hm).mp (by simpa using List.find?_some hfind)]
  have hblank : ∀ x : SlotBits, (patternOf x == .blank) = (x == BitVec.allOnes 512) := fun x => by
    rw [Bool.eq_iff_iff, beq_iff_eq, beq_iff_eq, patternOf_eq_blank, blankSlot]
  simp only [Journal.countFree, hactive, hq, Journal.patterns, List.countP_map, Function.comp_def, hblank,
    ← List.countP_eq_length_filter, Config.sectors, Config.slotsPerSector, List.length_nil, Nat.sub_zero]
  exact Nat.add_comm _ _

/-! ### The journal after the scan, before an erase starts -/

/-- The walk meets a BLANK slot in one sector at most (R169). -/
theorem Journal.FrontierAt.unique {j : Journal} {w : Option (Nat × Nat)} {k m : Nat} (hm : j.FrontierAt w m)
    (hk : j.FrontierAt w k) : m = k := by
  obtain ⟨p, -, rfl, -⟩ := hm
  obtain ⟨q, -, hq, -⟩ := hk
  exact congrArg Prod.fst (Option.some.inj hq)

/-- The items that the scan sets (R164, R169). -/
@[simp] theorem Journal.scan_items (j : Journal) :
    j.scan.starting = false ∧ j.scan.reserved = 0 ∧ j.scan.queue = [] ∧ j.scan.writing = none ∧ j.scan.erase = none
     ∧ j.scan.note = none ∧ j.scan.release = none ∧ j.scan.low = false ∧ j.scan.cells = j.cells := by
  simp [Journal.scan]

/-- The newest record is the one of the greatest number that the scan reads (R169). -/
theorem Journal.scan_newest (j : Journal) : j.scan.newest = greatestOf (j.scanned.map fun e => slotSeq e.2) := by
  simp [Journal.scan]

/-- The mark that the cells give, no higher than the newest number (R164, R169). -/
theorem Journal.scan_mark (j : Journal) :
    (∀ n, j.scan.newest = some n → j.scan.mark = min (markOf j.cells).1 n)
      ∧ (j.scan.newest = none → j.scan.mark = (markOf j.cells).1) := by
  rw [j.scan_newest]
  simp only [Journal.scan, Journal.testAll_frame]
  exact ⟨fun n hn => by rw [hn], fun hn => by rw [hn]⟩

/-- The next number follows the newest, or the mark where there is no record (R169). -/
theorem Journal.scan_nextSeq (j : Journal) : j.scan.nextSeq = j.scan.newest.getD j.scan.mark + 1 := by
  simp only [Journal.scan, Journal.testAll_frame]

/-- The cell that holds the mark (R164). -/
theorem Journal.scan_holder (j : Journal) : j.scan.holder = holderOf j.cells j.scan.mark := by
  simp only [Journal.scan, Journal.testAll_frame]

/-- A cell that holds a mark is its holder, the first where both hold it (R164, log 38). -/
theorem holderOf_eq {cells : Two MarkCell} {mark : Nat} {d : Side} (hgood : (cells.side d).checkGood = true)
    (hvalue : (cells.side d).value = mark)
    (hother : d = .a ∨ (cells.side d.other).checkGood = false ∨ (cells.side d.other).value ≠ mark) :
    holderOf cells mark = some d := by
  cases d with
  | a => exact if_pos ⟨hgood, hvalue⟩
  | b =>
    have ha : ¬ (cells.a.checkGood = true ∧ cells.a.value = mark) := by
      rintro ⟨hg, hv⟩
      rcases hother with h | h | h
      · cases h
      · exact absurd (hg.symm.trans h) (by decide)
      · exact h hv
    exact (if_neg ha).trans (if_pos ⟨hgood, hvalue⟩)

/-- The free slots after the scan are those of the sectors that it leaves (R157, R169). -/
theorem Journal.scan_free (j : Journal) : j.scan.free = j.scan.countFree := by
  obtain ⟨v, hscan, -, -, -, -, -, -, -, -, -, hfree, -⟩ := j.scan_eq
  rw [hscan, v.testAll_countFree, ← hfree]
  simp

/-- Before the reclaim test, as after it, only a RECLAIMABLE sector is disregarded (R168). -/
theorem Journal.scanned_disregarded {j v : Journal} {k : Nat}
    (hsector : ∀ k, v.sector k = if k < 32 then j.scannedSector j.walked k else ⟨.blank, false⟩)
    (h : (v.sector k).disregarded = true) : (v.sector k).state = .reclaimable := by
  rw [hsector] at h ⊢
  split at h
  · rw [if_pos ‹_›]
    simp [Journal.scannedSector, (j.classOf_spec k).1 (Journal.scannedSector_disregarded h)]
  · cases h

/-- Oldest retained after the scan (R155, R169). -/
theorem Journal.scan_oldestStands (j : Journal) : j.scan.OldestStands := by
  obtain ⟨v, hscan, -, hsector, -, -, -, -, -, -, -, -, holdest⟩ := j.scan_eq
  rw [hscan]
  exact Journal.testAll_oldestStands (fun k => Journal.scanned_disregarded hsector) holdest


/-- Of the retained records those of the newest number are one, which the scan read where the walk starts (R169). -/
theorem Journal.WalksFrom.reads_once {j : Journal} {w : Option (Nat × Nat)} (h : j.WalksFrom w) {e f : Nat × SlotBits}
    (he : j.Reads e) (hf : j.Reads f)
    (hnewest : greatestOf (j.scanned.map fun e => slotSeq e.2) = some (slotSeq e.2)) (hsame : slotSeq f.2 = slotSeq e.2) :
    f = e := by
  have hone : ∀ g, j.ReadsNewest g → f = e := fun g hg => by
    obtain ⟨-, -, hlower⟩ := id hg
    rw [Journal.greatest_scanned hg, Option.some.injEq] at hnewest
    have his : ∀ x, j.Reads x → slotSeq x.2 = slotSeq g.2 → x = g := fun x hx hs =>
      by_contra fun hne => absurd (hlower x hx hne) (by omega)
    rw [his f hf (by omega), his e he (by omega)]
  rcases h with ⟨g, hg, -⟩ | ⟨g, hg, -⟩ | ⟨hnone, -⟩
  · exact hone g hg
  · exact hone g hg
  · exact absurd he (hnone e)

section scan
variable {j : Journal} {w : Option (Nat × Nat)}

/-- What the scan leaves before the reclaim test holds the newest number once, and disregards no content but that of a
RECLAIMABLE sector (R168, R169). -/
theorem Journal.scanned_newestOnce (h : j.WalksFrom w) (hm : cellsWf erasedSlot j.slots = true) {v : Journal}
    (hslots : v.slots = j.voided)
    (hsector : ∀ k, v.sector k = if k < 32 then j.scannedSector j.walked k else ⟨.blank, false⟩)
    (hnewest : v.newest = greatestOf (j.scanned.map fun e => slotSeq e.2)) : v.NewestOnce := by
  have hread : ∀ e ∈ v.records, j.Reads e := fun e he => by
    obtain ⟨hmem, hvalid, hretained⟩ := (v.mem_records e).mp he
    refine ⟨(Journal.valid_voided h hm e hvalid).mp (hslots ▸ hmem), hvalid, fun hnote => ?_⟩
    rw [hsector] at hretained
    split at hretained
    · rw [(Journal.scannedSector_spec h _).2.1 hnote] at hretained
      cases hretained
    · cases hretained
  exact ⟨fun k => Journal.scanned_disregarded hsector, fun e he f hf hn hs => by
    rw [h.reads_once (hread e he) (hread f hf) (hnewest ▸ hn) hs]⟩

/-- Each sector after the scan: that of the erase note to be erased, that of the frontier ACTIVE, the others by their slots, one
whose records are all released RECLAIMABLE (R162, R168, R169). -/
theorem Journal.scan_sector (h : j.WalksFrom w) (hm : cellsWf erasedSlot j.slots = true) {k : Nat} (hk : k < 32) :
    (j.FrontierAt w k → j.scan.sector k = ⟨.active, false⟩)
      ∧ (j.note = some k → j.scan.sector k = ⟨.reclaimable, true⟩)
      ∧ (j.note ≠ some k → ¬ j.FrontierAt w k → (j.AllBlank k → j.scan.sector k = ⟨.blank, false⟩)
        ∧ (¬ j.AllBlank k → (¬ j.scan.Spent k → j.scan.sector k = ⟨.full, false⟩)
          ∧ (j.scan.Spent k → j.scan.sector k = ⟨.reclaimable, false⟩))) := by
  obtain ⟨v, hscan, hslots, hsector, hnewest, -⟩ := j.scan_eq
  have hspent : j.scan.Spent k ↔ v.Spent k := by simp [hscan, Journal.Spent]
  have honce : v.NewestOnce := Journal.scanned_newestOnce h hm hslots hsector hnewest
  obtain ⟨-, -, htest, hstands⟩ := v.testAll_spec
  obtain ⟨hactive, hnoted, hrest⟩ := Journal.scannedSector_spec h k
  rw [← (hsector k).trans (if_pos hk)] at hactive hnoted hrest
  have hother : ∀ x : Sector, v.sector k = x → x.state ≠ .full → j.scan.sector k = x := fun x hx hne => by
    rw [hscan]
    rcases hstands k hk with hs | ⟨hfull, -⟩
    · rw [hs, hx]
    · exact absurd (hx ▸ hfull) hne
  refine ⟨fun hf => hother _ (hactive hf) nofun, fun hn => hother _ (hnoted hn) nofun, fun hn hf => ?_⟩
  obtain ⟨hblank, hfull⟩ := hrest hn hf
  refine ⟨fun hb => hother _ (hblank hb) nofun, fun hb => ⟨fun hs => ?_, fun hs => ?_⟩⟩
  · rw [hscan]
    rcases hstands k hk with hsame | ⟨-, hreleased, -⟩
    · rw [hsame, hfull hb]
    · exact absurd (hreleased honce) (mt hspent.mpr hs)
  · rw [hscan]
    exact htest k hk (by rw [hfull hb]) (hspent.mp hs)

/-- The five ways in which the scan leaves a sector (R168, R169). -/
theorem Journal.scan_sector_cases (h : j.WalksFrom w) (hm : cellsWf erasedSlot j.slots = true) {k : Nat} (hk : k < 32) :
    (j.FrontierAt w k ∧ j.scan.sector k = ⟨.active, false⟩)
      ∨ (¬ j.FrontierAt w k ∧ ((j.note = some k ∧ j.scan.sector k = ⟨.reclaimable, true⟩)
        ∨ (j.note ≠ some k ∧ ((j.AllBlank k ∧ j.scan.sector k = ⟨.blank, false⟩)
          ∨ (¬ j.AllBlank k ∧ ((¬ j.scan.Spent k ∧ j.scan.sector k = ⟨.full, false⟩)
            ∨ (j.scan.Spent k ∧ j.scan.sector k = ⟨.reclaimable, false⟩))))))) := by
  obtain ⟨hactive, hnoted, hrest⟩ := Journal.scan_sector h hm hk
  by_cases hf : j.FrontierAt w k
  · exact .inl ⟨hf, hactive hf⟩
  refine .inr ⟨hf, ?_⟩
  by_cases hn : j.note = some k
  · exact .inl ⟨hn, hnoted hn⟩
  obtain ⟨hblank, hwritten⟩ := hrest hn hf
  refine .inr ⟨hn, ?_⟩
  by_cases hb : j.AllBlank k
  · exact .inl ⟨hb, hblank hb⟩
  obtain ⟨hfull, hspent⟩ := hwritten hb
  refine .inr ⟨hb, ?_⟩
  by_cases hs : j.scan.Spent k
  · exact .inr ⟨hs, hspent hs⟩
  · exact .inl ⟨hs, hfull hs⟩

/-- A sector is ACTIVE after the scan exactly where the walk met a BLANK slot (R169). -/
theorem Journal.scan_active_iff (h : j.WalksFrom w) (hm : cellsWf erasedSlot j.slots = true) {k : Nat} (hk : k < 32) :
    (j.scan.sector k).state = .active ↔ j.FrontierAt w k := by
  rcases Journal.scan_sector_cases h hm hk with ⟨hf, hs⟩ | ⟨hf, ⟨-, hs⟩ | ⟨-, ⟨-, hs⟩ | ⟨-, ⟨-, hs⟩ | ⟨-, hs⟩⟩⟩⟩ <;>
    simp [hs, hf]

/-- A sector that no erase note names is RECLAIMABLE after the scan exactly where it is written, meets no frontier and its
records are all released (R162, R169). -/
theorem Journal.scan_reclaimable_iff (h : j.WalksFrom w) (hm : cellsWf erasedSlot j.slots = true) {k : Nat} (hk : k < 32)
    (hn : j.note ≠ some k) :
    (j.scan.sector k).state = .reclaimable ↔ ¬ j.FrontierAt w k ∧ ¬ j.AllBlank k ∧ j.scan.Spent k := by
  rcases Journal.scan_sector_cases h hm hk with ⟨hf, hs⟩ | ⟨hf, ⟨hn', hs⟩ | ⟨-, ⟨hb, hs⟩ | ⟨hb, ⟨hsp, hs⟩ | ⟨hsp, hs⟩⟩⟩⟩
  · simp [hs, hf]
  · exact absurd hn' hn
  · simp [hs, hb]
  · simp [hs, hsp]
  · simp [hs, hf, hb, hsp]

/-- The scan disregards the content of the sector that the erase note names, and of no other (R168). -/
theorem Journal.scan_disregarded_iff (h : j.WalksFrom w) (hm : cellsWf erasedSlot j.slots = true) {k : Nat} (hk : k < 32) :
    (j.scan.sector k).disregarded = true ↔ j.note = some k := by
  rcases Journal.scan_sector_cases h hm hk with ⟨hf, hs⟩ | ⟨-, ⟨hn, hs⟩ | ⟨hn, ⟨-, hs⟩ | ⟨-, ⟨-, hs⟩ | ⟨-, hs⟩⟩⟩⟩
  · obtain ⟨p, i, rfl, -⟩ := hf
    simp [hs, h.sector.2]
  all_goals simp [hs, hn]

/-! ### The journal after the scan, an erase started where one is due -/

/-- The journal with its low flag replaced. -/
def Journal.setLow (u : Journal) (b : Bool) : Journal := { u with low := b }

@[simp] theorem Journal.setLow_frame (u : Journal) (b : Bool) :
    (u.setLow b).starting = u.starting ∧ (u.setLow b).slots = u.slots ∧ (u.setLow b).newest = u.newest
     ∧ (u.setLow b).nextSeq = u.nextSeq ∧ (u.setLow b).mark = u.mark ∧ (u.setLow b).cells = u.cells
     ∧ (u.setLow b).holder = u.holder ∧ (u.setLow b).free = u.free ∧ (u.setLow b).reserved = u.reserved
     ∧ (u.setLow b).queue = u.queue ∧ (u.setLow b).writing = u.writing ∧ (u.setLow b).erase = u.erase
     ∧ (u.setLow b).note = u.note ∧ (u.setLow b).release = u.release ∧ (u.setLow b).low = b :=
  ⟨rfl, rfl, rfl, rfl, rfl, rfl, rfl, rfl, rfl, rfl, rfl, rfl, rfl, rfl, rfl⟩

/-- The low flag is read by nothing that says how the sectors stand. -/
theorem Journal.setLow_stands (u : Journal) (b : Bool) :
    (∀ k, (u.setLow b).sector k = u.sector k) ∧ (∀ k, (u.setLow b).Erases k ↔ u.Erases k)
      ∧ ((u.setLow b).OldestStands ↔ u.OldestStands) ∧ (u.setLow b).countFree = u.countFree :=
  ⟨fun _ => rfl, fun _ => Iff.rfl, Iff.rfl, rfl⟩

/-- The journal as JOURNAL_SCAN_DONE leaves it: the erase that is due started, the low flag set below 256 free slots (R163,
R169). -/
def Journal.restarted (j : Journal) : Journal := j.scan.startErase.setLow !j.scan.startErase.ample

/-- How the sectors stand at the end of the scan is how the start of the erase leaves them. -/
theorem Journal.restarted_stands (j : Journal) : (∀ k, j.restarted.sector k = j.scan.startErase.sector k)
    ∧ (∀ k, j.restarted.Erases k ↔ j.scan.startErase.Erases k)
    ∧ (j.restarted.OldestStands ↔ j.scan.startErase.OldestStands)
    ∧ j.restarted.countFree = j.scan.startErase.countFree := Journal.setLow_stands _ _

@[simp] theorem Journal.restarted_items (j : Journal) :
    j.restarted.starting = false ∧ j.restarted.reserved = 0 ∧ j.restarted.queue = [] ∧ j.restarted.writing = none
     ∧ j.restarted.release = none ∧ j.restarted.cells = j.cells ∧ j.restarted.slots = j.voided
     ∧ j.restarted.newest = j.scan.newest ∧ j.restarted.mark = j.scan.mark ∧ j.restarted.nextSeq = j.scan.nextSeq
     ∧ j.restarted.holder = j.scan.holder ∧ j.restarted.low = decide (j.restarted.free < 256) := by
  simp [Journal.restarted, Journal.ample, Config.lowMargin, Journal.scan_slots, ← decide_not]

/-- Spent before the erase and after it (R162). -/
theorem Journal.restarted_spent (j : Journal) (k : Nat) : j.restarted.Spent k ↔ j.scan.Spent k := by
  simp [Journal.Spent, Journal.scan_slots]

/-- Oldest retained at the end of the scan (R155, R169). -/
theorem Journal.restarted_oldestStands (j : Journal) : j.restarted.OldestStands := by
  obtain ⟨-, -, holdest, -⟩ := j.restarted_stands
  rw [holdest]
  cases hn : j.scan.nextErase with
  | none =>
    rw [Journal.startErase_none hn]
    exact j.scan_oldestStands
  | some k => exact (Journal.startErase_some (by simp) hn).2.1

/-- The sector to erase next is erased at the end of the scan (R162, R169). -/
theorem Journal.restarted_nextErase {k : Nat} (hk : j.scan.nextErase = some k) : j.restarted.Erases k := by
  obtain ⟨-, herases, -⟩ := j.restarted_stands
  exact (herases k).mpr (Journal.startErase_some (by simp) hk).1

/-- A sector at the end of the scan stands as the scan left it, or it is RECLAIMABLE and is erased (R162, R169). -/
theorem Journal.restarted_sector_or (k : Nat) : j.restarted.sector k = j.scan.sector k
    ∨ (j.scan.sector k).state = .reclaimable ∧ j.restarted.Erases k := by
  obtain ⟨hsector, herases, -⟩ := j.restarted_stands
  rw [hsector, herases]
  exact Journal.startErase_sector (by simp) k

/-- The sector that the erase note names is erased again (R168). -/
theorem Journal.restarted_noted (h : j.WalksFrom w) (hm : cellsWf erasedSlot j.slots = true) {k : Nat} (hk : k < 32)
    (hn : j.note = some k) : j.restarted.Erases k := by
  have hnext : j.scan.nextErase = some k := by
    refine Journal.nextErase_disregarded hk ((Journal.scan_sector h hm hk).2.1 hn) fun m hlt hs => ?_
    have hnoted := (Journal.scan_disregarded_iff h hm (hlt.trans hk)).mp (by rw [hs])
    exact absurd (Option.some.inj (hnoted.symm.trans hn)) hlt.ne
  exact Journal.restarted_nextErase hnext

/-- Each sector at the end of the scan (R157, R162, R168, R169). -/
theorem Journal.restarted_sector (h : j.WalksFrom w) (hm : cellsWf erasedSlot j.slots = true) {k : Nat} (hk : k < 32) :
    (j.FrontierAt w k → j.restarted.sector k = ⟨.active, false⟩)
      ∧ (j.note = some k → j.restarted.Erases k)
      ∧ (j.note ≠ some k → ¬ j.FrontierAt w k →
        (j.AllBlank k → j.restarted.sector k = ⟨.blank, false⟩)
        ∧ (¬ j.AllBlank k → ¬ j.restarted.Spent k → j.restarted.sector k = ⟨.full, false⟩)
        ∧ (¬ j.AllBlank k → j.restarted.Spent k →
            j.restarted.sector k = ⟨.reclaimable, false⟩ ∨ j.restarted.Erases k)) := by
  obtain ⟨hactive, -, hrest⟩ := Journal.scan_sector h hm hk
  have hstands : ∀ x : Sector, j.scan.sector k = x → x.state ≠ .reclaimable → j.restarted.sector k = x := fun x hx hne =>
    (Journal.restarted_sector_or k).elim (·.trans hx) fun hs => absurd (hx ▸ hs.1) hne
  simp only [j.restarted_spent k]
  refine ⟨fun hf => hstands _ (hactive hf) nofun, Journal.restarted_noted h hm hk, fun hn hf => ?_⟩
  obtain ⟨hblank, hwritten⟩ := hrest hn hf
  refine ⟨fun hb => hstands _ (hblank hb) nofun, fun hb hs => hstands _ ((hwritten hb).1 hs) nofun, fun hb hs => ?_⟩
  rw [← (hwritten hb).2 hs]
  exact (Journal.restarted_sector_or k).imp_right And.right

/-- Where the erase note names no sector, one whose records are all released is erased: that of the lowest numbers where one
has them, and none where there is none (R162, log 32). -/
theorem Journal.restarted_erases (h : j.WalksFrom w) (hm : cellsWf erasedSlot j.slots = true) {c : Nat → Prop}
    (hc : ∀ k, c k ↔ k < 32 ∧ j.note ≠ some k ∧ ¬ j.FrontierAt w k ∧ ¬ j.AllBlank k ∧ j.restarted.Spent k)
    (hnote : ∀ k < 32, j.note ≠ some k) :
    (∀ k, j.restarted.Lowest c k → j.restarted.Erases k) ∧ ((∃ k, c k) → ∃ k, c k ∧ j.restarted.Erases k)
      ∧ ((∀ k, ¬ c k) → j.restarted.erase = none ∧ j.restarted.note = none) := by
  have hc' : ∀ k, c k ↔ k < 32 ∧ (j.scan.sector k).state = .reclaimable := fun k => by
    rw [hc, j.restarted_spent]
    exact and_congr_right fun hk =>
      (and_iff_right (hnote k hk)).trans (Journal.scan_reclaimable_iff h hm hk (hnote k hk)).symm
  obtain rfl : c = fun k => k < 32 ∧ (j.scan.sector k).state = .reclaimable := funext fun k => propext (hc' k)
  refine ⟨fun k hl => ?_, fun ⟨k, hk, hs⟩ => ?_, fun hnone => ?_⟩
  · refine Journal.restarted_nextErase (Journal.nextErase_lowest (fun m hm32 => ?_) ?_)
    · simpa [hnote m hm32] using Journal.scan_disregarded_iff h hm hm32
    · simpa [Journal.Lowest, Journal.scan_slots] using hl
  · obtain ⟨m, hm'⟩ := Journal.nextErase_isSome hk hs
    exact ⟨m, Journal.nextErase_mem hm', Journal.restarted_nextErase hm'⟩
  · have hnext : j.scan.nextErase = none := Option.eq_none_iff_forall_ne_some.mpr fun k hk =>
      hnone k (Journal.nextErase_mem hk)
    simp [Journal.restarted, Journal.startErase_none hnext]

/-- The free slots at the end of the scan: those of the BLANK sectors, and the unwritten ones of the sector that the walk found
a frontier in (R157, R169). -/
theorem Journal.restarted_free (h : j.WalksFrom w) (hm : cellsWf erasedSlot j.slots = true) {n : Nat}
    (hn : n = 128 * (List.range 32).countP fun k => (j.restarted.sector k).state == .blank) :
    (∀ k < 32, j.FrontierAt w k → j.restarted.free
        = n + (List.range 128).countP fun i => readSlot j.restarted.slots (k * 128 + i) == BitVec.allOnes 512)
      ∧ ((∀ k < 32, ¬ j.FrontierAt w k) → j.restarted.free = n) := by
  have hfree : j.restarted.free = j.restarted.countFree := by
    obtain ⟨-, -, -, hcount⟩ := j.restarted_stands
    rw [hcount, Journal.startErase_countFree (by simp), ← j.scan_free]
    simp [Journal.restarted]
  have hactive : ∀ k < 32, (j.restarted.sector k).state = .active ↔ j.FrontierAt w k := fun k hk => by
    rw [← Journal.scan_active_iff h hm hk]
    rcases Journal.restarted_sector_or k with hs | ⟨hs, hx, -⟩
    · rw [hs]
    · simp [hs, hx]
  rw [hfree, hn]
  refine ⟨fun k hk hf => ?_, fun hnone => ?_⟩
  · have hone : ∀ m < 32, (j.restarted.sector m).state = .active ↔ m = k := fun m hm32 => by
      rw [hactive m hm32]
      exact ⟨fun hf' => hf'.unique hf, fun hmk => hmk ▸ hf⟩
    rw [Journal.countFree_of_active (by simp) hk hone]
  · rw [Journal.countFree_of_no_active (by simp) fun k hk => mt (hactive k hk).mp (hnone k hk)]

end scan

/-! ### JOURNAL_SCAN_DONE (R139, R163, R169) -/

/-- The low flag, clear before its test, is set where free − reserved is below 256 (R163). -/
theorem State.testLow_of_clear {s : State} (h : s.journal.low = false) :
    s.testLow.journal = s.journal.setLow !s.journal.ample
      ∧ (s.journal.ample = true → s.testLow = s)
      ∧ (s.journal.ample = false → Gains s s.testLow [alertTold (.journalLow s.journal.free s.journal.reserved)]) := by
  cases ha : s.journal.ample with
  | true =>
    have hsame : s.testLow = s := if_pos (by simp [ha])
    rw [hsame]
    exact ⟨by rw [Journal.setLow, Bool.not_true, ← h], fun _ => rfl, nofun⟩
  | false =>
    have halert : s.testLow = (s.setJournal { s.journal with low := true }).alert
        (.journalLow s.journal.free s.journal.reserved) := if_neg (by simp [ha, h])
    rw [halert]
    exact ⟨by simp [Journal.setLow], nofun, fun _ => (State.alert_gains _ _).before rfl⟩

/-- PAYLOAD leaves the body link (R179). -/
@[simp] theorem State.emitPayload_body (s : State) : s.emitPayload.links.body = s.links.body := by
  simp only [State.emitPayload, State.setInter_links, State.sendPayload_eq]
  split <;> rfl

/-- The state when the scan has ended and its erase is begun: the totals restored, PAYLOAD sent (R139, R169, R179). -/
def State.scanned (s : State) : State :=
  (s.setJournal s.journal.scan).restoreTotals.emitPayload.setJournal s.journal.scan.startErase

@[simp] theorem State.scanned_journal (s : State) : s.scanned.journal = s.journal.scan.startErase :=
  State.setJournal_journal _ _

@[simp] theorem State.scanned_body (s : State) : s.scanned.links.body = s.links.body := by simp [State.scanned]

@[simp] theorem State.scanned_comps (s : State) :
    s.scanned.comps = (s.setJournal s.journal.scan).restoreTotals.comps := by simp [State.scanned]

/-- The restored totals leave the counted tips (R139, R140). -/
@[simp] theorem State.restoreTotals_tips (s : State) :
    s.restoreTotals.comps.a.tips = s.comps.a.tips ∧ s.restoreTotals.comps.b.tips = s.comps.b.tips := by
  simp only [State.restoreTotals, State.setComps_comps, Comp.recompute]
  refine ⟨trivial, ?_⟩
  split <;> rfl

/-- The end of the scan with no pack cycle due: JOURNAL_LOW where it is crossed, the sharing made afresh (R141, R163, R169). -/
theorem State.finishScan_eq {s : State} (ha : s.comps.a.tips < s.settings.inForce.packAfter)
    (hb : s.comps.b.tips < s.settings.inForce.packAfter) : s.finishScan = s.scanned.testLow.refresh := by
  have hscanned : s.finishScan = s.scanned.testLow.testDueAll.refresh := by
    simp only [State.finishScan, State.scanned, State.emitPayload_frame, State.restoreTotals_frame, State.setJournal_journal]
  rw [hscanned, State.testDueAll_none (by simpa [State.scanned] using ha) (by simpa [State.scanned] using hb)]

/-- What the end of the scan leaves, with no pack cycle due (R139, R163, R169). -/
theorem State.finishScan_leaves {s : State} (ha : s.comps.a.tips < s.settings.inForce.packAfter)
    (hb : s.comps.b.tips < s.settings.inForce.packAfter) :
    s.finishScan.journal = s.journal.restarted
      ∧ s.finishScan.comps = (s.setJournal s.journal.scan).restoreTotals.comps
      ∧ s.finishScan.chans = s.chans
      ∧ (s.journal.restarted.free < 256 →
          Indicated s s.finishScan (.alert (.journalLow s.journal.restarted.free 0)))
      ∧ (256 ≤ s.journal.restarted.free → s.finishScan.links.body = s.links.body) := by
  obtain ⟨hjournal, hample, hlow⟩ := State.testLow_of_clear (s := s.scanned) (by simp)
  have hfree : s.scanned.journal.ample = true ↔ 256 ≤ s.journal.restarted.free := by
    simp [Journal.ample, Journal.restarted, Config.lowMargin]
  rw [State.finishScan_eq ha hb]
  refine ⟨by simpa [Journal.restarted] using hjournal, by simp, by simp [State.scanned], fun hf => Gains.indicated ?_, fun hf => ?_⟩
  · have hgains := hlow (by simpa using mt hfree.mp (Nat.not_le.mpr hf))
    have hall : Gains s s.scanned.testLow _ := (Gains.of_links s.scanned_body).trans hgains
    simpa [Journal.restarted] using hall.after (u := s.scanned.testLow.refresh) (by simp)
  · rw [hample (hfree.mpr hf)]
    simp

section totals
variable {s : State} {j : Journal}

/-- The totals that the newest record carries, an absent one as 0 (R139). -/
theorem State.restoreTotals_of_record {bits : SlotBits} (h : j.newestRecord = some bits) :
    (s.setJournal j).restoreTotals.comps.a.total = (if slotTotalA bits = 4294967295 then 0 else slotTotalA bits)
      ∧ (s.variant = .split → (s.setJournal j).restoreTotals.comps.b.total
          = if slotTotalB bits = 4294967295 then 0 else slotTotalB bits) := by
  refine ⟨?_, fun hsplit => ?_⟩
  · simp only [State.restoreTotals, State.setJournal_journal, h, Comp.recompute, State.setComps_comps]
    exact if_congr (by simp [absentField]) rfl rfl
  · simp only [State.restoreTotals, State.setJournal_journal, h, Comp.recompute, State.setComps_comps, State.hasComp,
      Compartment.present, State.setJournal_variant, hsplit]
    exact if_congr (by simp [absentField]) rfl rfl

/-- Without a record the totals are 0 (R139). -/
theorem State.restoreTotals_of_none (h : j.newest = none) :
    (s.setJournal j).restoreTotals.comps.a.total = 0
      ∧ (s.variant = .split → (s.setJournal j).restoreTotals.comps.b.total = 0) := by
  have hrecord : j.newestRecord = none := by simp only [Journal.newestRecord, h]
  refine ⟨by simp [State.restoreTotals, hrecord, Comp.recompute], fun hsplit => ?_⟩
  simp [State.restoreTotals, hrecord, Comp.recompute, State.hasComp, Compartment.present, hsplit]

/-- The compartments present start with no short stroke, their status by their total; an absent one stands (R137, R139). -/
theorem State.restoreTotals_status (s : State) (j : Journal) :
    (s.setJournal j).restoreTotals.comps.a.shorts = 0
      ∧ (s.setJournal j).restoreTotals.comps.a.status = statusOf (s.setJournal j).restoreTotals.comps.a.total 0
          s.settings.inForce.limitA s.settings.inForce.fullStrokes
      ∧ (s.variant = .single → (s.setJournal j).restoreTotals.comps.b = s.comps.b)
      ∧ (s.variant = .split → (s.setJournal j).restoreTotals.comps.b.shorts = 0
        ∧ (s.setJournal j).restoreTotals.comps.b.status = statusOf (s.setJournal j).restoreTotals.comps.b.total 0
            s.settings.inForce.limitB s.settings.inForce.fullStrokes) := by
  refine ⟨rfl, rfl, fun hsingle => ?_, fun hsplit => ?_⟩
  · simp [State.restoreTotals, State.hasComp, Compartment.present, hsingle]
  · simp [State.restoreTotals, State.hasComp, Compartment.present, hsplit, Comp.recompute, Settings.limit]

end totals

/-- Settles O18: the items by `scan_mark` and `scan_nextSeq`, the totals by those of the newest record, the sectors by
`restarted_sector` and `restarted_erases`, the slots by `voided_spec`, the free count by `restarted_free`. -/
theorem scanEndsStarting : Obligations.ScanEndsStarting := by
  unfold Obligations.ScanEndsStarting
  intro s hstarting hread hta htb hpack
  obtain ⟨hjournal, hcomps, hchans, hlow, hample⟩ := State.finishScan_leaves (s := s) (by rw [hta]; exact hpack)
    (by rw [htb]; exact hpack)
  obtain ⟨hshorts, hstatus, hsingle, hsplit⟩ := s.restoreTotals_status s.journal.scan
  obtain ⟨hmark, hmark0⟩ := s.journal.scan_mark
  refine ⟨s.finishScan, by simp [exec, execJournalScanDone, hstarting, hread], ?_⟩
  rw [hjournal, hcomps]
  simp only [Journal.restarted_items]
  refine ⟨trivial, trivial, trivial, trivial, trivial, s.journal.scan_newest, fun n hn => ?newest, fun hn => ?noRecord,
    fun bits hbits => State.restoreTotals_of_record hbits, hsingle, hsplit, fun hf => ?low, fun hf => ?ample, hshorts,
    hstatus, by simp, hchans, by simp, by simp, by simp, by simp, by simp, by simp, ?_⟩
  case newest => exact ⟨by rw [s.journal.scan_nextSeq, hn, Option.getD_some], hmark n hn⟩
  case noRecord => exact ⟨by rw [s.journal.scan_nextSeq, hn, Option.getD_none], hmark0 hn, State.restoreTotals_of_none hn⟩
  case low => exact ⟨decide_eq_true hf, hlow hf⟩
  case ample => exact ⟨decide_eq_false (Nat.not_lt.mpr hf), hample hf⟩
  rintro j u rfl rfl hm
  refine ⟨by simp, s.journal.restarted_oldestStands, fun d hgood hvalue hother => ?holder, fun w hw => ⟨?slots,
    fun k hk => Journal.restarted_sector hw hm hk, fun c hc hn => Journal.restarted_erases hw hm hc hn,
    fun n hn => Journal.restarted_free hw hm hn⟩⟩
  case holder =>
    simp only [Journal.restarted_items] at hvalue hother ⊢
    rw [s.journal.scan_holder]
    exact holderOf_eq hgood hvalue hother
  case slots => simpa using (Journal.voided_spec hw hm).2

end Sys2Proof.Machine

/-! ## Stored items read back (R153, R190, R194, R198) -/

namespace Sys2Proof

/-- Bytes dropped divide the number that they name (R193). -/
theorem leNat_drop (i : Nat) (bs : List Byte) : leNat bs / 256 ^ i = leNat (bs.drop i) := by
  induction i generalizing bs with
  | zero => simp
  | succ i ih =>
    cases bs with
    | nil => simp [leNat]
    | cons b bs =>
      have hb : b.toNat < 256 := b.isLt
      rw [List.drop_succ_cons, ← ih, pow_succ', ← Nat.div_div_eq_div_mul, leNat]
      congr 1
      omega

/-- Bytes taken are the number's remainder (R193). -/
theorem leNat_take (n : Nat) (bs : List Byte) : leNat bs % 256 ^ n = leNat (bs.take n) := by
  induction n generalizing bs with
  | zero => simp [leNat, Nat.mod_one]
  | succ n ih =>
    cases bs with
    | nil => simp [leNat]
    | cons b bs =>
      have hb : b.toNat < 256 := b.isLt
      have hmod : (b.toNat + 256 * leNat bs) % 256 = b.toNat := by omega
      have hdiv : (b.toNat + 256 * leNat bs) / 256 = leNat bs := by omega
      rw [List.take_succ_cons, leNat, leNat, ← ih, pow_succ', Nat.mod_mul, hmod, hdiv]

/-- A number is read back from the bytes that hold it, cut to their width (R193). -/
theorem leNat_toBytes (n v : Nat) : leNat (toBytes n v) = v % 256 ^ n := by
  induction n generalizing v with
  | zero => simp [toBytes, leNat, Nat.mod_one]
  | succ n ih => rw [toBytes, leNat, ih, BitVec.toNat_ofNat, pow_succ' 256 n, Nat.mod_mul]

end Sys2Proof

namespace Sys2Proof.Machine

/-! ### The record (R153, R194) -/

/-- A field of a stored item, by the bytes that it holds (R193). -/
theorem fieldOf_leNat {bs : List Byte} {w : Nat} (hw : w = 8 * bs.length) (i n : Nat) :
    fieldOf i n (BitVec.ofNat w (leNat bs)) = leNat ((bs.drop i).take n) := by
  have hfits : leNat bs < 2 ^ (8 * bs.length) := by simpa [pow_mul] using leNat_lt bs
  rw [fieldOf, hw, BitVec.toNat_ofNat, Nat.mod_eq_of_lt hfits, leNat_drop, leNat_take]

@[simp] theorem length_optField (n : Nat) (x : Option Nat) : (optField n x).length = n := length_toBytes ..

@[simp] theorem length_signedField (n : Nat) (x : Int) : (signedField n x).length = n := length_toBytes ..

@[simp] theorem length_weightField (x : Option Int) : (weightField x).length = 3 := by
  cases x <;> simp [weightField]

@[simp] theorem length_angleField (x : Option Int) : (angleField x).length = 2 := by
  cases x <;> simp [angleField]

/-- The 64 bytes that a slot holds of a record (R194). -/
def Record.bytes (r : Record) : List Byte := r.body ++ toBytes 4 (crc32 r.body).toNat

theorem Record.length_body (r : Record) : r.body.length = 60 := by
  unfold Record.body
  simp only [List.length_append, length_toBytes, length_optField, length_weightField, length_angleField]

theorem Record.length_bytes (r : Record) : r.bytes.length = 64 := by
  rw [Record.bytes, List.length_append, r.length_body, length_toBytes]

/-- A record's number is its first field (R194). -/
theorem Record.bytes_seq (r : Record) : ∃ rest, r.bytes = toBytes 4 r.seq ++ rest := by
  unfold Record.bytes Record.body
  simp only [List.append_assoc]
  exact ⟨_, rfl⟩

/-- A record's totals stand one after the other from byte 46 (R194). -/
theorem Record.bytes_totals (r : Record) :
    ∃ before rest, before.length = 46 ∧ r.bytes = before ++ toBytes 4 r.totalA ++ optField 4 r.totalB ++ rest := by
  unfold Record.bytes Record.body
  rw [List.append_assoc, List.append_assoc, List.append_assoc, List.append_assoc]
  refine ⟨_, _, ?_, rfl⟩
  simp only [List.length_append, length_toBytes, length_optField, length_weightField]

/-- A field of a slot that holds a record, by the bytes that stand around it (R194). -/
theorem Record.fieldOf_bits {r : Record} {i n : Nat} {before field rest : List Byte}
    (hbytes : r.bytes = before ++ field ++ rest) (hi : before.length = i) (hn : field.length = n) :
    fieldOf i n r.bits = leNat field := by
  have hbits : r.bits = BitVec.ofNat 512 (leNat r.bytes) := rfl
  rw [hbits, fieldOf_leNat (by rw [r.length_bytes]), hbytes, List.append_assoc, List.drop_left' hi, List.take_left' hn]

theorem Record.slotSeq_bits {r : Record} (h : r.seq ≤ maxCount32) : slotSeq r.bits = r.seq := by
  obtain ⟨rest, hbytes⟩ := r.bytes_seq
  rw [slotSeq, Record.fieldOf_bits (i := 0) (before := []) (field := toBytes 4 r.seq) hbytes rfl (length_toBytes 4 _),
    leNat_toBytes]
  exact Nat.mod_eq_of_lt (Nat.lt_of_le_of_lt h (by decide))

theorem Record.slotTotals_bits {r : Record} (ha : r.totalA < 2 ^ 32) (hb : ∀ n ∈ r.totalB, n < 2 ^ 32) :
    slotTotalA r.bits = r.totalA ∧ slotTotalB r.bits = r.totalB.getD (2 ^ 32 - 1) := by
  obtain ⟨before, rest, hlen, hbytes⟩ := r.bytes_totals
  have hb' : r.totalB.getD (2 ^ 32 - 1) < 2 ^ 32 := by
    cases h : r.totalB with
    | none => decide
    | some n => exact hb n h
  constructor
  · rw [slotTotalA, Record.fieldOf_bits (hbytes.trans (List.append_assoc ..)) hlen (length_toBytes 4 _), leNat_toBytes]
    exact Nat.mod_eq_of_lt ha
  · rw [slotTotalB, Record.fieldOf_bits hbytes (by simp [hlen]) (length_optField 4 _), optField, leNat_toBytes]
    exact Nat.mod_eq_of_lt hb'

/-- A slot that holds a record passes its check (R194). -/
theorem Record.slotCheck_bits (r : Record) : slotCheck r.bits = true := by
  have hbytes : bytesOf 64 r.bits = r.bytes := bytesOf_leNat r.length_bytes rfl
  have hcheck : r.bytes = r.body ++ toBytes 4 (crc32 r.body).toNat ++ [] := (List.append_nil _).symm
  rw [slotCheck, Record.fieldOf_bits hcheck r.length_body (length_toBytes 4 _), leNat_toBytes, hbytes, Record.bytes,
    List.take_left' r.length_body, beq_iff_eq]
  exact (Nat.mod_eq_of_lt (crc32 r.body).isLt).symm

/-- A field at the start of an item of all ones is all ones (R193). -/
theorem fieldOf_allOnes {w n : Nat} (h : 8 * n ≤ w) : fieldOf 0 n (BitVec.allOnes w) = absentField n := by
  have hpow : 2 ^ w = 256 ^ n * 2 ^ (w - 8 * n) := by
    rw [show 256 = 2 ^ 8 from rfl, ← pow_mul, ← pow_add, Nat.add_sub_cancel' h]
  obtain ⟨high, hhigh⟩ := Nat.exists_eq_succ_of_ne_zero (Nat.two_pow_pos (w - 8 * n)).ne'
  have hlow : 0 < 256 ^ n := by positivity
  have hsplit : 256 ^ n * (high + 1) - 1 = (256 ^ n - 1) + 256 ^ n * high := by rw [Nat.mul_succ]; omega
  rw [fieldOf, BitVec.toNat_allOnes, pow_zero, Nat.div_one, hpow, hhigh, hsplit, Nat.add_mul_mod_self_left, absentField,
    Nat.mod_eq_of_lt (by omega)]

/-- A BLANK slot's number would be all ones (R153). -/
theorem slotSeq_blank : slotSeq blankSlot = absentField 4 := fieldOf_allOnes (by decide)

theorem slotSeq_zero : slotSeq 0#512 = 0 := by
  rw [slotSeq, fieldOf, BitVec.toNat_zero, Nat.zero_div, Nat.zero_mod]

/-- A slot that holds a record of a number in range is VALID (R153, R194). -/
theorem Record.patternOf_bits {r : Record} (h1 : 1 ≤ r.seq) (h : r.seq ≤ maxCount32) : patternOf r.bits = .valid := by
  have hseq := Record.slotSeq_bits h
  have hblank : r.bits ≠ blankSlot := by
    intro hc
    rw [← hseq, hc, slotSeq_blank] at h
    exact absurd h (by decide)
  have hvoid : r.bits ≠ 0#512 := by
    intro hc
    rw [← hseq, hc, slotSeq_zero] at h1
    exact absurd h1 (by decide)
  rw [patternOf, if_neg hblank, if_neg hvoid, if_pos r.slotCheck_bits]

/-! ### The stored metrology block (R101, R198) -/

section block
variable (p : Params) (check : Option Word32) (cal : CalState) (cec : Nat)

/-- A field of the stored block, by the bytes written (R198). -/
theorem fieldOf_storedBlock (i n : Nat) :
    fieldOf i n (storedBlock p check cal cec).contents = leNat (((blockBytes p check cal cec).drop i).take n) :=
  fieldOf_leNat (by rw [length_blockBytes]) i n

/-- A signed field holds its number's remainder (R193). -/
theorem leNat_signedField (n : Nat) (x : Int) : (leNat (signedField n x) : Int) = x % (256 ^ n : Nat) := by
  have hpos : 0 < 256 ^ n := by positivity
  have hmod : ((x % (256 ^ n : Nat)).toNat : Int) = x % (256 ^ n : Nat) := Int.toNat_of_nonneg (Int.emod_nonneg _ (by omega))
  rw [signedField, leNat_toBytes, Int.natCast_emod, hmod, Int.emod_emod]

/-- A number that is not negative and fits its field is read back (R193). -/
theorem leNat_signedField_of_nonneg {n : Nat} {x : Int} (h0 : 0 ≤ x) (h : x < (256 ^ n : Nat)) :
    (leNat (signedField n x) : Int) = x := by
  rw [leNat_signedField, Int.emod_eq_of_lt h0 h]

/-- A signed number of 4 bytes is read back (R193). -/
theorem toInt_leNat_signedField {x : Int} (hlo : -2 ^ 31 ≤ x) (hhi : x < 2 ^ 31) :
    (BitVec.ofNat 32 (leNat (signedField 4 x))).toInt = x := by
  have hpow : 256 ^ 4 = 2 ^ 32 := rfl
  rw [BitVec.toInt_ofNat', leNat_signedField, hpow, Int.emod_bmod]
  exact Int.bmod_eq_of_le (by omega) (by omega)

/-- The parameters' fields of the block and the bytes they stand at (R198). -/
theorem storedBlock_params (x : BlockBits) (hx : x = (storedBlock p check cal cec).contents) :
    fieldOf 0 4 x = leNat (signedField 4 p.zA) ∧ fieldOf 4 4 x = leNat (signedField 4 p.zB)
      ∧ fieldOf 8 4 x = leNat (signedField 4 p.kA) ∧ fieldOf 12 4 x = leNat (signedField 4 p.kB)
      ∧ fieldOf 16 2 x = leNat (signedField 2 p.d) ∧ fieldOf 18 4 x = leNat (signedField 4 p.max)
      ∧ fieldOf 22 1 x = leNat (signedField 1 p.min) ∧ fieldOf 23 1 x = leNat (signedField 1 p.band)
      ∧ fieldOf 24 2 x = leNat (signedField 2 p.tilt) := by
  subst hx
  simp [fieldOf_storedBlock, blockBytes, List.drop_append, List.drop_eq_nil_of_le]

/-- The fields of the block after the parameters, and the bytes they stand at (R198). -/
theorem storedBlock_state (x : BlockBits) (hx : x = (storedBlock p check cal cec).contents) :
    fieldOf 26 4 x = leNat (toBytes 4 (check.getD allOnes32).toNat)
      ∧ fieldOf 30 1 x = leNat (toBytes 1 (blockFlags cal check)) ∧ fieldOf 31 2 x = leNat (toBytes 2 cec) := by
  subst hx
  simp [fieldOf_storedBlock, blockBytes, List.drop_append, List.drop_eq_nil_of_le, List.take_of_length_le]

theorem blockParams_storedBlock (hp : p.inRange = true) : blockParams (storedBlock p check cal cec).contents = p := by
  obtain ⟨hzA, hzB, hkA, hkB, hd, hmax, hmin, hband, htilt⟩ := storedBlock_params p check cal cec _ rfl
  simp only [Params.inRange, within, Bool.and_eq_true, Bool.or_eq_true, decide_eq_true_eq, beq_iff_eq] at hp
  obtain ⟨⟨⟨⟨⟨⟨⟨⟨⟨zA, zB⟩, kA⟩, kB⟩, d⟩, max⟩, -⟩, min⟩, band⟩, tilt⟩ := hp
  simp only [blockParams, blockSigned, hzA, hzB, hkA, hkB, hd, hmax, hmin, hband, htilt]
  rw [toInt_leNat_signedField (by omega) (by omega), toInt_leNat_signedField (by omega) (by omega)]
  rw [leNat_signedField_of_nonneg, leNat_signedField_of_nonneg, leNat_signedField_of_nonneg, leNat_signedField_of_nonneg,
    leNat_signedField_of_nonneg, leNat_signedField_of_nonneg, leNat_signedField_of_nonneg]
  all_goals omega

/-- Byte 30 of the block: its two bits and no other (R198). -/
theorem blockFlags_bits : blockFlags cal check < 256 ∧ blockFlags cal check % 2 = (if cal = .valid then 0 else 1)
    ∧ blockFlags cal check / 2 % 2 = if check.isSome then 1 else 0 := by
  unfold blockFlags
  split <;> split <;> decide

theorem fieldOf_storedBlock_flags : fieldOf 30 1 (storedBlock p check cal cec).contents = blockFlags cal check := by
  obtain ⟨-, hflags, -⟩ := storedBlock_state p check cal cec _ rfl
  rw [hflags, leNat_toBytes]
  exact Nat.mod_eq_of_lt (blockFlags_bits check cal).1

theorem blockLockedCheck_storedBlock : blockLockedCheck (storedBlock p check cal cec).contents = check := by
  obtain ⟨hcheck, -⟩ := storedBlock_state p check cal cec _ rfl
  rw [blockLockedCheck, fieldOf_storedBlock_flags, hcheck, leNat_toBytes, (blockFlags_bits check cal).2.2]
  cases check with
  | none => rfl
  | some w =>
    have hw : w.toNat % 256 ^ 4 = w.toNat := Nat.mod_eq_of_lt w.isLt
    simp only [Option.isSome_some, if_true, Option.getD_some, hw, BitVec.ofNat_toNat, BitVec.setWidth_eq]

theorem blockCal_storedBlock (hcal : cal ≠ .invalid) : blockCal (storedBlock p check cal cec).contents = cal := by
  rw [blockCal, fieldOf_storedBlock_flags, (blockFlags_bits check cal).2.1]
  cases cal with
  | valid | unverified => rfl
  | invalid => exact absurd rfl hcal

theorem blockCec_storedBlock (hcec : cec ≤ 65535) : blockCec (storedBlock p check cal cec).contents = cec := by
  obtain ⟨-, -, hfield⟩ := storedBlock_state p check cal cec _ rfl
  rw [blockCec, hfield, leNat_toBytes]
  omega

end block

/-! ### The settings (R190, R191) -/

/-- A value in a setting's range is taken from a cell as it stands (R190). -/
theorem Setting.readBack_of_inRange {k : Setting} {v : Nat} (h : k.range.1 ≤ v ∧ v ≤ k.range.2) : k.readBack v = v := by
  obtain ⟨hlow, hhigh⟩ := h
  rw [Setting.readBack, if_pos hhigh, Setting.clamp, clampNat, if_neg hlow.not_gt, if_neg hhigh.not_gt, ite_self]

/-- All settings put, one after another, make the whole (R191). -/
theorem Settings.put_all (x y : Settings) : allSettings.foldl (fun z k => z.put k (x.value k)) y = x := by
  have hpolicy : (if x.value .untaggedPolicy = 0 then .liftUnbilled else .refuse) = x.untaggedPolicy := by
    cases h : x.untaggedPolicy <;> simp [Settings.value, policyCode, h]
  have hrefuse : (if x.value .mapRefuse = 0 then .a else .b) = x.mapRefuse := by
    cases h : x.mapRefuse <;> simp [Settings.value, compartmentCode, h]
  have hrecycle : (if x.value .mapRecycle = 0 then .a else .b) = x.mapRecycle := by
    cases h : x.mapRecycle <;> simp [Settings.value, compartmentCode, h]
  simp only [allSettings, List.foldl_cons, List.foldl_nil, Settings.put, hpolicy, hrefuse, hrecycle]
  rfl

/-- Settings within their ranges come back from a cell (R190). -/
theorem Settings.ofValues_values {x : Settings} (h : ∀ k ∈ allSettings, k.range.1 ≤ x.value k ∧ x.value k ≤ k.range.2) :
    Settings.ofValues x.values = x := by
  have hread : ∀ k ∈ allSettings, k.readBack (x.value k) = x.value k := fun k hk => Setting.readBack_of_inRange (h k hk)
  calc Settings.ofValues x.values
      = allSettings.foldl (fun z k => z.put k (k.readBack (x.value k))) Settings.defaults := by
        have hzip : allSettings.zip x.values = allSettings.map fun k => (k, x.value k) := by
          simpa [Settings.values] using List.zip_map' (f := id) (g := x.value) (l := allSettings)
        rw [Settings.ofValues, hzip, List.foldl_map]
    _ = allSettings.foldl (fun z k => z.put k (x.value k)) Settings.defaults :=
        List.foldl_ext _ _ _ fun z k hk => by rw [hread k hk]
    _ = x := Settings.put_all x _

/-- Settles O13: a record by its fields among its 64 bytes, the block by its fields among its 33, the settings by putting every
value as it stands. -/
theorem storedItemsReadBack : Obligations.StoredItemsReadBack := by
  unfold Obligations.StoredItemsReadBack
  refine ⟨fun r h1 h ha hb => ?record, fun p check cal cec hp hcal hcec => ?block, fun x => Settings.ofValues_values⟩
  case record =>
    obtain ⟨htotalA, htotalB⟩ := Record.slotTotals_bits ha hb
    exact ⟨r.slotCheck_bits, Record.slotSeq_bits h, Record.patternOf_bits h1 h, htotalA, htotalB⟩
  case block =>
    exact ⟨storedBlock_good p check cal cec, blockParams_storedBlock p check cal cec hp,
      blockLockedCheck_storedBlock p check cal cec, blockCal_storedBlock p check cal cec hcal,
      blockCec_storedBlock p check cal cec hcec⟩

end Sys2Proof.Machine

namespace Sys2Proof.Machine

/-! ## Reading and releasing the journal (R162, R164 to R166) -/

/-! ### JOURNAL_READ (R166) -/

section read
variable {u : State} {h : Header} {f : JournalReadFields} {n new old : Nat}

/-- A request for a record's number, given or the next unreleased one, reaches the records (R166, R197). -/
theorem State.takeJournalRead_number (hstart : u.journal.starting = false)
    (hn : f.form = 0#8 ∧ f.seq ≠ allOnes32 ∧ n = f.seq.toNat ∨ f.form = 1#8 ∧ n = u.journal.mark + 1) :
    State.takeJournalRead h f u = u.readRecord h n := by
  rcases hn with ⟨hform, hseq, rfl⟩ | ⟨hform, rfl⟩
  · simp [State.takeJournalRead, hstart, hform, hseq]
  · simp [State.takeJournalRead, hstart, hform]

theorem State.takeJournalRead_malformed (hstart : u.journal.starting = false)
    (hbad : f.form = 0#8 ∧ f.seq = allOnes32 ∨ 2 ≤ f.form.toNat) :
    State.takeJournalRead h f u = u.answer h 21#8 .malformed .empty := by
  rcases hbad with ⟨hform, hseq⟩ | hform
  · simp [State.takeJournalRead, hstart, hform, hseq]
  · simp only [State.takeJournalRead, hstart, Bool.false_eq_true, if_false]
    split
    · omega
    · omega
    · rfl

theorem State.readRecord_empty (hnew : u.journal.newest = none) :
    u.readRecord h n = u.answer h 21#8 .notYet (.seq none) := by
  simp only [State.readRecord, hnew]

/-- A number above the newest written one (R166). -/
theorem State.readRecord_above (hnew : u.journal.newest = some new) (hold : u.journal.oldest = some old) (hn : new < n) :
    u.readRecord h n = u.answer h 21#8 .notYet (.seq (some new)) := by
  simp only [State.readRecord, hnew, hold, if_pos hn]

/-- A number below the oldest retained one (R166). -/
theorem State.readRecord_below (hnew : u.journal.newest = some new) (hold : u.journal.oldest = some old) (hn : n ≤ new)
    (hlt : n < old) : u.readRecord h n = u.answer h 21#8 .gone (.seq (some old)) := by
  simp only [State.readRecord, hnew, hold, if_neg hn.not_gt, if_pos hlt]

/-- A number between them whose record stands (R166). -/
theorem State.readRecord_found {e : Nat × SlotBits} (hnew : u.journal.newest = some new)
    (hold : u.journal.oldest = some old) (hn : n ≤ new) (hge : old ≤ n) (he : u.journal.find n = some e) :
    u.readRecord h n = u.answer h 21#8 .ok (.record e.2 new u.journal.mark) := by
  simp only [State.readRecord, hnew, hold, if_neg hn.not_gt, if_neg hge.not_gt, he]

/-- A request is answered at its own port, and its transmit queue alone takes what is sent (R182). -/
theorem onlyPort_of_answer (s : State) (h : Header) (k : Byte) (c : Code) (d : AnswerData) :
    OnlyPort s ((s.popped h).answer h k c d) h := by
  obtain ⟨hother, hkept, hservice, htag⟩ := State.answer_keeps (s.popped h) h k c d
  obtain ⟨hrx, hdeferred, hbus, hsent⟩ := hkept h.src.port
  refine ⟨?_, ?_, ?_, ?_, fun q hq => ?_, ?_, ?_⟩
  · rw [hrx, State.popped_port, if_pos rfl]
  · rw [hdeferred, State.popped_port, if_pos rfl]
  · rw [hbus, State.popped_port, if_pos rfl]
  · rw [hsent, State.popped_port, if_pos rfl]
  · rw [hother q hq, State.popped_port, if_neg hq]
  · rw [hservice]; simp [State.popped]
  · rw [htag]; simp [State.popped]

/-- An answer of two parts: both are queued, or BUSY in their place (R187, log 17). -/
theorem answer_of_two_parts {s : State} {k : Byte} {c : Code} {d : AnswerData} (hp : h.src.port ≠ .chassis)
    (hd : ∀ ix, partCount ix d = 2) {t : State} (ht : t = (s.popped h).answer h k c d) :
    OnlyPort s t h
      ∧ ((s.port h.src.port).onBus = true → (s.port h.src.port).tx.length + 2 ≤ 16 →
          (t.port h.src.port).tx = (s.port h.src.port).tx ++ [.answer h k c 1 2 d, .answer h k c 2 2 d])
      ∧ (14 < (s.port h.src.port).tx.length → Answers s t h k .busy .empty) := by
  have hport : (s.popped h).port h.src.port = { s.port h.src.port with rx := (s.port h.src.port).rx.tail } := by
    rw [State.popped_port, if_pos rfl]
  have hqueued : (s.port h.src.port).onBus = true →
      (t.port h.src.port).tx = queueParts (s.port h.src.port).tx h k c d 2 := fun hbus => by
    rw [ht, State.answer_port _ h k c d hp (by rw [hport]; exact hbus), hport, hd]
  refine ⟨ht ▸ onlyPort_of_answer s h k c d, fun hbus hroom => ?parts, fun hfull hroom => ?busy⟩
  case parts =>
    rw [hqueued hbus, queueParts, if_neg (by decide)]
    exact if_pos hroom
  case busy =>
    simp only [State.room, Bool.and_eq_true, Bool.or_eq_true, decide_eq_true_eq] at hroom
    obtain ⟨hbus, hgives⟩ := hroom
    have hlarge : ¬ (s.port h.src.port).tx.length + 2 ≤ Config.txCapacity := by simp only [Config.txCapacity]; omega
    rw [hqueued hbus, queueParts, if_neg (by decide), if_neg hlarge]
    exact queueAnswer_last _ _ hgives

end read

/-- What JOURNAL_READ answers; it changes nothing (R166). -/
theorem journalRead_outcomes {s : State} {h : Header} {f : JournalReadFields} (ht : Taken s h (.journalRead (some f))) :
    ∃ t, exec (.journalRead h (some f)) s = .next t ∧ t.core = s.core
      ∧ (s.journal.starting = true → Settled s t h 21#8 .busy .empty)
      ∧ (s.journal.starting = false → (f.form = 0#8 ∧ f.seq = allOnes32 ∨ 2 ≤ f.form.toNat) →
          Settled s t h 21#8 .malformed .empty)
      ∧ ∀ n, s.journal.starting = false →
        (f.form = 0#8 ∧ f.seq ≠ allOnes32 ∧ n = f.seq.toNat ∨ f.form = 1#8 ∧ n = s.journal.mark + 1) →
        t = (s.popped h).readRecord h n := by
  have hp : h.src.port ≠ .chassis := ht.port_ne_chassis (by simp)
  have hjournal : (s.popped h).journal = s.journal := by simp
  refine ⟨State.takeJournalRead h f (s.popped h), congrArg Host.Outcome.next (State.request_taken s h _ f _ ht),
    by simp [State.core_eq_iff], ?_⟩
  rw [← hjournal]
  exact ⟨fun hstart => (settled_unchanged hp (fun _ => rfl) (if_pos hstart)).2,
    fun hstart hbad => (settled_unchanged hp (fun _ => rfl) (State.takeJournalRead_malformed hstart hbad)).2,
    fun n hstart hn => State.takeJournalRead_number hstart hn⟩

/-- What a record's number is answered (R166, log 33). -/
theorem readRecord_outcomes {s t : State} {h : Header} {n : Nat} (hp : h.src.port ≠ .chassis)
    (ht : t = (s.popped h).readRecord h n) :
    (s.journal.newest = none → Settled s t h 21#8 .notYet (.seq none))
      ∧ ∀ new old, s.journal.newest = some new → s.journal.oldest = some old →
        (new < n → Settled s t h 21#8 .notYet (.seq (some new)))
        ∧ (n ≤ new → n < old → Settled s t h 21#8 .gone (.seq (some old)))
        ∧ ∀ e, n ≤ new → old ≤ n → s.journal.find n = some e →
            t = (s.popped h).answer h 21#8 .ok (.record e.2 new s.journal.mark) := by
  have hjournal : (s.popped h).journal = s.journal := by simp
  rw [← hjournal]
  exact ⟨fun hnew => (settled_unchanged hp (fun _ => rfl) (ht.trans (State.readRecord_empty hnew))).2,
    fun new old hnew hold =>
      ⟨fun habove => (settled_unchanged hp (fun _ => rfl) (ht.trans (State.readRecord_above hnew hold habove))).2,
        fun hle hbelow => (settled_unchanged hp (fun _ => rfl) (ht.trans (State.readRecord_below hnew hold hle hbelow))).2,
        fun e hle hge he => ht.trans (State.readRecord_found hnew hold hle hge he)⟩⟩

/-! ### JOURNAL_RELEASE (R164, R165) -/

section release
variable {u : State} {h : Header} {w : Word32} {new : Nat}

theorem State.takeJournalRelease_malformed (hstart : u.journal.starting = false) (hw : w = allOnes32) :
    State.takeJournalRelease h w u = u.answer h 22#8 .malformed .empty := by
  simp [State.takeJournalRelease, hstart, hw]

theorem State.takeJournalRelease_busy (hstart : u.journal.starting = false) (hw : w ≠ allOnes32)
    (hrel : u.journal.release.isSome = true) : State.takeJournalRelease h w u = u.answer h 22#8 .busy .empty := by
  simp [State.takeJournalRelease, hstart, hw, hrel]

/-- A number at or below the mark has nothing to raise (R165). -/
theorem State.takeJournalRelease_released (hstart : u.journal.starting = false) (hw : w ≠ allOnes32)
    (hrel : u.journal.release = none) (hle : w.toNat ≤ u.journal.mark) :
    State.takeJournalRelease h w u = u.answer h 22#8 .ok (.count u.journal.unreleased) := by
  simp [State.takeJournalRelease, hstart, hw, hrel, hle]

/-- With no record written there is nothing to release (R165, log 33). -/
theorem State.takeJournalRelease_empty (hstart : u.journal.starting = false) (hw : w ≠ allOnes32)
    (hrel : u.journal.release = none) (habove : u.journal.mark < w.toNat) (hnew : u.journal.newest = none) :
    State.takeJournalRelease h w u = u.answer h 22#8 .clamped (.count 0) := by
  simp [State.takeJournalRelease, hstart, hw, hrel, habove.not_ge, hnew]

/-- With every record released there is nothing to release (R165). -/
theorem State.takeJournalRelease_clamped (hstart : u.journal.starting = false) (hw : w ≠ allOnes32)
    (hrel : u.journal.release = none) (habove : u.journal.mark < w.toNat) (hnew : u.journal.newest = some new)
    (hmark : new = u.journal.mark) :
    State.takeJournalRelease h w u = u.answer h 22#8 .clamped (.count u.journal.unreleased) := by
  subst hmark
  simp [State.takeJournalRelease, hstart, hw, hrel, habove.not_ge, hnew]

/-- A number above the mark starts a release write to at most the newest written number (R165). -/
theorem State.takeJournalRelease_starts (hstart : u.journal.starting = false) (hw : w ≠ allOnes32)
    (hrel : u.journal.release = none) (habove : u.journal.mark < w.toNat) (hnew : u.journal.newest = some new)
    (hmark : u.journal.mark < new) :
    State.takeJournalRelease h w u = u.startRelease h (min w.toNat new) (decide (new < w.toNat)) := by
  by_cases hle : w.toNat ≤ new
  · rw [min_eq_left hle, decide_eq_false hle.not_gt]
    simp [State.takeJournalRelease, hstart, hw, hrel, habove.not_ge, hnew, hle]
  · have hlt : new < w.toNat := Nat.lt_of_not_le hle
    rw [min_eq_right hlt.le, decide_eq_true hlt]
    simp [State.takeJournalRelease, hstart, hw, hrel, habove.not_ge, hnew, hle, hmark]

/-- A release write started holds the request, and the cell that holds the present mark stands (R164, R165). -/
theorem startRelease_leaves {s t : State} {value : Nat} {clamped : Bool}
    (ht : t = (s.popped h).startRelease h value clamped) :
    t.journal.release = some ⟨value, clamped⟩ ∧ t.journal.mark = s.journal.mark ∧ t.journal.slots = s.journal.slots
      ∧ Held s t h 22#8 ∧ ∀ d, s.journal.holder = some d → t.journal.cells.side d = s.journal.cells.side d := by
  have hjournal : t.journal = s.journal.startRelease ⟨value, clamped⟩ := by rw [ht]; simp [State.startRelease]
  have hheld : Held s t h 22#8 := ht ▸ held_of_defer rfl
  rw [hjournal]
  refine ⟨rfl, rfl, rfl, hheld, fun d hd => ?_⟩
  rw [Journal.startRelease, Journal.markTarget, hd]
  exact Two.side_putSide_other _ _ _ _ (by cases d <;> decide)

end release

/-! ### The mark raised, and what is reclaimed (R162, R164, R165) -/

/-- The journal with the mark raised by a release write, before the tests of the sectors (R164, R165). -/
def Journal.marked (j : Journal) (w : ReleaseWrite) : Journal :=
  { j with
    release := none, mark := w.value, holder := some j.markTarget,
    cells := j.cells.putSide j.markTarget ⟨w.value, true⟩ }

theorem Journal.finishRelease_eq (j : Journal) (w : ReleaseWrite) :
    j.finishRelease w = (j.marked w).testAll.startErase := rfl

/-- The mark goes to the cell that does not hold the present one (R164, log 38). -/
theorem Journal.marked_cells (j : Journal) (w : ReleaseWrite) :
    (∀ d, j.holder = some d → (j.marked w).cells.side d = j.cells.side d
        ∧ (j.marked w).cells.side d.other = ⟨w.value, true⟩ ∧ (j.marked w).holder = some d.other)
      ∧ (j.holder = none → (j.marked w).cells = ⟨⟨w.value, true⟩, j.cells.b⟩ ∧ (j.marked w).holder = some .a) := by
  refine ⟨fun d hd => ?_, fun hnone => ?_⟩
  · simp only [Journal.marked, Journal.markTarget, hd]
    exact ⟨Two.side_putSide_other _ _ _ _ (by cases d <;> decide), Two.side_putSide_same .., trivial⟩
  · simp only [Journal.marked, Journal.markTarget, hnone]
    exact ⟨rfl, trivial⟩

/-- A sector that is not erased next stands over the start of an erase (R162). -/
theorem Journal.startErase_sector_of_ne {j : Journal} {k : Nat} (h : j.nextErase ≠ some k) :
    j.startErase.sector k = j.sector k := by
  by_cases he : j.erase = none
  · cases hn : j.nextErase with
    | none => rw [Journal.startErase_none hn]
    | some m =>
      obtain ⟨-, -, hothers, -⟩ := Journal.startErase_some he hn
      exact hothers k fun hk => h (hk ▸ hn)
  · rw [Journal.startErase_busy he]

/-- With no RECLAIMABLE sector none is erased next (R162). -/
theorem Journal.nextErase_none {j : Journal} (h : ∀ k < 32, (j.sector k).state ≠ .reclaimable) : j.nextErase = none :=
  Option.eq_none_iff_forall_ne_some.mpr fun k hk => h k (Journal.nextErase_mem hk).1 (Journal.nextErase_mem hk).2

/-- A sector that is RECLAIMABLE, or becomes so by the reclaim test (R162). -/
def Journal.Reclaims (v : Journal) (k : Nat) : Prop :=
  k < 32 ∧ ((v.sector k).state = .reclaimable ∨ ((v.sector k).state = .full ∧ v.Spent k))

section reclaim
variable {v : Journal} {k : Nat}

/-- A sector that is not reclaimed stands over the reclaim test (R162). -/
theorem Journal.testAll_sector_of_not (hd : v.NewestOnce) (h : ¬ v.Reclaims k) : v.testAll.sector k = v.sector k := by
  obtain ⟨-, hbeyond, -, hwithin⟩ := v.testAll_spec
  by_cases hk : k < 32
  · exact (hwithin k hk).resolve_right fun ⟨hfull, hspent, _⟩ => h ⟨hk, .inr ⟨hfull, hspent hd⟩⟩
  · exact hbeyond k hk

/-- What is RECLAIMABLE after the reclaim test (R162). -/
theorem Journal.testAll_reclaimable (hd : v.NewestOnce) :
    (k < 32 ∧ (v.testAll.sector k).state = .reclaimable) ↔ v.Reclaims k := by
  obtain ⟨-, -, hspent, hwithin⟩ := v.testAll_spec
  refine ⟨fun ⟨hk, hs⟩ => by_contra fun hn => ?_, fun ⟨hk, hs⟩ => ⟨hk, ?_⟩⟩
  · rw [Journal.testAll_sector_of_not hd hn] at hs
    exact hn ⟨hk, .inl hs⟩
  · rcases hs with hs | ⟨hfull, hsp⟩
    · rcases hwithin k hk with hsame | ⟨-, -, hnow⟩
      · rw [hsame, hs]
      · rw [hnow]
    · rw [hspent k hk hfull hsp]

/-- A FULL sector whose records are all released becomes RECLAIMABLE, or its erase begins (R162). -/
theorem Journal.reclaimed_spent (hk : k < 32) (hfull : (v.sector k).state = .full) (hs : v.Spent k) :
    v.testAll.startErase.sector k = ⟨.reclaimable, false⟩ ∨ v.testAll.startErase.Erases k := by
  obtain ⟨-, -, hspent, -⟩ := v.testAll_spec
  by_cases he : v.testAll.erase = none
  · rw [← hspent k hk hfull hs]
    exact (Journal.startErase_sector he k).imp_right And.right
  · rw [Journal.startErase_busy he]
    exact .inl (hspent k hk hfull hs)

/-- While an erase is in flight none begins (R162). -/
theorem Journal.reclaimed_busy (he : v.erase ≠ none) : v.testAll.startErase = v.testAll :=
  Journal.startErase_busy (by simpa using he)

/-- With nothing to reclaim none begins (R162). -/
theorem Journal.reclaimed_none (hd : v.NewestOnce) (h : ∀ k, ¬ v.Reclaims k) : v.testAll.startErase = v.testAll :=
  Journal.startErase_none (Journal.nextErase_none fun k hk hs => h k ((Journal.testAll_reclaimable hd).mp ⟨hk, hs⟩))

theorem Journal.reclaimed_sector_of_not (hd : v.NewestOnce) (h : ¬ v.Reclaims k) :
    v.testAll.startErase.sector k = v.sector k := by
  rw [Journal.startErase_sector_of_ne fun hn => h ((Journal.testAll_reclaimable hd).mp (Journal.nextErase_mem hn)),
    Journal.testAll_sector_of_not hd h]

/-- With a sector to reclaim and no erase in flight, the erase of one begins and the others wait (R162). -/
theorem Journal.reclaimed_starts (hd : v.NewestOnce) (he : v.erase = none) (h : ∃ k, v.Reclaims k) :
    v.testAll.startErase.OldestStands ∧ ∃ k, v.Reclaims k ∧ v.testAll.startErase.Erases k
      ∧ ∀ m, v.Reclaims m → m ≠ k → (v.testAll.startErase.sector m).state = .reclaimable := by
  obtain ⟨m, hm⟩ := h
  obtain ⟨hm32, hm⟩ := (Journal.testAll_reclaimable hd).mpr hm
  obtain ⟨k, hk⟩ := Journal.nextErase_isSome hm32 hm
  obtain ⟨herases, holdest, hothers, -⟩ := Journal.startErase_some (by simpa using he) hk
  refine ⟨holdest, k, (Journal.testAll_reclaimable hd).mp (Journal.nextErase_mem hk), herases, fun m hm hne => ?_⟩
  rw [hothers m hne]
  exact ((Journal.testAll_reclaimable hd).mpr hm).2

/-- The sector whose content is disregarded is erased first, the lowest-numbered of them (R162, log 32). -/
theorem Journal.reclaimed_disregarded (he : v.erase = none) (hk : k < 32) (hs : v.sector k = ⟨.reclaimable, true⟩)
    (hl : ∀ m < k, v.sector m ≠ ⟨.reclaimable, true⟩) : v.testAll.startErase.Erases k := by
  obtain ⟨-, -, -, hwithin⟩ := v.testAll_spec
  have hdisregarded : ∀ m < 32, v.testAll.sector m = ⟨.reclaimable, true⟩ ↔ v.sector m = ⟨.reclaimable, true⟩ := by
    intro m hm
    rcases hwithin m hm with hsame | ⟨hfull, -, hnow⟩
    · rw [hsame]
    · rw [hnow]
      exact ⟨nofun, fun hc => by rw [hc] at hfull; cases hfull⟩
  have hnext : v.testAll.nextErase = some k :=
    Journal.nextErase_disregarded hk ((hdisregarded k hk).mpr hs) fun m hm hc =>
      hl m hm ((hdisregarded m (hm.trans hk)).mp hc)
  exact (Journal.startErase_some (by simpa using he) hnext).1

/-- With no content disregarded the sector of the lowest numbers is erased first (R162). -/
theorem Journal.reclaimed_lowest (hd : v.NewestOnce) (he : v.erase = none) (hnone : ∀ m, (v.sector m).disregarded = false)
    (hl : v.Lowest v.Reclaims k) : v.testAll.startErase.Erases k := by
  obtain ⟨-, -, -, hwithin⟩ := v.testAll_spec
  have hkept : ∀ m < 32, (v.testAll.sector m).disregarded = false := fun m hm => by
    rcases hwithin m hm with hsame | ⟨-, -, hnow⟩
    · rw [hsame, hnone m]
    · rw [hnow]
  have hreclaims : v.Reclaims = fun m => m < 32 ∧ (v.testAll.sector m).state = .reclaimable :=
    funext fun m => propext (Journal.testAll_reclaimable hd).symm
  rw [hreclaims] at hl
  have hnext : v.testAll.nextErase = some k :=
    Journal.nextErase_lowest hkept (by simpa only [Journal.Lowest, Journal.testAll_slots] using hl)
  exact (Journal.startErase_some (by simpa using he) hnext).1

end reclaim

/-- The records that count against a sector, before the reclaim and after it (R162). -/
theorem Journal.finishRelease_spent (j : Journal) (w : ReleaseWrite) (k : Nat) :
    (j.finishRelease w).Spent k ↔ (j.marked w).Spent k := by
  simp [Journal.finishRelease_eq, Journal.Spent]

/-- A completed release write: the journal, and the answer to the request that it held (R165, R186). -/
theorem exec_releaseWriteDone {s : State} {w : ReleaseWrite} {u : Journal} (hw : s.journal.release = some w)
    (hu : u = s.journal.finishRelease w) :
    exec .releaseWriteDone s = .next ((s.setJournal u).answerDeferred .body 22#8
      (if w.clamped then .clamped else .ok) (.count u.unreleased)) := by
  simp only [exec, execReleaseWriteDone, hw, ← hu]
  rfl

/-- What a release write leaves beside the sectors (R164, R165). -/
theorem Journal.finishRelease_items {j u : Journal} {w : ReleaseWrite} (hu : u = j.finishRelease w) :
    u.mark = w.value ∧ u.release = none ∧ u.slots = j.slots ∧ u.queue = j.queue ∧ u.reserved = j.reserved
      ∧ u.cells = (j.marked w).cells ∧ u.holder = (j.marked w).holder := by
  rw [hu]
  simp [Journal.finishRelease_eq, Journal.marked]

/-- Settles O37: the requests by the branches of their owners; the completion by the mark it raises and what the reclaim test
and the start of an erase make of the sectors. -/
theorem journalReadAndRelease : Obligations.JournalReadAndRelease := by
  unfold Obligations.JournalReadAndRelease
  refine fun s h => ⟨fun f ht => ?read, fun w ht => ?release, fun hnone => ?idle, fun w hw => ?completion⟩
  case read =>
    have hp : h.src.port ≠ .chassis := ht.port_ne_chassis (by simp)
    obtain ⟨t, hexec, hcore, hbusy, hmalformed, hread⟩ := journalRead_outcomes ht
    refine ⟨t, hexec, hcore, hbusy, hmalformed, fun n hstart hn => ?_⟩
    obtain ⟨hempty, hwritten⟩ := readRecord_outcomes hp (hread n hstart hn)
    refine ⟨hempty, fun new old hnew hold => ?_⟩
    obtain ⟨habove, hbelow, hfound⟩ := hwritten new old hnew hold
    exact ⟨habove, hbelow, fun e hle hge he => answer_of_two_parts hp (fun _ => rfl) (hfound e hle hge he)⟩
  case release =>
    have hp : h.src.port ≠ .chassis := ht.port_ne_chassis (by simp)
    have hjournal : (s.popped h).journal = s.journal := by simp
    refine ⟨State.takeJournalRelease h w (s.popped h), congrArg Host.Outcome.next (State.request_taken s h _ w _ ht), ?_⟩
    rw [← hjournal]
    refine ⟨fun hstart => settled_unchanged hp (fun _ => rfl) (if_pos hstart),
      fun hstart hall => settled_unchanged hp (fun _ => rfl) (State.takeJournalRelease_malformed hstart hall),
      fun hstart hw hrel => settled_unchanged hp (fun _ => rfl) (State.takeJournalRelease_busy hstart hw hrel),
      fun hstart hw hrel hle =>
        settled_unchanged hp (fun _ => rfl) (State.takeJournalRelease_released hstart hw hrel hle),
      fun hstart hw hrel hlt hnew =>
        settled_unchanged hp (fun _ => rfl) (State.takeJournalRelease_empty hstart hw hrel hlt hnew),
      fun new hstart hw hrel hnew hlt => ⟨fun hmark => ?_, fun heq =>
        settled_unchanged hp (fun _ => rfl) (State.takeJournalRelease_clamped hstart hw hrel hlt hnew heq)⟩⟩
    have hstarted := startRelease_leaves (State.takeJournalRelease_starts (h := h) hstart hw hrel hlt hnew hmark)
    rwa [← hjournal] at hstarted
  case idle => simp only [exec, execReleaseWriteDone, hnone]
  case completion =>
    obtain ⟨u, hu⟩ : ∃ u, u = s.journal.finishRelease w := ⟨_, rfl⟩
    obtain ⟨hmark, hrelease, hslots, hqueue, hreserved, hcells, hholder⟩ := Journal.finishRelease_items hu
    refine ⟨_, exec_releaseWriteDone hw hu, ?_⟩
    simp only [State.answerDeferred_frame, State.setJournal_journal, State.core_answerDeferred]
    refine ⟨hmark, hrelease, hslots, hqueue, hreserved, trivial,
      answersHeld_of_answerDeferred (by decide) (State.port_of_links rfl _) fun _ => rfl, ?_⟩
    rintro j u rfl rfl
    obtain ⟨hheld, hnone⟩ := s.journal.marked_cells w
    rw [hcells, hholder]
    refine ⟨hheld, hnone, ?_⟩
    rw [hu]
    simp only [Journal.finishRelease_spent]
    rw [Journal.finishRelease_eq]
    obtain ⟨v, hv⟩ : ∃ v, v = s.journal.marked w := ⟨_, rfl⟩
    have hsame : v.testAll.erase = s.journal.erase ∧ v.testAll.note = s.journal.note
        ∧ v.testAll.oldest = s.journal.oldest := by simp [hv, Journal.marked]
    have hsector : v.sector = s.journal.sector := hv ▸ rfl
    have herase : v.erase = s.journal.erase := hv ▸ rfl
    have honce : s.journal.NewestOnce → v.NewestOnce := hv ▸ id
    rw [← hv, ← hsector, ← herase]
    rw [← herase] at hsame
    refine ⟨fun k hk hfull hs => Journal.reclaimed_spent hk hfull hs, fun he => ?busy, fun c hd hc => ?_⟩
    case busy => rwa [Journal.reclaimed_busy he]
    replace hd := honce hd
    obtain rfl : c = v.Reclaims := funext fun k => propext (hc k)
    refine ⟨fun k hn => Journal.reclaimed_sector_of_not hd hn, fun k hk he => ?waits, fun hn => ?none,
      fun he hex => Journal.reclaimed_starts hd he hex, fun k hk he hs hl => Journal.reclaimed_disregarded he hk hs hl,
      fun k he hfresh hl => Journal.reclaimed_lowest hd he hfresh ?lowest⟩
    case waits =>
      rw [Journal.reclaimed_busy he]
      exact ((Journal.testAll_reclaimable hd).mpr hk).2
    case none => rwa [Journal.reclaimed_none hd hn]
    case lowest => simpa [Journal.Lowest] using hl

end Sys2Proof.Machine

namespace Sys2Proof.Machine

/-! ## Records written and sectors erased (R160 to R163) -/

/-! ### The write frontier (R160, R161) -/

section frontier
variable {v : Journal} {k n : Nat}

/-- The one ACTIVE sector is found (R160). -/
theorem Journal.activeSector_of_unique (hk : k < 32) (h : ∀ m, (v.sector m).state = .active ↔ m = k) :
    v.activeSector = some k := by
  have hactive : ∀ m, ((v.sector m).state == .active) = decide (m = k) := fun m => by
    rw [Bool.eq_iff_iff, beq_iff_eq, decide_eq_true_eq, h]
  simp only [Journal.activeSector, hactive, Config.sectors]
  rw [List.find?_eq_some_iff_getElem]
  exact ⟨by simp, k, by simpa using hk, by simp, fun m hm => by simpa using hm.ne⟩

/-- The frontier stays in the ACTIVE sector (R160). -/
theorem Journal.frontierSector_of_active (hk : k < 32) (h : ∀ m, (v.sector m).state = .active ↔ m = k) :
    v.frontierSector = some k := by
  simp only [Journal.frontierSector, Journal.activeSector_of_unique hk h]

/-- With no sector ACTIVE the frontier moves to the first BLANK sector in ring order after the newest record's (R153, R160). -/
theorem Journal.frontierSector_of_blank {q : Nat} (hnone : ∀ m, (v.sector m).state ≠ .active)
    (hnew : v.newestSector = some k) (hk : k < 32) (hq : q < 32) (hblank : (v.sector q).state = .blank)
    (hfirst : ∀ m < 32, (m + 31 - k) % 32 < (q + 31 - k) % 32 → (v.sector m).state ≠ .blank) :
    v.frontierSector = some q := by
  have hactive : v.activeSector = none := List.find?_eq_none.mpr fun m _ => by simpa using hnone m
  simp only [Journal.frontierSector, hactive, hnew, Option.getD_some]
  exact find_ringAfter hk hq (by simpa using hblank) fun m hm hlt => by simpa using hfirst m hm hlt

/-- The lowest unwritten slot of a sector: those before it are written (R160). -/
theorem Journal.lowestBlank_eq (hn : n / 128 = k) (hblank : readSlot v.slots n = blankSlot)
    (hbelow : ∀ m, k * 128 ≤ m → m < n → readSlot v.slots m ≠ blankSlot) : v.lowestBlank k = some n := by
  simp only [Journal.lowestBlank, Config.slotsPerSector]
  rw [List.find?_eq_some_iff_getElem]
  refine ⟨by simpa using hblank, n % 128, by simp; omega, by simp; omega, fun m hm => ?_⟩
  simpa using hbelow (k * 128 + m) (by omega) (by omega)

/-- The write of the next record starts at the frontier, and an erase in flight is suspended (R160, R161). -/
theorem Journal.startWrite_at (hq : v.queue ≠ []) (hw : v.writing = none) (hk : v.frontierSector = some k)
    (hn : v.lowestBlank k = some n) : v.startWrite =
      { v.setSector k ⟨.active, false⟩ with
        writing := some n, erase := v.erase.map fun e => { e with running := false } } := by
  obtain ⟨r, rest, hqueue⟩ := List.exists_cons_of_ne_nil hq
  simp only [Journal.startWrite, hqueue, hw, hk, hn]

/-- The next write started, and an erase where one is due and none is in flight (R160 to R162). -/
theorem Journal.startWrite_startErase (hq : v.queue ≠ []) (hw : v.writing = none) (hk : v.frontierSector = some k)
    (hn : v.lowestBlank k = some n) (hlen : k < v.sectors.length) :
    v.startWrite.startErase.writing = some n ∧ (v.startWrite.startErase.sector k).state = .active
      ∧ (∀ m, m ≠ k → (v.sector m).state ≠ .reclaimable → v.startWrite.startErase.sector m = v.sector m)
      ∧ ∀ e, v.erase = some e → v.startWrite.startErase.erase = some { e with running := false } := by
  have hstarted := Journal.startWrite_at hq hw hk hn
  have hsector : ∀ m, v.startWrite.sector m = if m = k then ⟨.active, false⟩ else v.sector m := fun m => by
    rw [hstarted]
    exact (v.sector_setSector k m _).trans (by simp [hlen])
  have hkept : ∀ m, (v.startWrite.sector m).state ≠ .reclaimable →
      v.startWrite.startErase.sector m = v.startWrite.sector m := fun m hm =>
    Journal.startErase_sector_of_ne fun hnext => hm (Journal.nextErase_mem hnext).2
  have hactive : v.startWrite.sector k = ⟨.active, false⟩ := (hsector k).trans (if_pos rfl)
  refine ⟨by simp [hstarted], by rw [hkept k (by simp [hactive]), hactive], fun m hm hs => ?_,
    fun e he => ?_⟩
  · have hsame : v.startWrite.sector m = v.sector m := (hsector m).trans (if_neg hm)
    rw [hkept m (by rwa [hsame]), hsame]
  · have hsuspended : v.startWrite.erase = some { e with running := false } := by rw [hstarted, he]; rfl
    rw [Journal.startErase_busy (by simp [hsuspended]), hsuspended]

end frontier

/-! ### A record's write completed (R160, R162) -/

/-- The journal with the record written, before its sectors are looked at (R160). -/
def Journal.written (j : Journal) (i : Nat) (r : Record) (rest : List Record) : Journal :=
  { j with
    slots := writeCell erasedSlot j.slots i r.bits, writing := none, queue := rest, newest := some r.seq,
    oldest := some (j.oldest.getD r.seq) }

/-- The sector of a slot that is its last becomes FULL (R160). -/
def Journal.filled (v : Journal) (i : Nat) : Journal :=
  if i % 128 = 127 then v.setSector (i / 128) ⟨.full, false⟩ else v

/-- The sector that the newest record leaves is tested (R162). -/
def Journal.tested (v : Journal) (before : Option Nat) (k : Nat) : Journal :=
  match before with
  | some b => if b = k then v else v.testReclaim b
  | none => v

/-- The journal with the record written and its sectors looked at, before the next write or erase (R160, R162). -/
def Journal.landed (j : Journal) (i : Nat) (r : Record) (rest : List Record) : Journal :=
  ((j.written i r rest).filled i).tested j.newestSector (i / 128)

/-- An erase in flight running again (R161). -/
def Journal.resumed (v : Journal) : Journal := { v with erase := v.erase.map fun e => { e with running := true } }

section write
variable {j : Journal} {i : Nat} {r : Record} {rest : List Record}

/-- With no write in flight nothing is completed (log 3). -/
theorem Journal.finishWrite_idle (h : j.writing = none ∨ j.queue = []) : j.finishWrite = j := by
  rcases h with h | h
  · simp only [Journal.finishWrite, h]
  · unfold Journal.finishWrite
    split <;> simp_all

/-- The last record of the queue written: an erase goes on, or the one that is due begins (R160 to R162). -/
theorem Journal.finishWrite_last (hw : j.writing = some i) (hq : j.queue = [r]) :
    j.finishWrite = (j.landed i r []).resumed.startErase := by
  simp only [Journal.finishWrite, hw, hq]
  cases h : j.newestSector <;> simp only [Journal.landed, Journal.tested, h] <;> rfl

/-- A record written with others waiting: the write of the next starts (R160). -/
theorem Journal.finishWrite_next (hw : j.writing = some i) (hq : j.queue = r :: rest) (hrest : rest ≠ []) :
    j.finishWrite = (j.landed i r rest).startWrite.startErase := by
  obtain ⟨r', rest', rfl⟩ := List.exists_cons_of_ne_nil hrest
  simp only [Journal.finishWrite, hw, hq]
  cases h : j.newestSector <;> simp only [Journal.landed, Journal.tested, h] <;> rfl

/-- Beside the sectors the journal is as the write left it (R160). -/
theorem Journal.landed_eq (j : Journal) (i : Nat) (r : Record) (rest : List Record) :
    j.landed i r rest = { j.written i r rest with sectors := (j.landed i r rest).sectors } := by
  have hfilled : (j.written i r rest).filled i
      = { j.written i r rest with sectors := ((j.written i r rest).filled i).sectors } := by
    unfold Journal.filled
    split <;> rfl
  unfold Journal.landed Journal.tested
  split
  · split
    · exact hfilled
    · obtain ⟨htested, -⟩ := ((j.written i r rest).filled i).testReclaim_spec ‹_›
      rw [htested, hfilled]
  · exact hfilled

/-- The items of the journal after a record write (R160, R161). -/
theorem Journal.landed_items : (j.landed i r rest).slots = writeCell erasedSlot j.slots i r.bits
    ∧ (j.landed i r rest).writing = none ∧ (j.landed i r rest).queue = rest ∧ (j.landed i r rest).newest = some r.seq
    ∧ (j.landed i r rest).oldest = some (j.oldest.getD r.seq) ∧ (j.landed i r rest).erase = j.erase
    ∧ (j.landed i r rest).mark = j.mark ∧ (j.landed i r rest).nextSeq = j.nextSeq ∧ (j.landed i r rest).free = j.free
    ∧ (j.landed i r rest).reserved = j.reserved ∧ (j.landed i r rest).cells = j.cells
    ∧ (j.landed i r rest).release = j.release := by
  rw [j.landed_eq]
  exact ⟨rfl, rfl, rfl, rfl, rfl, rfl, rfl, rfl, rfl, rfl, rfl, rfl⟩

/-- The start of a record write changes the sectors, the slot in writing and the erase in flight alone (R160, R161). -/
theorem Journal.startWrite_frame (v : Journal) : v.startWrite.queue = v.queue ∧ v.startWrite.newest = v.newest
    ∧ v.startWrite.mark = v.mark ∧ v.startWrite.nextSeq = v.nextSeq ∧ v.startWrite.free = v.free
    ∧ v.startWrite.reserved = v.reserved ∧ v.startWrite.cells = v.cells ∧ v.startWrite.release = v.release := by
  simp only [Journal.startWrite, Journal.setSector]
  (repeat' split) <;> exact ⟨rfl, rfl, rfl, rfl, rfl, rfl, rfl, rfl⟩

/-- What a record write leaves beside the sectors, the next write and the erases (R160). -/
theorem Journal.finishWrite_items (hw : j.writing = some i) (hq : j.queue = r :: rest) :
    j.finishWrite.slots = writeCell erasedSlot j.slots i r.bits ∧ j.finishWrite.queue = rest
      ∧ j.finishWrite.newest = some r.seq ∧ j.finishWrite.mark = j.mark ∧ j.finishWrite.nextSeq = j.nextSeq
      ∧ j.finishWrite.free = j.free ∧ j.finishWrite.reserved = j.reserved ∧ j.finishWrite.cells = j.cells
      ∧ j.finishWrite.release = j.release := by
  obtain ⟨hslots, -, hqueue, hnewest, -, -, hmark, hnext, hfree, hreserved, hcells, hrelease⟩ :=
    j.landed_items (i := i) (r := r) (rest := rest)
  by_cases hrest : rest = []
  · subst hrest
    rw [Journal.finishWrite_last hw hq]
    simp [Journal.resumed, *]
  · obtain ⟨hqueue', hnewest', hmark', hnext', hfree', hreserved', hcells', hrelease'⟩ :=
      (j.landed i r rest).startWrite_frame
    rw [Journal.finishWrite_next hw hq hrest]
    simp [*]

/-- A record write leaves the number of sectors (R153). -/
theorem Journal.landed_length : (j.landed i r rest).sectors.length = j.sectors.length := by
  have hset : ∀ (v : Journal) k x, (v.setSector k x).sectors.length = v.sectors.length := fun _ _ _ => List.length_set
  have htest : ∀ (v : Journal) k, (v.testReclaim k).sectors.length = v.sectors.length := fun v k => by
    unfold Journal.testReclaim
    split
    · exact hset ..
    · rfl
  have hfilled : ((j.written i r rest).filled i).sectors.length = j.sectors.length := by
    unfold Journal.filled
    split
    · exact hset ..
    · rfl
  unfold Journal.landed Journal.tested
  split
  · split
    · exact hfilled
    · exact (htest ..).trans hfilled
  · exact hfilled

/-- The sectors after the last slot of one is written (R160). -/
theorem Journal.filled_sector (v : Journal) (i m : Nat) : (v.filled i).sector m =
    if i % 128 = 127 ∧ m = i / 128 ∧ i / 128 < v.sectors.length then ⟨.full, false⟩ else v.sector m := by
  unfold Journal.filled
  split
  next h => simp [h, Journal.sector_setSector]
  next h => simp [h]

/-- Where the newest record stood in the same sector, or nowhere, no sector is tested (R162). -/
theorem Journal.landed_sector (hnear : j.newestSector = none ∨ j.newestSector = some (i / 128)) (m : Nat) :
    (j.landed i r rest).sector m =
      if i % 128 = 127 ∧ m = i / 128 ∧ i / 128 < j.sectors.length then ⟨.full, false⟩ else j.sector m := by
  have hlanded : j.landed i r rest = (j.written i r rest).filled i := by
    unfold Journal.landed Journal.tested
    rcases hnear with h | h <;> simp [h]
  rw [hlanded]
  exact (j.written i r rest).filled_sector i m

/-- A record of the slots after a write is the one written, or stood before (R160). -/
theorem Journal.mem_landed {e : Nat × SlotBits} (he : e ∈ (j.landed i r rest).slots) :
    e = (i, r.bits) ∨ e ∈ j.slots := by
  obtain ⟨hslots, -⟩ := j.landed_items (i := i) (r := r) (rest := rest)
  rw [hslots] at he
  exact (mem_writeCell he).imp_left And.left

/-- The slots after a write (R160). -/
theorem Journal.landed_readSlot (hm : cellsWf erasedSlot j.slots = true) (n : Nat) :
    readSlot (j.landed i r rest).slots n = if n = i then r.bits else readSlot j.slots n := by
  obtain ⟨hslots, -⟩ := j.landed_items (i := i) (r := r) (rest := rest)
  rw [hslots]
  exact readCell_writeCell hm i n r.bits

/-- Within a sector the next record goes to its lowest unwritten slot (R160, R161). -/
theorem Journal.finishWrite_within {k n : Nat} (hw : j.writing = some i) (hq : j.queue = r :: rest) (hrest : rest ≠ [])
    (hm : cellsWf erasedSlot j.slots = true) (hi : i < 4096) (hk : k = i / 128) (hin : i % 128 < 127)
    (hactive : ∀ m, (j.sector m).state = .active ↔ m = k)
    (hnear : j.newestSector = none ∨ j.newestSector = some k) (hne : n ≠ i) (hn : n / 128 = k)
    (hblank : readSlot j.slots n = blankSlot)
    (hbelow : ∀ m, k * 128 ≤ m → m < n → m ≠ i → readSlot j.slots m ≠ blankSlot) (hbits : r.bits ≠ blankSlot) :
    j.finishWrite.writing = some n ∧ (j.finishWrite.sector k).state = .active
      ∧ ∀ e, j.erase = some e → j.finishWrite.erase = some { e with running := false } := by
  obtain ⟨-, hwriting, hqueue, -, -, herase, -⟩ := j.landed_items (i := i) (r := r) (rest := rest)
  have hsector : ∀ m, (j.landed i r rest).sector m = j.sector m := fun m => by
    rw [Journal.landed_sector (hk ▸ hnear), if_neg (by omega)]
  have hfrontier : (j.landed i r rest).frontierSector = some k :=
    Journal.frontierSector_of_active (by omega) fun m => by rw [hsector, hactive]
  have hslot : (j.landed i r rest).lowestBlank k = some n := by
    refine Journal.lowestBlank_eq hn ?_ fun m hlow hlt => ?_
    · rw [Journal.landed_readSlot hm, if_neg hne, hblank]
    · rw [Journal.landed_readSlot hm]
      split
      · exact hbits
      · exact hbelow m hlow hlt ‹_›
  have hlen' : k < (j.landed i r rest).sectors.length :=
    Journal.lt_of_sector (by rw [hsector, (hactive k).mpr rfl]; nofun)
  obtain ⟨hnext, hstays, -, hsuspended⟩ :=
    Journal.startWrite_startErase (by rwa [hqueue]) hwriting hfrontier hslot hlen'
  rw [Journal.finishWrite_next hw hq hrest]
  exact ⟨hnext, hstays, herase ▸ hsuspended⟩

/-- The newest record stands where it was written (R160). -/
theorem Journal.landed_newestSector (hm : cellsWf erasedSlot j.slots = true) (hv : patternOf r.bits = .valid)
    (hseq : slotSeq r.bits = r.seq) (honly : ∀ e ∈ j.slots, slotSeq e.2 ≠ r.seq)
    (hret : ((j.landed i r rest).sector (i / 128)).retained = true) :
    (j.landed i r rest).newestSector = some (i / 128) := by
  obtain ⟨hslots, -, -, hnewest, -⟩ := j.landed_items (i := i) (r := r) (rest := rest)
  have hmem : (i, r.bits) ∈ (j.landed i r rest).records := by
    refine (Journal.mem_records _ _).mpr ⟨?_, hv, hret⟩
    rw [hslots, mem_iff_readSlot (writeCell_wf hm _ _)]
    refine ⟨(readCell_writeCell hm i i r.bits).trans (if_pos rfl), fun hblank => ?_⟩
    rw [show r.bits = blankSlot from hblank, patternOf_blank] at hv
    cases hv
  have hfind : (j.landed i r rest).find r.seq = some (i, r.bits) := by
    cases hx : (j.landed i r rest).find r.seq with
    | none => exact absurd (List.find?_eq_none.mp hx _ hmem) (by simp [hseq])
    | some e =>
      have hnumber : slotSeq e.2 = r.seq := by simpa using List.find?_some hx
      obtain ⟨he, -⟩ := (Journal.mem_records _ e).mp (List.mem_of_find?_eq_some hx)
      rw [(Journal.mem_landed he).resolve_right fun hold => honly e hold hnumber]
  simp only [Journal.newestSector, hnewest, hfind]
  rfl

/-- At a sector's end the next record goes to the first BLANK sector in ring order (R153, R160, R161). -/
theorem Journal.finishWrite_across {k q : Nat} (hw : j.writing = some i) (hq : j.queue = r :: rest) (hrest : rest ≠ [])
    (hm : cellsWf erasedSlot j.slots = true) (hi : i < 4096) (hk : k = i / 128) (hend : i % 128 = 127)
    (hlen : j.sectors.length = 32) (hactive : ∀ m, (j.sector m).state = .active → m = k)
    (hnear : j.newestSector = none ∨ j.newestSector = some k) (hv : patternOf r.bits = .valid)
    (hseq : slotSeq r.bits = r.seq) (honly : ∀ e ∈ j.slots, slotSeq e.2 ≠ r.seq) (hq32 : q < 32) (hqk : q ≠ k)
    (hqblank : (j.sector q).state = .blank) (hslot : readSlot j.slots (q * 128) = blankSlot)
    (hfirst : ∀ m, m < 32 → (m + 31 - k) % 32 < (q + 31 - k) % 32 → (j.sector m).state ≠ .blank) :
    j.finishWrite.writing = some (q * 128) ∧ (j.finishWrite.sector q).state = .active
      ∧ (j.finishWrite.sector k).state = .full
      ∧ ∀ e, j.erase = some e → j.finishWrite.erase = some { e with running := false } := by
  obtain ⟨-, hwriting, hqueue, -, -, herase, -⟩ := j.landed_items (i := i) (r := r) (rest := rest)
  have hk32 : k < 32 := by omega
  have hsector : ∀ m, (j.landed i r rest).sector m = if m = k then ⟨.full, false⟩ else j.sector m := fun m => by
    rw [Journal.landed_sector (hk ▸ hnear), ← hk]
    exact if_congr (by simp [hend, hlen, hk32]) rfl rfl
  have hfull : (j.landed i r rest).sector k = ⟨.full, false⟩ := (hsector k).trans (if_pos rfl)
  have hothers : ∀ m, m ≠ k → (j.landed i r rest).sector m = j.sector m := fun m hmk => (hsector m).trans (if_neg hmk)
  have hnewest : (j.landed i r rest).newestSector = some k := by
    rw [hk]
    exact Journal.landed_newestSector hm hv hseq honly (by rw [← hk, hfull]; rfl)
  have hfrontier : (j.landed i r rest).frontierSector = some q := by
    refine Journal.frontierSector_of_blank (fun m => ?_) hnewest hk32 hq32 (by rw [hothers q hqk, hqblank]) fun m hm32 hlt => ?_
    · rw [hsector]
      split
      · nofun
      · exact mt (hactive m) ‹_›
    · rw [hsector]
      split
      · nofun
      · exact hfirst m hm32 hlt
  have hlowest : (j.landed i r rest).lowestBlank q = some (q * 128) :=
    Journal.lowestBlank_eq (by omega) (by rw [Journal.landed_readSlot hm, if_neg (by omega), hslot])
      fun m hlow hlt => absurd hlow (by omega)
  have hlen' : q < (j.landed i r rest).sectors.length := by rwa [Journal.landed_length, hlen]
  obtain ⟨hnext, hstays, hkept, hsuspended⟩ :=
    Journal.startWrite_startErase (by rwa [hqueue]) hwriting hfrontier hlowest hlen'
  rw [Journal.finishWrite_next hw hq hrest, hkept k hqk.symm (by simp [hfull]), hfull]
  exact ⟨hnext, hstays, rfl, herase ▸ hsuspended⟩

/-- The last record of the queue ends its sector, with nothing to reclaim: the sector is FULL, an erase goes on (R160, R161). -/
theorem Journal.finishWrite_fills (hw : j.writing = some i) (hq : j.queue = [r]) (hi : i < 4096) (hend : i % 128 = 127)
    (hlen : j.sectors.length = 32) (hnone : ∀ k, (j.sector k).state ≠ .reclaimable)
    (hnear : j.newestSector = none ∨ j.newestSector = some (i / 128)) :
    j.finishWrite.sector (i / 128) = ⟨.full, false⟩
      ∧ j.finishWrite.erase = j.erase.map (fun e => { e with running := true })
      ∧ j.finishWrite.oldest = some (j.oldest.getD r.seq) := by
  obtain ⟨-, -, -, -, holdest, herase, -⟩ := j.landed_items (i := i) (r := r) (rest := [])
  have hsector : ∀ m, (j.landed i r []).resumed.sector m = if m = i / 128 then ⟨.full, false⟩ else j.sector m := fun m =>
    (Journal.landed_sector hnear m).trans (if_congr (by simp [hend, hlen]; omega) rfl rfl)
  have hnext : (j.landed i r []).resumed.nextErase = none := Journal.nextErase_none fun k _ => by
    rw [hsector]
    split
    · nofun
    · exact hnone k
  rw [Journal.finishWrite_last hw hq, Journal.startErase_none hnext, hsector, if_pos rfl]
  exact ⟨rfl, by rw [Journal.resumed, herase], holdest⟩

/-- The FULL sector that the newest record leaves, its records all released, is RECLAIMABLE (R162). -/
theorem Journal.landed_leaves {k : Nat} (hnewest : j.newestSector = some k) (hk : k ≠ i / 128)
    (hfull : (j.sector k).state = .full)
    (hreleased : ∀ e ∈ j.slots, e.1 / 128 = k → patternOf e.2 = .valid → slotSeq e.2 ≤ j.mark)
    (honly : ∀ e ∈ j.slots, slotSeq e.2 ≠ r.seq) : (j.landed i r rest).sector k = ⟨.reclaimable, false⟩
      ∧ ∀ m, m ≠ k → (j.landed i r rest).sector m = j.sector m ∨ (j.landed i r rest).sector m = ⟨.full, false⟩ := by
  obtain ⟨v, hv⟩ : ∃ v, v = (j.written i r rest).filled i := ⟨_, rfl⟩
  have hlanded : j.landed i r rest = v.testReclaim k := by
    simp only [Journal.landed, Journal.tested, hnewest, ← hv]
    exact if_neg hk
  have hsector : ∀ m, v.sector m = j.sector m ∨ m = i / 128 ∧ v.sector m = ⟨.full, false⟩ := fun m => by
    rw [hv, Journal.filled_sector]
    split
    next h => exact .inr ⟨h.2.1, rfl⟩
    next => exact .inl rfl
  have hslots : ∀ e ∈ v.slots, e = (i, r.bits) ∨ e ∈ j.slots := fun e he =>
    Journal.mem_landed (by rwa [hlanded, Journal.testReclaim_slots])
  have hmem : ∀ e ∈ v.slots, e.1 / 128 = k → e ∈ j.slots := fun e he hek =>
    (hslots e he).resolve_left fun hnew => hk (by rw [← hek, hnew])
  have hmark : v.mark = j.mark ∧ v.newest = some r.seq := by
    rw [hv, Journal.filled]
    split <;> exact ⟨rfl, rfl⟩
  obtain ⟨-, hothers, -, hreclaims⟩ := v.testReclaim_spec k
  rw [hlanded]
  refine ⟨hreclaims ?full ((v.allReleased_iff k).mpr fun e he hek hvalid => ?released) fun hn => ?elsewhere, fun m hm => ?_⟩
  case full => rw [(hsector k).resolve_right fun h => hk h.1, hfull]
  case released => exact hmark.1 ▸ hreleased e (hmem e he hek) hek hvalid
  case elsewhere =>
    obtain ⟨e, he, hek, -, hseq⟩ := Journal.newestSector_spec hn
    rw [hmark.2, Option.some.injEq] at hseq
    exact honly e (hmem e he hek) hseq.symm
  rw [hothers m hm]
  exact (hsector m).imp_right And.right

/-- The erase of the sector that the newest record leaves begins, with no other to erase (R162). -/
theorem Journal.finishWrite_leaves {k : Nat} (hw : j.writing = some i) (hq : j.queue = [r]) (hk32 : k < 32)
    (hnewest : j.newestSector = some k) (hk : k ≠ i / 128) (hfull : (j.sector k).state = .full) (herase : j.erase = none)
    (hnone : ∀ m, (j.sector m).state ≠ .reclaimable)
    (hreleased : ∀ e ∈ j.slots, e.1 / 128 = k → patternOf e.2 = .valid → slotSeq e.2 ≤ j.mark)
    (honly : ∀ e ∈ j.slots, slotSeq e.2 ≠ r.seq) :
    j.finishWrite.sector k = ⟨.erasing, false⟩ ∧ j.finishWrite.note = some k
      ∧ j.finishWrite.erase = some ⟨k, true⟩ := by
  obtain ⟨-, hwriting, hqueue, -, -, hidle, -⟩ := j.landed_items (i := i) (r := r) (rest := [])
  obtain ⟨hreclaimed, hothers⟩ := Journal.landed_leaves (rest := []) hnewest hk hfull hreleased honly
  obtain ⟨m, hm⟩ := Journal.nextErase_isSome (j := (j.landed i r []).resumed) hk32 (congrArg Sector.state hreclaimed)
  have hmk : m = k := by
    by_contra hne
    have hstate : ((j.landed i r []).sector m).state = .reclaimable := (Journal.nextErase_mem hm).2
    rcases hothers m hne with hs | hs
    · exact hnone m (by rwa [hs] at hstate)
    · rw [hs] at hstate
      cases hstate
  have hresumed : (j.landed i r []).resumed.erase = none := by simp [Journal.resumed, hidle, herase]
  obtain ⟨⟨hsector, hnote, hrunning⟩, -⟩ := Journal.startErase_some hresumed (hmk ▸ hm)
  rw [Journal.finishWrite_last hw hq]
  refine ⟨hsector, hnote, hrunning.trans ?_⟩
  simp [Journal.resumed, hwriting, hqueue]

end write

/-! ### A record staged by a commit (R159 to R161) -/

/-- The journal of a completed commit: its record queued, and its write started where none is in flight (R108, R159). -/
theorem State.finishCommit_stages {s : State} {p : Params} {check mask : Word32}
    (hw : s.lock.write = some (.commit p check mask)) : ∃ v : Journal, s.finishCommit.journal = v.startWrite
      ∧ v.queue ≠ [] ∧ v.writing = s.journal.writing ∧ v.sectors = s.journal.sectors ∧ v.slots = s.journal.slots
      ∧ v.erase = s.journal.erase := by
  rw [State.finishCommit_commit hw]
  simp only [State.answerDeferred_frame, State.committed, State.testEnable_frame, State.stage, State.indicate_frame,
    State.setJournal_journal]
  exact ⟨_, rfl, by simp, rfl, rfl, rfl, rfl⟩

/-- A record staged with no write in flight: its write starts at the frontier and an erase is suspended (R160, R161). -/
theorem finishCommit_writes {s : State} {p : Params} {check mask : Word32} {k n : Nat}
    (hw : s.lock.write = some (.commit p check mask)) (hidle : s.journal.writing = none) (hk : k < 32)
    (hactive : ∀ m, (s.journal.sector m).state = .active ↔ m = k) (hn : n / 128 = k)
    (hblank : readSlot s.journal.slots n = blankSlot)
    (hbelow : ∀ m, k * 128 ≤ m → m < n → readSlot s.journal.slots m ≠ blankSlot) :
    s.finishCommit.journal.writing = some n
      ∧ s.finishCommit.journal.erase = s.journal.erase.map (fun e => { e with running := false })
      ∧ s.finishCommit.journal.slots = s.journal.slots := by
  obtain ⟨v, hv, hqueue, hwriting, hsectors, hslots, herase⟩ := State.finishCommit_stages hw
  have hsector : v.sector = s.journal.sector := by funext m; rw [Journal.sector, hsectors]; rfl
  have hfrontier : v.frontierSector = some k := Journal.frontierSector_of_active hk (by rwa [hsector])
  have hslot : v.lowestBlank k = some n := Journal.lowestBlank_eq hn (by rwa [hslots]) (by rwa [hslots])
  rw [hv, Journal.startWrite_at hqueue (hwriting.trans hidle) hfrontier hslot, ← herase, ← hslots]
  exact ⟨rfl, rfl, rfl⟩

/-! ### An erase completed (R162, R163) -/

/-- The journal with a sector's slots BLANK again and given back (R157, R162). -/
def Journal.blanked (j : Journal) (k : Nat) : Journal :=
  { j.setSector k ⟨.blank, false⟩ with
    slots := eraseRange (k * 128) (k * 128 + 128) j.slots, note := none, free := j.free + 128, erase := none }

/-- The low flag is cleared where free − reserved is ample, and nothing else changes (R163). -/
theorem Journal.clearLow_eq (j : Journal) : j.clearLow = j.setLow (j.low && !j.ample) := by
  unfold Journal.clearLow Journal.setLow
  split <;> simp [*]

section erased
variable {j : Journal} {k : Nat}

/-- With no erase running nothing is completed (log 3). -/
theorem Journal.finishErase_idle (h : ∀ k, j.erase ≠ some ⟨k, true⟩) : j.finishErase = j := by
  unfold Journal.finishErase
  split
  · exact absurd ‹_› (h _)
  · rfl

/-- A running erase completed: its sector blanked, the low flag tested, the next erase begun (R162, R163). -/
theorem Journal.finishErase_running (h : j.erase = some ⟨k, true⟩) :
    j.finishErase = (j.blanked k).clearLow.startErase := by
  simp only [Journal.finishErase, h]
  rfl

/-- Beside the sectors, the note and the next erase (R162, R163). -/
theorem Journal.finishErase_items (h : j.erase = some ⟨k, true⟩) :
    j.finishErase.slots = eraseRange (k * 128) (k * 128 + 128) j.slots ∧ j.finishErase.free = j.free + 128
      ∧ (j.reserved + 256 ≤ j.free + 128 → j.finishErase.low = false) ∧ j.finishErase.mark = j.mark
      ∧ j.finishErase.newest = j.newest ∧ j.finishErase.queue = j.queue ∧ j.finishErase.reserved = j.reserved
      ∧ j.finishErase.nextSeq = j.nextSeq ∧ j.finishErase.writing = j.writing := by
  rw [Journal.finishErase_running h, Journal.clearLow_eq]
  simp +contextual [Journal.blanked, Journal.setSector, Journal.ample, Config.lowMargin]

/-- Before the next erase begins the sector is BLANK and the others stand (R162). -/
theorem Journal.blanked_sector (hk : k < j.sectors.length) (m : Nat) :
    (j.blanked k).clearLow.sector m = if m = k then ⟨.blank, false⟩ else j.sector m := by
  rw [Journal.clearLow_eq]
  exact (j.sector_setSector k m _).trans (by simp [hk])

/-- The sector erased is BLANK (R162). -/
theorem Journal.finishErase_blanks (h : j.erase = some ⟨k, true⟩) (hk : k < j.sectors.length) :
    j.finishErase.sector k = ⟨.blank, false⟩ := by
  have hblank : (j.blanked k).clearLow.sector k = ⟨.blank, false⟩ := (Journal.blanked_sector hk k).trans (if_pos rfl)
  have hnext : (j.blanked k).clearLow.nextErase ≠ some k := fun hn => by
    have hstate := (Journal.nextErase_mem hn).2
    rw [hblank] at hstate
    cases hstate
  rw [Journal.finishErase_running h, Journal.startErase_sector_of_ne hnext, hblank]

/-- With no other sector RECLAIMABLE no erase follows (R162). -/
theorem Journal.finishErase_ends (h : j.erase = some ⟨k, true⟩) (hk : k < j.sectors.length)
    (hnone : ∀ m, m ≠ k → (j.sector m).state ≠ .reclaimable) :
    j.finishErase.erase = none ∧ j.finishErase.note = none ∧ j.finishErase.oldest = j.oldest := by
  have hnext : (j.blanked k).clearLow.nextErase = none := Journal.nextErase_none fun m _ => by
    rw [Journal.blanked_sector hk]
    split
    · nofun
    · exact hnone m ‹_›
  rw [Journal.finishErase_running h, Journal.startErase_none hnext, Journal.clearLow_eq]
  exact ⟨rfl, rfl, rfl⟩

/-- With one other sector RECLAIMABLE its erase follows (R161, R162). -/
theorem Journal.finishErase_goes_on {m : Nat} (h : j.erase = some ⟨k, true⟩) (hk : k < j.sectors.length) (hm : m < 32)
    (hmk : m ≠ k) (hs : (j.sector m).state = .reclaimable)
    (honly : ∀ n, n ≠ m → n ≠ k → (j.sector n).state ≠ .reclaimable) :
    j.finishErase.note = some m ∧ j.finishErase.sector m = ⟨.erasing, false⟩
      ∧ j.finishErase.erase = some ⟨m, j.writing.isNone && j.queue.isEmpty⟩ := by
  have hsector := Journal.blanked_sector (j := j) hk
  obtain ⟨n, hn⟩ := Journal.nextErase_isSome hm (show ((j.blanked k).clearLow.sector m).state = .reclaimable by
    rw [hsector, if_neg hmk, hs])
  have hnm : n = m := by
    by_contra hne
    have hstate := (Journal.nextErase_mem hn).2
    rw [hsector] at hstate
    split at hstate
    · cases hstate
    · exact honly n hne ‹_› hstate
  have hidle : (j.blanked k).clearLow.erase = none := by rw [Journal.clearLow_eq]; rfl
  obtain ⟨⟨herasing, hnote, hrunning⟩, -⟩ := Journal.startErase_some hidle (hnm ▸ hn)
  rw [← Journal.finishErase_running h] at herasing hnote hrunning
  obtain ⟨-, -, -, -, -, hqueue, -, -, hwriting⟩ := Journal.finishErase_items h
  rw [hwriting, hqueue] at hrunning
  exact ⟨hnote, herasing, hrunning⟩

end erased

/-- Settles O60: a write's completion by the slot it writes and where the next begins, within its sector or across its end; the
commit by the record it stages; an erase's completion by the sector it blanks and the erase that follows. -/
theorem recordsAreWrittenAndSectorsErased : Obligations.RecordsAreWrittenAndSectorsErased := by
  unfold Obligations.RecordsAreWrittenAndSectorsErased
  rintro s j rfl
  refine ⟨fun hidle => ?noWrite, fun i r rest hw hq hm => ?write,
    fun p check mask k n hw hidle _ hk hactive hn hblank hbelow =>
      ⟨s.finishCommit, rfl, finishCommit_writes hw hidle hk hactive hn hblank hbelow⟩,
    fun hidle => ?noErase, fun k he hk hlen => ?erase⟩
  case noWrite => rw [exec, execRecordWriteDone, Journal.finishWrite_idle hidle]; rfl
  case noErase => rw [exec, execSectorEraseDone, Journal.finishErase_idle hidle]; rfl
  case write =>
    obtain ⟨hslots, hqueue, hnewest, hmark, hnext, hfree, hreserved, hcells, hrelease⟩ := Journal.finishWrite_items hw hq
    refine ⟨s.setJournal s.journal.finishWrite, rfl, by rw [State.setJournal_journal], ?_⟩
    rw [State.setJournal_journal]
    have hread : ∀ k, readSlot s.journal.finishWrite.slots k = if k = i then r.bits else readSlot s.journal.slots k :=
      fun k => by rw [hslots]; exact readCell_writeCell hm i k r.bits
    refine ⟨hqueue, hnewest, (hread i).trans (if_pos rfl), fun k hk => (hread k).trans (if_neg hk), hmark, hnext, hfree,
      hreserved, hcells, hrelease, ?ends, ?within, ?across, ?fills, ?leaves⟩
    case ends =>
      rintro rfl
      obtain ⟨-, hwriting, -⟩ := s.journal.landed_items (i := i) (r := r) (rest := [])
      simp [Journal.finishWrite_last hw hq, Journal.resumed, hwriting]
    case within =>
      intro n k hrest hi hk hin _ hactive hnear hne hn hblank hbelow hbits
      exact Journal.finishWrite_within hw hq hrest hm hi hk hin hactive hnear hne hn hblank hbelow hbits
    case across =>
      intro k q hrest hi hk hend hlen hactive hnear hv hseq honly hq32 hqk hqblank hslot hfirst
      exact Journal.finishWrite_across hw hq hrest hm hi hk hend hlen hactive hnear hv hseq honly hq32 hqk hqblank hslot hfirst
    case fills =>
      rintro rfl hlen hi hend hnone hnear
      exact Journal.finishWrite_fills hw hq hi hend hlen hnone hnear
    case leaves =>
      rintro k rfl _ _ hk32 hnewest hk hfull herase hnone hreleased honly
      exact Journal.finishWrite_leaves hw hq hk32 hnewest hk hfull herase hnone hreleased honly
  case erase =>
    obtain ⟨hslots, hfree, hlow, hmark, hnewest, hqueue, hreserved, hnext, hwriting⟩ := Journal.finishErase_items he
    refine ⟨s.setJournal s.journal.finishErase, rfl, by rw [State.setJournal_journal], ?_⟩
    rw [State.setJournal_journal]
    have hread : ∀ i, readSlot s.journal.finishErase.slots i =
        if k * 128 ≤ i ∧ i < k * 128 + 128 then blankSlot else readSlot s.journal.slots i := fun i => by
      rw [hslots]
      exact readCell_eraseRange ..
    have hk' : k < s.journal.sectors.length := by omega
    exact ⟨fun i hi => (hread i).trans (if_pos (by omega)), fun i hi => (hread i).trans (if_neg (by omega)),
      Journal.finishErase_blanks he hk', hfree, hlow, hmark, hnewest, hqueue, hreserved, hnext, hwriting,
      Journal.finishErase_ends he hk', fun m hm hmk hs honly => Journal.finishErase_goes_on he hk' hm hmk hs honly⟩

end Sys2Proof.Machine
